-- ==== Sys2Proof/Word.lean ====
section
/-! DEFINITION. Word types of the TX6 (R1, R71) and their plainest arithmetic. -/

namespace Sys2Proof

/-- One byte (R1). -/
abbrev Byte := BitVec 8
/-- One 32-bit register or memory word (R95). -/
abbrev Word := BitVec 32
/-- One 64-bit value: a pair, an address, a witness (R104). -/
abbrev DWord := BitVec 64

/-- A table: key and value pairs with strictly rising keys, the one canonical form of sparse data. -/
abbrev Tab (α : Type) := List (Nat × α)

end Sys2Proof
end

