-- ==== Sys2Proof/Config.lean ====
section
/-! DEFINITION. What the specification leaves open: free values, drawn with a counter or with operands, that nothing
in this package can evaluate (notes/assumptions rows 3, 5 and those named at each constant). -/

namespace Sys2Proof.Config

/-- A byte that the specification does not state (scratch of a new block, R201), drawn with a counter. -/
opaque freeByte : Nat → BitVec 8

/-- A word that the specification does not state, drawn with a counter. -/
opaque freeWord : Nat → BitVec 32

/-- The candidate result of an approximating function (R177): function number and operand bits.
The model takes it only where it lies within the bound of R177. -/
opaque approx : Nat → Nat → Nat

/-- The undisclosed hashes of a Canopy key (R293): 0 the bucket, 1 the set. -/
opaque canopyHash : Nat → Nat → Nat

/-- The rounds that make a fill handle from its entry and GEN (R302): a handle's bits are opaque. -/
opaque handleRound : Nat → BitVec 16 → BitVec 16

/-- Payload bytes of a section of a save image (R389 states none but a handler area's and a fault record's), by the glade,
command, stage and block, and the section's TAG and ITEM. -/
opaque sectionSize : List Nat → Nat → Nat → Nat

/-- Bytes of a compressed spill record of a tile's depth and visibility words (R337). -/
opaque spillSize : List (Nat × BitVec 32) → Nat

/-- The order in which a box node's children are visited, by trace, lane and node (R344). -/
opaque visitOrder : Nat → Nat → Nat → Nat

/-- Where the Canopy heap's frames begin (R27 gives no place). -/
opaque heapFrame : Nat

/-- The core that a peer-forwarding predictor names (R24, R355), drawn with a counter. -/
opaque peerGuess : Nat → Nat

/-- Hops of a mesh request from a core to a home address (R29 gives the routers no places). -/
opaque hops : Nat → Nat → Nat

/-- The cryptographic functions are named by published standards and stay uninterpreted: AES-256-XTS of a line by key and
address with its inverse, and SHA3-512 (R392, R430 to R434). -/
opaque xts : BitVec 512 → Nat → BitVec 1024 → BitVec 1024
opaque unxts : BitVec 512 → Nat → BitVec 1024 → BitVec 1024
opaque sha3 : List (BitVec 8) → BitVec 512
/-- The ML-DSA-87 public key and signatures of the identity that stage 0 derives from BOOT_MEAS0, and its certificate. -/
opaque identityKey : BitVec 512 → List (BitVec 8)
opaque identitySign : BitVec 512 → List (BitVec 8) → List (BitVec 8)
opaque certificate : BitVec 512 → List (BitVec 8)
/-- The encapsulation key of a fresh ML-KEM-1024 key pair, by its number, and the shared secret it decapsulates. -/
opaque kemPublic : Nat → List (BitVec 8)
opaque kemSecret : Nat → List (BitVec 8) → BitVec 256
/-- Whether a ciphertext was made against the encapsulation key of a pair: how firmware tells is not stated (R434). -/
opaque kemAgainst : Nat → List (BitVec 8) → Bool
opaque keyUnwrap : BitVec 256 → List (BitVec 8) → Option (BitVec 512)

end Sys2Proof.Config
end

