-- ==== Sys2Proof/Machine/Map.lean ====
section
/-! DEFINITION. Operations on tables: lists of key and value pairs with strictly rising keys. -/

namespace Sys2Proof.Tab

/-- The value at key `k`, if listed. -/
def val? {α : Type} : Tab α → Nat → Option α
  | [], _ => none
  | (k, v) :: t, k' => if k == k' then some v else if k' < k then none else val? t k'

/-- The value at key `k`, or `d`. -/
def valD {α : Type} (t : Tab α) (k : Nat) (d : α) : α := (val? t k).getD d

/-- Lists `v` at key `k`. -/
def put {α : Type} : Tab α → Nat → α → Tab α
  | [], k', v' => [(k', v')]
  | (k, v) :: t, k', v' =>
    if k == k' then (k', v') :: t else if k' < k then (k', v') :: (k, v) :: t else (k, v) :: put t k' v'

/-- Removes key `k`. -/
def del {α : Type} : Tab α → Nat → Tab α
  | [], _ => []
  | (k, v) :: t, k' => if k == k' then t else if k' < k then (k, v) :: t else (k, v) :: del t k'

/-- Lists `v` at `k`, or removes the entry where `v` is what an unlisted key reads as. -/
def putD {α : Type} [DecidableEq α] (t : Tab α) (k : Nat) (v d : α) : Tab α :=
  if v = d then del t k else put t k v

/-- Changes the value at `k`, where one is listed. -/
def upd {α : Type} (t : Tab α) (k : Nat) (f : α → α) : Tab α :=
  match val? t k with
  | some v => put t k (f v)
  | none => t

/-- Changes every listed value, given its key. -/
def mapV {α β : Type} (t : Tab α) (f : Nat → α → β) : Tab β := t.map fun (k, v) => (k, f k v)

/-- Keeps the entries that satisfy a condition. -/
def keep {α : Type} (t : Tab α) (p : Nat → α → Bool) : Tab α := t.filter fun (k, v) => p k v

/-- The listed keys, rising. -/
def keys {α : Type} (t : Tab α) : List Nat := t.map Prod.fst

/-- The listed values, in key order. -/
def vals {α : Type} (t : Tab α) : List α := t.map Prod.snd

/-- The least key not below `k` that is not listed. -/
def freshFrom {α : Type} : Tab α → Nat → Nat
  | [], n => n
  | (k, _) :: t, n => if n < k then n else if n == k then freshFrom t (n + 1) else freshFrom t n

/-- The first pair whose key lies above `lo` or is not bounded by it. -/
def firstKey {α : Type} (t : Tab α) : Nat := match t with
  | [] => 0
  | (k, _) :: _ => k

/-- Keys rise strictly. -/
def wf {α : Type} : Tab α → Bool
  | [] => true
  | [_] => true
  | (k, _) :: (k', v') :: t => (k < k') && wf ((k', v') :: t)

end Sys2Proof.Tab
end

