-- ==== Sys2Proof/Syntax.lean ====
section
/-! DEFINITION. The instruction and event syntax: one constructor for each row of spec/opcode_table.json. -/

namespace Sys2Proof

/-- The EXT unit that stands before a 32-bit instruction (R110, R111); `none` where the unit has none. -/
inductive Ext where
  | none
  /-- IMM: IMM_HI. -/
  | imm (hi : BitVec 16)
  /-- OFS: a signed 20-bit byte offset. -/
  | ofs (offset : BitVec 20)
  /-- MEM: RCOUNT, POLICY, SCOPE, WIT. -/
  | mem (rc : BitVec 4) (pol : BitVec 2) (scope : BitVec 2) (wit : BitVec 8)
  /-- ATOM: AOP, AU, SCOPE, a signed 12-bit byte offset. -/
  | atom (aop : BitVec 4) (au : Bool) (scope : BitVec 2) (offset : BitVec 12)
  /-- TIMEOUT: TCOUNT in microseconds. -/
  | timeout (tcount : BitVec 20)
  deriving DecidableEq, Repr

/-- Arguments of MAP (R376, R379): page kind 0 LOCAL, 1 HOST, 2 PEER; size code 0 64 KiB, 1 2 MiB, 2 1 GiB;
permissions R, W, X in bits 0, 1, 2. -/
structure PageReq where
  kind : Nat
  target : Nat
  size : Nat
  rwx : BitVec 3
  deriving DecidableEq, Repr

/-- A request of the host or of a peer at a home slice (R392, R396): a read, a write, or an atomic of R245 on a word with its
rounding mode and operand; or a read of memory-mapped registers, of so many bytes (R443). -/
inductive BusOp where
  | read (len : Nat)
  | write (bytes : List Byte)
  | atomic (aop : Nat) (au : Bool) (rnd : Nat) (x : Nat)
  | register (size : Nat)
  deriving DecidableEq, Repr

/-- A firmware image as start-up finds it: its SHA3-512 digest and security version (R430, R431). -/
structure BootImage where
  digest : BitVec 512
  version : Nat
  deriving DecidableEq, Repr

/-- What GRANT gives a glade (R436): a core, a range of 64 KiB frames, a host range, a key slot, a namespace number. -/
inductive Grant where
  | core (n : Nat)
  | frames (first count : Nat)
  | hostRange (pa len : Nat)
  | peerRange (port pa len : Nat)
  | namespaceNo (nsid : Nat)
  deriving DecidableEq, Repr

/-- A PREEMPT request (R383): mode 0 count, 1 mask. -/
structure PreemptReq where
  seq : Nat
  mode : Nat
  count : Nat
  mask : List Nat
  discard : Bool
  deriving DecidableEq, Repr

/-- Instructions, and the events of the device that opcode_table.json lists beside them.
The argument names are the field names of the table; `fa`, `fb` are the trap-if-empty bits (R107). -/
inductive Instr where
  /-- VMOV_16 (R106). -/
  | vmovShort (d : BitVec 6) (b : BitVec 5)
  /-- VADD_I32_16 (R106). -/
  | vaddI32Short (d : BitVec 6) (b : BitVec 5)
  /-- VSUB_I32_16 (R106). -/
  | vsubI32Short (d : BitVec 6) (b : BitVec 5)
  /-- VMUL_I32_16 (R106). -/
  | vmulI32Short (d : BitVec 6) (b : BitVec 5)
  /-- VAND_16 (R106). -/
  | vandShort (d : BitVec 6) (b : BitVec 5)
  /-- VOR_16 (R106). -/
  | vorShort (d : BitVec 6) (b : BitVec 5)
  /-- VXOR_16 (R106). -/
  | vxorShort (d : BitVec 6) (b : BitVec 5)
  /-- VANDN_16 (R106). -/
  | vandnShort (d : BitVec 6) (b : BitVec 5)
  /-- VSHL_16 (R106). -/
  | vshlShort (d : BitVec 6) (b : BitVec 5)
  /-- VSHR_16 (R106). -/
  | vshrShort (d : BitVec 6) (b : BitVec 5)
  /-- VSRA_16 (R106). -/
  | vsraShort (d : BitVec 6) (b : BitVec 5)
  /-- VADD_F32_16 (R106). -/
  | vaddF32Short (d : BitVec 6) (b : BitVec 5)
  /-- VSUB_F32_16 (R106). -/
  | vsubF32Short (d : BitVec 6) (b : BitVec 5)
  /-- VMUL_F32_16 (R106). -/
  | vmulF32Short (d : BitVec 6) (b : BitVec 5)
  /-- VMIN_F32_16 (R106). -/
  | vminF32Short (d : BitVec 6) (b : BitVec 5)
  /-- VMAX_F32_16 (R106). -/
  | vmaxF32Short (d : BitVec 6) (b : BitVec 5)
  /-- SADD (R135). -/
  | sadd (d : BitVec 8) (a : BitVec 8) (b : BitVec 8)
  /-- SSUB (R135). -/
  | ssub (d : BitVec 8) (a : BitVec 8) (b : BitVec 8)
  /-- SMUL (R135). -/
  | smul (d : BitVec 8) (a : BitVec 8) (b : BitVec 8)
  /-- SMULH (R135). -/
  | smulh (d : BitVec 8) (a : BitVec 8) (b : BitVec 8)
  /-- SMULHU (R135). -/
  | smulhu (d : BitVec 8) (a : BitVec 8) (b : BitVec 8)
  /-- SAND (R135). -/
  | sand (d : BitVec 8) (a : BitVec 8) (b : BitVec 8)
  /-- SOR (R135). -/
  | sor (d : BitVec 8) (a : BitVec 8) (b : BitVec 8)
  /-- SXOR (R135). -/
  | sxor (d : BitVec 8) (a : BitVec 8) (b : BitVec 8)
  /-- SANDN (R135). -/
  | sandn (d : BitVec 8) (a : BitVec 8) (b : BitVec 8)
  /-- SSHL (R135). -/
  | sshl (d : BitVec 8) (a : BitVec 8) (b : BitVec 8)
  /-- SSHR (R135). -/
  | sshr (d : BitVec 8) (a : BitVec 8) (b : BitVec 8)
  /-- SSRA (R135). -/
  | ssra (d : BitVec 8) (a : BitVec 8) (b : BitVec 8)
  /-- SROT (R135). -/
  | srot (d : BitVec 8) (a : BitVec 8) (b : BitVec 8)
  /-- SMIN (R135). -/
  | smin (d : BitVec 8) (a : BitVec 8) (b : BitVec 8)
  /-- SMAX (R135). -/
  | smax (d : BitVec 8) (a : BitVec 8) (b : BitVec 8)
  /-- SMINU (R135). -/
  | sminu (d : BitVec 8) (a : BitVec 8) (b : BitVec 8)
  /-- SMAXU (R135). -/
  | smaxu (d : BitVec 8) (a : BitVec 8) (b : BitVec 8)
  /-- SCMP_EQ (R135). -/
  | scmpEq (d : BitVec 8) (a : BitVec 8) (b : BitVec 8)
  /-- SCMP_NE (R135). -/
  | scmpNe (d : BitVec 8) (a : BitVec 8) (b : BitVec 8)
  /-- SCMP_LT (R135). -/
  | scmpLt (d : BitVec 8) (a : BitVec 8) (b : BitVec 8)
  /-- SCMP_LE (R135). -/
  | scmpLe (d : BitVec 8) (a : BitVec 8) (b : BitVec 8)
  /-- SCMP_LTU (R135). -/
  | scmpLtu (d : BitVec 8) (a : BitVec 8) (b : BitVec 8)
  /-- SCMP_LEU (R135). -/
  | scmpLeu (d : BitVec 8) (a : BitVec 8) (b : BitVec 8)
  /-- SSEL (R136). -/
  | ssel (d : BitVec 8) (a : BitVec 8) (b : BitVec 8)
  /-- SBFE (R137). -/
  | sbfe (d : BitVec 8) (a : BitVec 8) (b : BitVec 8)
  /-- SBFI (R137). -/
  | sbfi (d : BitVec 8) (a : BitVec 8) (b : BitVec 8)
  /-- SADD64 (R139). -/
  | sadd64 (d : BitVec 8) (a : BitVec 8) (b : BitVec 8)
  /-- SSUB64 (R139). -/
  | ssub64 (d : BitVec 8) (a : BitVec 8) (b : BitVec 8)
  /-- SSHL64 (R139). -/
  | sshl64 (d : BitVec 8) (a : BitVec 8) (b : BitVec 8)
  /-- SSHR64 (R139). -/
  | sshr64 (d : BitVec 8) (a : BitVec 8) (b : BitVec 8)
  /-- SMUL64 (R139). -/
  | smul64 (d : BitVec 8) (a : BitVec 8) (b : BitVec 8)
  /-- SMOV (R138). -/
  | smov (d : BitVec 8) (a : BitVec 8)
  /-- SABS (R138). -/
  | sabs (d : BitVec 8) (a : BitVec 8)
  /-- SPOPC (R138). -/
  | spopc (d : BitVec 8) (a : BitVec 8)
  /-- SCLZ (R138). -/
  | sclz (d : BitVec 8) (a : BitVec 8)
  /-- SCTZ (R138). -/
  | sctz (d : BitVec 8) (a : BitVec 8)
  /-- SFFS (R138). -/
  | sffs (d : BitVec 8) (a : BitVec 8)
  /-- SFMT (R142). -/
  | sfmt (a : BitVec 8)
  /-- SFMTR (R142). -/
  | sfmtr (d : BitVec 8)
  /-- SFLAGS (R143). -/
  | sflags (d : BitVec 8)
  /-- SMRD (R144). -/
  | smrd (d : BitVec 8)
  /-- SMWR (R144). -/
  | smwr (a : BitVec 8)
  /-- SXSET (R141). -/
  | sxset (x : BitVec 1) (a : BitVec 8)
  /-- SXADD (R141). -/
  | sxadd (x : BitVec 1) (a : BitVec 8)
  /-- SLI (R140). -/
  | sli (x : Ext) (d : BitVec 8) (i : BitVec 16)
  /-- SLIH (R140). -/
  | slih (d : BitVec 8) (i : BitVec 16)
  /-- JMP (R146). -/
  | jmp (o : BitVec 24)
  /-- CALL (R146). -/
  | call (o : BitVec 24)
  /-- RJSET (R147). -/
  | rjset (o : BitVec 24)
  /-- BZ (R146). -/
  | bz (s : BitVec 8) (o : BitVec 16)
  /-- BNZ (R146). -/
  | bnz (s : BitVec 8) (o : BitVec 16)
  /-- VBR (R148). -/
  | vbr (s : BitVec 8) (o : BitVec 16)
  /-- VBRALL (R149). -/
  | vbrall (s : BitVec 8) (o : BitVec 16)
  /-- VBRANY (R149). -/
  | vbrany (s : BitVec 8) (o : BitVec 16)
  /-- NOP (R151). -/
  | nop
  /-- EXIT (R150). -/
  | exit
  /-- YIELD (R151). -/
  | yield
  /-- SLEEP (R151). -/
  | sleep (a : BitVec 8)
  /-- JR (R146). -/
  | jr (a : BitVec 8)
  /-- RET (R146). -/
  | ret (a : BitVec 8)
  /-- TRAP (R153). -/
  | trap (a : BitVec 8)
  /-- RETT (R155). -/
  | rett
  /-- CLOCK (R157). -/
  | clock (d : BitVec 8)
  /-- SYSRD (R156). -/
  | sysrd (d : BitVec 8) (a : BitVec 8)
  /-- SYSWR (R156). -/
  | syswr (d : BitVec 8) (a : BitVec 8)
  /-- HIDRD (R158). -/
  | hidrd (d : BitVec 8) (a : BitVec 8)
  /-- HIDWR (R158). -/
  | hidwr (d : BitVec 8) (a : BitVec 8)
  /-- LAUNCH (R161). -/
  | launch (d : BitVec 8) (a : BitVec 8)
  /-- PASS (R162). -/
  | pass (d : BitVec 8) (a : BitVec 8)
  /-- WMERGE (R248). -/
  | wmerge (d : BitVec 8) (a : BitVec 8) (b : BitVec 8)
  /-- SLD_W (R243). -/
  | sldW (x : Ext) (d : BitVec 8) (a : BitVec 8) (b : BitVec 8)
  /-- SLD_D (R243). -/
  | sldD (x : Ext) (d : BitVec 8) (a : BitVec 8) (b : BitVec 8)
  /-- SST_W (R243). -/
  | sstW (x : Ext) (d : BitVec 8) (a : BitVec 8) (b : BitVec 8)
  /-- SST_D (R243). -/
  | sstD (x : Ext) (d : BitVec 8) (a : BitVec 8) (b : BitVec 8)
  /-- SATOM (R246). -/
  | satom (x : Ext) (d : BitVec 8) (a : BitVec 8) (b : BitVec 8)
  /-- WNULL (R248). -/
  | wnull (d : BitVec 8)
  /-- WCUR (R248). -/
  | wcur (d : BitVec 8)
  /-- WTEST (R248). -/
  | wtest (d : BitVec 8) (a : BitVec 8)
  /-- WAIT_W (R249). -/
  | waitW (x : Ext) (a : BitVec 8)
  /-- WAIT_BAR (R253). -/
  | waitBar (x : Ext) (d : BitVec 8) (a : BitVec 8)
  /-- WAIT_GBAR (R256). -/
  | waitGbar (x : Ext) (d : BitVec 8) (a : BitVec 8)
  /-- WAIT_RING (R258). -/
  | waitRing (x : Ext) (d : BitVec 8) (a : BitVec 8)
  /-- WAIT_MON (R251). -/
  | waitMon (x : Ext) (d : BitVec 8) (a : BitVec 8)
  /-- WAITCNT (R239). -/
  | waitcnt (c : BitVec 3) (t : BitVec 6)
  /-- BARINIT (R253). -/
  | barinit (d : BitVec 8) (a : BitVec 8)
  /-- BARRIVE (R253). -/
  | barrive (a : BitVec 8)
  /-- BAREXPECT (R253). -/
  | barexpect (d : BitVec 8) (a : BitVec 8)
  /-- GBARRIVE (R256). -/
  | gbarrive (a : BitVec 8)
  /-- RINGINIT (R258). -/
  | ringinit (d : BitVec 8) (a : BitVec 8)
  /-- RREL (R258). -/
  | rrel (d : BitVec 8) (a : BitVec 8)
  /-- TBAR (R263). -/
  | tbar (x : Ext) (k : BitVec 2)
  /-- TRED_ADD (R264). -/
  | tredAdd (x : Ext) (d : BitVec 8) (k : BitVec 2) (c : BitVec 3) (t : BitVec 3)
  /-- TRED_MIN (R264). -/
  | tredMin (x : Ext) (d : BitVec 8) (k : BitVec 2) (c : BitVec 3) (t : BitVec 3)
  /-- TRED_MAX (R264). -/
  | tredMax (x : Ext) (d : BitVec 8) (k : BitVec 2) (c : BitVec 3) (t : BitVec 3)
  /-- TRED_AND (R264). -/
  | tredAnd (x : Ext) (d : BitVec 8) (k : BitVec 2) (c : BitVec 3)
  /-- TRED_OR (R264). -/
  | tredOr (x : Ext) (d : BitVec 8) (k : BitVec 2) (c : BitVec 3)
  /-- TQINIT (R267). -/
  | tqinit (d : BitVec 8) (a : BitVec 8)
  /-- TQPUSH (R267). -/
  | tqpush (d : BitVec 8) (a : BitVec 8)
  /-- TQPOP (R267). -/
  | tqpop (x : Ext) (d : BitVec 8) (a : BitVec 8)
  /-- CINV (R247). -/
  | cinv (d : BitVec 8) (a : BitVec 8)
  /-- CWB (R247). -/
  | cwb (d : BitVec 8) (a : BitVec 8)
  /-- PREF (R247). -/
  | pref (x : Ext) (d : BitVec 8) (a : BitVec 8)
  /-- WDESC (R277). -/
  | wdesc (d : BitVec 8) (a : BitVec 8)
  /-- WLOAD (R278). -/
  | wload (a : BitVec 8)
  /-- WFREE (R279). -/
  | wfree (a : BitVec 8)
  /-- ACCST (R290). -/
  | accst (h : BitVec 4) (a : BitVec 8)
  /-- SCABORT (R306). -/
  | scabort (a : BitVec 8)
  /-- SCINVAL (R307). -/
  | scinval (d : BitVec 8) (a : BitVec 8)
  /-- SCFRAME (R310). -/
  | scframe (a : BitVec 8)
  /-- SCSTAT (R311). -/
  | scstat (d : BitVec 8) (a : BitVec 8)
  /-- WPSET (R411). -/
  | wpset (n : BitVec 4) (a : BitVec 8)
  /-- WPGET (R411). -/
  | wpget (d : BitVec 8) (n : BitVec 4)
  /-- DHALT (R412). -/
  | dhalt (a : BitVec 8)
  /-- DRESUME (R412). -/
  | dresume (a : BitVec 8)
  /-- DSTEP (R413). -/
  | dstep (a : BitVec 8)
  /-- DLIST (R415). -/
  | dlist (d : BitVec 8) (a : BitVec 8)
  /-- DRDV (R416). -/
  | drdv (d : BitVec 8) (a : BitVec 8)
  /-- DWRV (R416). -/
  | dwrv (d : BitVec 8) (a : BitVec 8)
  /-- DRDS (R416). -/
  | drds (d : BitVec 8) (a : BitVec 8)
  /-- DWRS (R416). -/
  | dwrs (d : BitVec 8) (a : BitVec 8)
  /-- VLI (R170). -/
  | vli (x : Ext) (d : BitVec 8) (i : BitVec 16)
  /-- TRACE (R343). -/
  | trace (d : BitVec 7) (a : BitVec 7) (s : BitVec 8) (fa : Bool)
  /-- VADD_I32 (R167). -/
  | vaddI32 (d : BitVec 7) (a : BitVec 7) (b : BitVec 7) (fa : Bool) (fb : Bool)
  /-- VSUB_I32 (R167). -/
  | vsubI32 (d : BitVec 7) (a : BitVec 7) (b : BitVec 7) (fa : Bool) (fb : Bool)
  /-- VMUL_I32 (R167). -/
  | vmulI32 (d : BitVec 7) (a : BitVec 7) (b : BitVec 7) (fa : Bool) (fb : Bool)
  /-- VMULH_I32 (R167). -/
  | vmulhI32 (d : BitVec 7) (a : BitVec 7) (b : BitVec 7) (fa : Bool) (fb : Bool)
  /-- VMULH_UI32 (R167). -/
  | vmulhUi32 (d : BitVec 7) (a : BitVec 7) (b : BitVec 7) (fa : Bool) (fb : Bool)
  /-- VMAD_I32 (R167). -/
  | vmadI32 (d : BitVec 7) (a : BitVec 7) (b : BitVec 7) (fa : Bool) (fb : Bool)
  /-- VADDSAT_I32 (R167). -/
  | vaddsatI32 (d : BitVec 7) (a : BitVec 7) (b : BitVec 7) (fa : Bool) (fb : Bool)
  /-- VADDSAT_UI32 (R167). -/
  | vaddsatUi32 (d : BitVec 7) (a : BitVec 7) (b : BitVec 7) (fa : Bool) (fb : Bool)
  /-- VSUBSAT_I32 (R167). -/
  | vsubsatI32 (d : BitVec 7) (a : BitVec 7) (b : BitVec 7) (fa : Bool) (fb : Bool)
  /-- VSUBSAT_UI32 (R167). -/
  | vsubsatUi32 (d : BitVec 7) (a : BitVec 7) (b : BitVec 7) (fa : Bool) (fb : Bool)
  /-- VMIN_I32 (R167). -/
  | vminI32 (d : BitVec 7) (a : BitVec 7) (b : BitVec 7) (fa : Bool) (fb : Bool)
  /-- VMIN_UI32 (R167). -/
  | vminUi32 (d : BitVec 7) (a : BitVec 7) (b : BitVec 7) (fa : Bool) (fb : Bool)
  /-- VMAX_I32 (R167). -/
  | vmaxI32 (d : BitVec 7) (a : BitVec 7) (b : BitVec 7) (fa : Bool) (fb : Bool)
  /-- VMAX_UI32 (R167). -/
  | vmaxUi32 (d : BitVec 7) (a : BitVec 7) (b : BitVec 7) (fa : Bool) (fb : Bool)
  /-- VAND (R167). -/
  | vand (d : BitVec 7) (a : BitVec 7) (b : BitVec 7) (fa : Bool) (fb : Bool)
  /-- VOR (R167). -/
  | vor (d : BitVec 7) (a : BitVec 7) (b : BitVec 7) (fa : Bool) (fb : Bool)
  /-- VXOR (R167). -/
  | vxor (d : BitVec 7) (a : BitVec 7) (b : BitVec 7) (fa : Bool) (fb : Bool)
  /-- VANDN (R167). -/
  | vandn (d : BitVec 7) (a : BitVec 7) (b : BitVec 7) (fa : Bool) (fb : Bool)
  /-- VSHL (R167). -/
  | vshl (d : BitVec 7) (a : BitVec 7) (b : BitVec 7) (fa : Bool) (fb : Bool)
  /-- VROT (R167). -/
  | vrot (d : BitVec 7) (a : BitVec 7) (b : BitVec 7) (fa : Bool) (fb : Bool)
  /-- VSHR (R167). -/
  | vshr (d : BitVec 7) (a : BitVec 7) (b : BitVec 7) (fa : Bool) (fb : Bool)
  /-- VSRA (R167). -/
  | vsra (d : BitVec 7) (a : BitVec 7) (b : BitVec 7) (fa : Bool) (fb : Bool)
  /-- VBFE_UI32 (R168). -/
  | vbfeUi32 (d : BitVec 7) (a : BitVec 7) (b : BitVec 7) (fa : Bool) (fb : Bool)
  /-- VBFE_I32 (R168). -/
  | vbfeI32 (d : BitVec 7) (a : BitVec 7) (b : BitVec 7) (fa : Bool) (fb : Bool)
  /-- VBFI (R168). -/
  | vbfi (d : BitVec 7) (a : BitVec 7) (b : BitVec 7) (fa : Bool) (fb : Bool)
  /-- VADD_F32 (R174). -/
  | vaddF32 (d : BitVec 7) (a : BitVec 7) (b : BitVec 7) (fa : Bool) (fb : Bool)
  /-- VSUB_F32 (R174). -/
  | vsubF32 (d : BitVec 7) (a : BitVec 7) (b : BitVec 7) (fa : Bool) (fb : Bool)
  /-- VADD_F64 (R174). -/
  | vaddF64 (d : BitVec 7) (a : BitVec 7) (b : BitVec 7) (fa : Bool) (fb : Bool)
  /-- VSUB_F64 (R174). -/
  | vsubF64 (d : BitVec 7) (a : BitVec 7) (b : BitVec 7) (fa : Bool) (fb : Bool)
  /-- VMUL_F32 (R174). -/
  | vmulF32 (d : BitVec 7) (a : BitVec 7) (b : BitVec 7) (fa : Bool) (fb : Bool)
  /-- VMUL_F64 (R174). -/
  | vmulF64 (d : BitVec 7) (a : BitVec 7) (b : BitVec 7) (fa : Bool) (fb : Bool)
  /-- VFMA_F32 (R174). -/
  | vfmaF32 (d : BitVec 7) (a : BitVec 7) (b : BitVec 7) (fa : Bool) (fb : Bool)
  /-- VFMA_F64 (R174). -/
  | vfmaF64 (d : BitVec 7) (a : BitVec 7) (b : BitVec 7) (fa : Bool) (fb : Bool)
  /-- VMIN_F32 (R174). -/
  | vminF32 (d : BitVec 7) (a : BitVec 7) (b : BitVec 7) (fa : Bool) (fb : Bool)
  /-- VMAX_F32 (R174). -/
  | vmaxF32 (d : BitVec 7) (a : BitVec 7) (b : BitVec 7) (fa : Bool) (fb : Bool)
  /-- VDIV_F32 (R174). -/
  | vdivF32 (d : BitVec 7) (a : BitVec 7) (b : BitVec 7) (fa : Bool) (fb : Bool)
  /-- VDIV_F64 (R174). -/
  | vdivF64 (d : BitVec 7) (a : BitVec 7) (b : BitVec 7) (fa : Bool) (fb : Bool)
  /-- VADD_F16X2 (R174). -/
  | vaddF16x2 (d : BitVec 7) (a : BitVec 7) (b : BitVec 7) (fa : Bool) (fb : Bool)
  /-- VADD_BF16X2 (R174). -/
  | vaddBf16x2 (d : BitVec 7) (a : BitVec 7) (b : BitVec 7) (fa : Bool) (fb : Bool)
  /-- VMUL_F16X2 (R174). -/
  | vmulF16x2 (d : BitVec 7) (a : BitVec 7) (b : BitVec 7) (fa : Bool) (fb : Bool)
  /-- VMUL_BF16X2 (R174). -/
  | vmulBf16x2 (d : BitVec 7) (a : BitVec 7) (b : BitVec 7) (fa : Bool) (fb : Bool)
  /-- VFMA_F16X2 (R174). -/
  | vfmaF16x2 (d : BitVec 7) (a : BitVec 7) (b : BitVec 7) (fa : Bool) (fb : Bool)
  /-- VFMA_BF16X2 (R174). -/
  | vfmaBf16x2 (d : BitVec 7) (a : BitVec 7) (b : BitVec 7) (fa : Bool) (fb : Bool)
  /-- VMIN_F16X2 (R174). -/
  | vminF16x2 (d : BitVec 7) (a : BitVec 7) (b : BitVec 7) (fa : Bool) (fb : Bool)
  /-- VMIN_BF16X2 (R174). -/
  | vminBf16x2 (d : BitVec 7) (a : BitVec 7) (b : BitVec 7) (fa : Bool) (fb : Bool)
  /-- VMAX_F16X2 (R174). -/
  | vmaxF16x2 (d : BitVec 7) (a : BitVec 7) (b : BitVec 7) (fa : Bool) (fb : Bool)
  /-- VMAX_BF16X2 (R174). -/
  | vmaxBf16x2 (d : BitVec 7) (a : BitVec 7) (b : BitVec 7) (fa : Bool) (fb : Bool)
  /-- VCMP_EQ_I32 (R173). -/
  | vcmpEqI32 (d : BitVec 7) (a : BitVec 7) (b : BitVec 7) (fa : Bool) (fb : Bool)
  /-- VCMP_NE_I32 (R173). -/
  | vcmpNeI32 (d : BitVec 7) (a : BitVec 7) (b : BitVec 7) (fa : Bool) (fb : Bool)
  /-- VCMP_LT_I32 (R173). -/
  | vcmpLtI32 (d : BitVec 7) (a : BitVec 7) (b : BitVec 7) (fa : Bool) (fb : Bool)
  /-- VCMP_LT_UI32 (R173). -/
  | vcmpLtUi32 (d : BitVec 7) (a : BitVec 7) (b : BitVec 7) (fa : Bool) (fb : Bool)
  /-- VCMP_LE_I32 (R173). -/
  | vcmpLeI32 (d : BitVec 7) (a : BitVec 7) (b : BitVec 7) (fa : Bool) (fb : Bool)
  /-- VCMP_LE_UI32 (R173). -/
  | vcmpLeUi32 (d : BitVec 7) (a : BitVec 7) (b : BitVec 7) (fa : Bool) (fb : Bool)
  /-- VCMP_EQ_F32 (R173). -/
  | vcmpEqF32 (d : BitVec 7) (a : BitVec 7) (b : BitVec 7) (fa : Bool) (fb : Bool)
  /-- VCMP_EQ_F64 (R173). -/
  | vcmpEqF64 (d : BitVec 7) (a : BitVec 7) (b : BitVec 7) (fa : Bool) (fb : Bool)
  /-- VCMP_NE_F32 (R173). -/
  | vcmpNeF32 (d : BitVec 7) (a : BitVec 7) (b : BitVec 7) (fa : Bool) (fb : Bool)
  /-- VCMP_NE_F64 (R173). -/
  | vcmpNeF64 (d : BitVec 7) (a : BitVec 7) (b : BitVec 7) (fa : Bool) (fb : Bool)
  /-- VCMP_LT_F32 (R173). -/
  | vcmpLtF32 (d : BitVec 7) (a : BitVec 7) (b : BitVec 7) (fa : Bool) (fb : Bool)
  /-- VCMP_LT_F64 (R173). -/
  | vcmpLtF64 (d : BitVec 7) (a : BitVec 7) (b : BitVec 7) (fa : Bool) (fb : Bool)
  /-- VCMP_LE_F32 (R173). -/
  | vcmpLeF32 (d : BitVec 7) (a : BitVec 7) (b : BitVec 7) (fa : Bool) (fb : Bool)
  /-- VCMP_LE_F64 (R173). -/
  | vcmpLeF64 (d : BitVec 7) (a : BitVec 7) (b : BitVec 7) (fa : Bool) (fb : Bool)
  /-- VDOT_I8X4 (R180). -/
  | vdotI8x4 (d : BitVec 7) (a : BitVec 7) (b : BitVec 7) (fa : Bool) (fb : Bool)
  /-- VDOT_E4M3X4 (R180). -/
  | vdotE4m3x4 (d : BitVec 7) (a : BitVec 7) (b : BitVec 7) (fa : Bool) (fb : Bool)
  /-- VDOT_BF16X2 (R180). -/
  | vdotBf16x2 (d : BitVec 7) (a : BitVec 7) (b : BitVec 7) (fa : Bool) (fb : Bool)
  /-- VDOT_E2M1B (R181). -/
  | vdotE2m1b (d : BitVec 7) (a : BitVec 7) (b : BitVec 7) (fa : Bool) (fb : Bool)
  /-- VMOVS (R171). -/
  | vmovs (d : BitVec 7) (s : BitVec 8)
  /-- VSEL (R171). -/
  | vsel (d : BitVec 7) (a : BitVec 7) (s : BitVec 8) (fa : Bool)
  /-- VLANE (R172). -/
  | vlane (d : BitVec 7) (a : BitVec 7) (s : BitVec 8) (fa : Bool)
  /-- VBCAST (R172). -/
  | vbcast (d : BitVec 7) (a : BitVec 7) (s : BitVec 8) (fa : Bool)
  /-- XBLOAD (R188). -/
  | xbload (t : BitVec 4) (s : BitVec 8)
  /-- VDEC (R191). -/
  | vdec (d : BitVec 7) (s : BitVec 8)
  /-- VSHFL_XOR (R182). -/
  | vshflXor (d : BitVec 7) (a : BitVec 7) (n : BitVec 5) (fa : Bool)
  /-- VSHFL_UP (R182). -/
  | vshflUp (d : BitVec 7) (a : BitVec 7) (n : BitVec 5) (fa : Bool)
  /-- VSHFL_DOWN (R182). -/
  | vshflDown (d : BitVec 7) (a : BitVec 7) (n : BitVec 5) (fa : Bool)
  /-- VIX_VMOV (R169). -/
  | vixVmov (d : BitVec 7) (a : BitVec 7) (fa : Bool) (t : BitVec 3)
  /-- VIX_VABS (R169). -/
  | vixVabs (d : BitVec 7) (a : BitVec 7) (fa : Bool) (t : BitVec 3)
  /-- VIX_VNEG (R169). -/
  | vixVneg (d : BitVec 7) (a : BitVec 7) (fa : Bool) (t : BitVec 3)
  /-- VIX_VNOT (R169). -/
  | vixVnot (d : BitVec 7) (a : BitVec 7) (fa : Bool) (t : BitVec 3)
  /-- VIX_VPOPC (R169). -/
  | vixVpopc (d : BitVec 7) (a : BitVec 7) (fa : Bool) (t : BitVec 3)
  /-- VIX_VCLZ (R169). -/
  | vixVclz (d : BitVec 7) (a : BitVec 7) (fa : Bool) (t : BitVec 3)
  /-- VIX_VBREV (R169). -/
  | vixVbrev (d : BitVec 7) (a : BitVec 7) (fa : Bool) (t : BitVec 3)
  /-- VIX_VADD (R169). -/
  | vixVadd (d : BitVec 7) (a : BitVec 7) (fa : Bool) (t : BitVec 3)
  /-- VIX_VSUB (R169). -/
  | vixVsub (d : BitVec 7) (a : BitVec 7) (fa : Bool) (t : BitVec 3)
  /-- VIX_VMUL (R169). -/
  | vixVmul (d : BitVec 7) (a : BitVec 7) (fa : Bool) (t : BitVec 3)
  /-- VIX_VMULH (R169). -/
  | vixVmulh (d : BitVec 7) (a : BitVec 7) (fa : Bool) (t : BitVec 3)
  /-- VIX_VADDSAT (R169). -/
  | vixVaddsat (d : BitVec 7) (a : BitVec 7) (fa : Bool) (t : BitVec 3)
  /-- VIX_VSUBSAT (R169). -/
  | vixVsubsat (d : BitVec 7) (a : BitVec 7) (fa : Bool) (t : BitVec 3)
  /-- VIX_VMIN (R169). -/
  | vixVmin (d : BitVec 7) (a : BitVec 7) (fa : Bool) (t : BitVec 3)
  /-- VIX_VMAX (R169). -/
  | vixVmax (d : BitVec 7) (a : BitVec 7) (fa : Bool) (t : BitVec 3)
  /-- VIX_VSHL (R169). -/
  | vixVshl (d : BitVec 7) (a : BitVec 7) (fa : Bool) (t : BitVec 3)
  /-- VIX_VSHR (R169). -/
  | vixVshr (d : BitVec 7) (a : BitVec 7) (fa : Bool) (t : BitVec 3)
  /-- VIX_VSRA (R169). -/
  | vixVsra (d : BitVec 7) (a : BitVec 7) (fa : Bool) (t : BitVec 3)
  /-- VIX_VROT (R169). -/
  | vixVrot (d : BitVec 7) (a : BitVec 7) (fa : Bool) (t : BitVec 3)
  /-- VFX_VABS (R175). -/
  | vfxVabs (d : BitVec 7) (a : BitVec 7) (fa : Bool) (t : BitVec 3)
  /-- VFX_VNEG (R175). -/
  | vfxVneg (d : BitVec 7) (a : BitVec 7) (fa : Bool) (t : BitVec 3)
  /-- VFX_VRND (R175). -/
  | vfxVrnd (d : BitVec 7) (a : BitVec 7) (fa : Bool) (t : BitVec 3)
  /-- VFX_VFRAC (R175). -/
  | vfxVfrac (d : BitVec 7) (a : BitVec 7) (fa : Bool) (t : BitVec 3)
  /-- VFX_VCLASS (R176). -/
  | vfxVclass (d : BitVec 7) (a : BitVec 7) (fa : Bool) (t : BitVec 3)
  /-- VFX_VSQRT (R175). -/
  | vfxVsqrt (d : BitVec 7) (a : BitVec 7) (fa : Bool) (t : BitVec 3)
  /-- VFX_VRCP (R177). -/
  | vfxVrcp (d : BitVec 7) (a : BitVec 7) (fa : Bool) (t : BitVec 3)
  /-- VFX_VRSQ (R177). -/
  | vfxVrsq (d : BitVec 7) (a : BitVec 7) (fa : Bool) (t : BitVec 3)
  /-- VFX_VEXP2 (R177). -/
  | vfxVexp2 (d : BitVec 7) (a : BitVec 7) (fa : Bool) (t : BitVec 3)
  /-- VFX_VLOG2 (R177). -/
  | vfxVlog2 (d : BitVec 7) (a : BitVec 7) (fa : Bool) (t : BitVec 3)
  /-- VFX_VSIN (R177). -/
  | vfxVsin (d : BitVec 7) (a : BitVec 7) (fa : Bool) (t : BitVec 3)
  /-- VFX_VCOS (R177). -/
  | vfxVcos (d : BitVec 7) (a : BitVec 7) (fa : Bool) (t : BitVec 3)
  /-- VFX_VTANH (R177). -/
  | vfxVtanh (d : BitVec 7) (a : BitVec 7) (fa : Bool) (t : BitVec 3)
  /-- VCVT_FLOAT_FROM_FLOAT (R178). -/
  | vcvtFloatFromFloat (d : BitVec 7) (a : BitVec 7) (y : BitVec 3) (x : BitVec 3) (fa : Bool)
  /-- VCVT_FLOAT_FROM_INTEGER (R178). -/
  | vcvtFloatFromInteger (d : BitVec 7) (a : BitVec 7) (y : BitVec 3) (x : BitVec 3) (fa : Bool)
  /-- VCVT_INTEGER_FROM_FLOAT (R178). -/
  | vcvtIntegerFromFloat (d : BitVec 7) (a : BitVec 7) (y : BitVec 3) (x : BitVec 3) (fa : Bool)
  /-- VCVT_INTEGER_FROM_INTEGER (R178). -/
  | vcvtIntegerFromInteger (d : BitVec 7) (a : BitVec 7) (y : BitVec 3) (x : BitVec 3) (fa : Bool)
  /-- VPACK (R179). -/
  | vpack (d : BitVec 7) (a : BitVec 7) (n : BitVec 3) (w : BitVec 3) (fa : Bool)
  /-- VUNPACK (R179). -/
  | vunpack (d : BitVec 7) (a : BitVec 7) (n : BitVec 3) (w : BitVec 3) (fa : Bool)
  /-- VSCAN (R183). -/
  | vscan (d : BitVec 7) (a : BitVec 7) (e : BitVec 1) (t : BitVec 1) (o : BitVec 2) (fa : Bool)
  /-- VRED_ADD (R184). -/
  | vredAdd (d : BitVec 7) (a : BitVec 7) (fa : Bool) (t : BitVec 3)
  /-- VRED_MIN (R184). -/
  | vredMin (d : BitVec 7) (a : BitVec 7) (fa : Bool) (t : BitVec 3)
  /-- VRED_MAX (R184). -/
  | vredMax (d : BitVec 7) (a : BitVec 7) (fa : Bool) (t : BitVec 3)
  /-- VRED_AND (R184). -/
  | vredAnd (d : BitVec 7) (a : BitVec 7) (fa : Bool)
  /-- VRED_OR (R184). -/
  | vredOr (d : BitVec 7) (a : BitVec 7) (fa : Bool)
  /-- VBALLOT (R185). -/
  | vballot (d : BitVec 7) (a : BitVec 7) (fa : Bool)
  /-- VMATCH (R185). -/
  | vmatch (d : BitVec 7) (a : BitVec 7) (fa : Bool)
  /-- VCOMPACT (R185). -/
  | vcompact (d : BitVec 7) (a : BitVec 7) (fa : Bool)
  /-- VSHFL_IDX (R182). -/
  | vshflIdx (d : BitVec 7) (a : BitVec 7) (fa : Bool)
  /-- VXBAR (R189). -/
  | vxbar (d : BitVec 7) (a : BitVec 7) (t : BitVec 4) (fa : Bool) (c : BitVec 3)
  /-- VLD_B (R241). -/
  | vldB (x : Ext) (d : BitVec 7) (a : BitVec 7) (s : BitVec 8) (fa : Bool)
  /-- VLDS_B (R241). -/
  | vldsB (x : Ext) (d : BitVec 7) (a : BitVec 7) (s : BitVec 8) (fa : Bool)
  /-- VLD_H (R241). -/
  | vldH (x : Ext) (d : BitVec 7) (a : BitVec 7) (s : BitVec 8) (fa : Bool)
  /-- VLDS_H (R241). -/
  | vldsH (x : Ext) (d : BitVec 7) (a : BitVec 7) (s : BitVec 8) (fa : Bool)
  /-- VLD_W (R241). -/
  | vldW (x : Ext) (d : BitVec 7) (a : BitVec 7) (s : BitVec 8) (fa : Bool)
  /-- VLDS_W (R241). -/
  | vldsW (x : Ext) (d : BitVec 7) (a : BitVec 7) (s : BitVec 8) (fa : Bool)
  /-- VLD_D (R241). -/
  | vldD (x : Ext) (d : BitVec 7) (a : BitVec 7) (s : BitVec 8) (fa : Bool)
  /-- VLDS_D (R241). -/
  | vldsD (x : Ext) (d : BitVec 7) (a : BitVec 7) (s : BitVec 8) (fa : Bool)
  /-- VLD_Q (R241). -/
  | vldQ (x : Ext) (d : BitVec 7) (a : BitVec 7) (s : BitVec 8) (fa : Bool)
  /-- VLDS_Q (R241). -/
  | vldsQ (x : Ext) (d : BitVec 7) (a : BitVec 7) (s : BitVec 8) (fa : Bool)
  /-- VST_B (R241). -/
  | vstB (x : Ext) (d : BitVec 7) (a : BitVec 7) (s : BitVec 8) (fa : Bool)
  /-- VSTS_B (R241). -/
  | vstsB (x : Ext) (d : BitVec 7) (a : BitVec 7) (s : BitVec 8) (fa : Bool)
  /-- VST_H (R241). -/
  | vstH (x : Ext) (d : BitVec 7) (a : BitVec 7) (s : BitVec 8) (fa : Bool)
  /-- VSTS_H (R241). -/
  | vstsH (x : Ext) (d : BitVec 7) (a : BitVec 7) (s : BitVec 8) (fa : Bool)
  /-- VST_W (R241). -/
  | vstW (x : Ext) (d : BitVec 7) (a : BitVec 7) (s : BitVec 8) (fa : Bool)
  /-- VSTS_W (R241). -/
  | vstsW (x : Ext) (d : BitVec 7) (a : BitVec 7) (s : BitVec 8) (fa : Bool)
  /-- VST_D (R241). -/
  | vstD (x : Ext) (d : BitVec 7) (a : BitVec 7) (s : BitVec 8) (fa : Bool)
  /-- VSTS_D (R241). -/
  | vstsD (x : Ext) (d : BitVec 7) (a : BitVec 7) (s : BitVec 8) (fa : Bool)
  /-- VST_Q (R241). -/
  | vstQ (x : Ext) (d : BitVec 7) (a : BitVec 7) (s : BitVec 8) (fa : Bool)
  /-- VSTS_Q (R241). -/
  | vstsQ (x : Ext) (d : BitVec 7) (a : BitVec 7) (s : BitVec 8) (fa : Bool)
  /-- VATOM (R244). -/
  | vatom (x : Ext) (d : BitVec 7) (a : BitVec 7) (s : BitVec 8) (fa : Bool)
  /-- VATOM_RTN (R244). -/
  | vatomRtn (x : Ext) (d : BitVec 7) (a : BitVec 7) (s : BitVec 8) (fa : Bool)
  /-- VCOPY_4_G2S (R259). -/
  | vcopy4G2s (x : Ext) (d : BitVec 7) (a : BitVec 7) (s : BitVec 8) (fa : Bool)
  /-- VCOPY_8_G2S (R259). -/
  | vcopy8G2s (x : Ext) (d : BitVec 7) (a : BitVec 7) (s : BitVec 8) (fa : Bool)
  /-- VCOPY_16_G2S (R259). -/
  | vcopy16G2s (x : Ext) (d : BitVec 7) (a : BitVec 7) (s : BitVec 8) (fa : Bool)
  /-- VCOPY_4_S2G (R259). -/
  | vcopy4S2g (x : Ext) (d : BitVec 7) (a : BitVec 7) (s : BitVec 8) (fa : Bool)
  /-- VCOPY_8_S2G (R259). -/
  | vcopy8S2g (x : Ext) (d : BitVec 7) (a : BitVec 7) (s : BitVec 8) (fa : Bool)
  /-- VCOPY_16_S2G (R259). -/
  | vcopy16S2g (x : Ext) (d : BitVec 7) (a : BitVec 7) (s : BitVec 8) (fa : Bool)
  /-- VCOPY_4_G2G (R259). -/
  | vcopy4G2g (x : Ext) (d : BitVec 7) (a : BitVec 7) (s : BitVec 8) (fa : Bool)
  /-- VCOPY_8_G2G (R259). -/
  | vcopy8G2g (x : Ext) (d : BitVec 7) (a : BitVec 7) (s : BitVec 8) (fa : Bool)
  /-- VCOPY_16_G2G (R259). -/
  | vcopy16G2g (x : Ext) (d : BitVec 7) (a : BitVec 7) (s : BitVec 8) (fa : Bool)
  /-- MMA (R283). -/
  | mma (h : BitVec 4) (a : BitVec 7) (s : BitVec 8) (fa : Bool)
  /-- MMA_CLR (R283). -/
  | mmaClr (h : BitVec 4) (a : BitVec 7) (s : BitVec 8) (fa : Bool)
  /-- ACCRD (R289). -/
  | accrd (d : BitVec 7) (h : BitVec 4)
  /-- ACCWR (R289). -/
  | accwr (h : BitVec 4) (a : BitVec 7) (fa : Bool)
  /-- ACCCLR (R289). -/
  | accclr (h : BitVec 4)
  /-- SCLOOK (R303). -/
  | sclook (d : BitVec 7) (a : BitVec 7) (s : BitVec 8) (fa : Bool)
  /-- SCFILL (R305). -/
  | scfill (d : BitVec 7) (a : BitVec 7) (s : BitVec 8) (fa : Bool)
  /-- PRIMEMIT (R327). -/
  | primemit (a : BitVec 7) (fa : Bool)
  /-- MESHEND (R328). -/
  | meshend
  /-- RSGET (R334). -/
  | rsget (d : BitVec 7)
  /-- RTWRITE (R335). -/
  | rtwrite (a : BitVec 7) (fa : Bool) (n : BitVec 3)
  /-- RTREAD (R335). -/
  | rtread (d : BitVec 7) (n : BitVec 3)
  /-- HITRD (R347). -/
  | hitrd (d : BitVec 7) (a : BitVec 7) (fa : Bool)
  /-- HDONE_SAVE (R385). -/
  | hdoneSave (wid : Nat)
  /-- HDONE_RESTORE (R387). -/
  | hdoneRestore (wid : Nat)
  /-- HDONE_STEP (R414). -/
  | hdoneStep (wid : Nat)
  /-- DESCRIPTOR_CHECK (R43). -/
  | descriptorCheck (cmd : Nat)
  /-- ENTRY_DEPENDENCE_SATISFIED (R48). -/
  | entryDependenceSatisfied (cmd : Nat)
  /-- BLOCK_PLACEMENT (R52). -/
  | blockPlacement (cmd : Nat)
  /-- PENDING_TIMEOUT (R53). -/
  | pendingTimeout (blk : Nat)
  /-- BLOCK_DONE (R49). -/
  | blockDone (blk : Nat)
  /-- COMPLETION_RECORD_WRITE (R45). -/
  | completionRecordWrite (cmd : Nat)
  /-- LOAD_PERFORM (R199). -/
  | loadPerform (op : Nat)
  /-- STORE_PERFORM (R199). -/
  | storePerform (op : Nat)
  /-- STORE_LAND (R211). -/
  | storeLand (core : Nat) (ctx : Nat) (line : Nat)
  /-- ATOMIC_EXECUTE (R226). -/
  | atomicExecute (op : Nat)
  /-- L1_DEADLINE_WRITE_BACK (R202). -/
  | l1DeadlineWriteBack (core : Nat) (ctx : Nat) (line : Nat)
  /-- L1_LINE_EXPIRY (R203). -/
  | l1LineExpiry (core : Nat) (ctx : Nat) (line : Nat)
  /-- ICACHE_LINE_EXPIRY (R442). -/
  | icacheLineExpiry (core : Nat) (ctx : Nat) (line : Nat)
  /-- LANDING_PROBE (R222). -/
  | landingProbe (probe : Nat)
  /-- LANDING_PROBE_ANSWER (R222). -/
  | landingProbeAnswer (probe : Nat)
  /-- WRITE_BACK_DEMAND (R359). -/
  | writeBackDemand (g : Nat) (core : Nat)
  /-- EPOCH_ADVANCE (R215). -/
  | epochAdvance (g : Nat) (seen : List Nat)
  /-- COMPLETED_EPOCH_PUBLISH (R360). -/
  | completedEpochPublish (g : Nat) (seen : List Nat)
  /-- WAIT_TIMEOUT (R250). -/
  | waitTimeout (wid : Nat) (eid : Nat)
  /-- MONITOR_REREAD (R251). -/
  | monitorReread (wid : Nat) (eid : Nat)
  /-- SLEEP_END (R151). -/
  | sleepEnd (wid : Nat) (eid : Nat)
  /-- BARRIVE_APPLY (R253). -/
  | barriveApply (op : Nat)
  /-- GBARRIVE_APPLY (R256). -/
  | gbarriveApply (op : Nat)
  /-- COPY_LAND (R261). -/
  | copyLand (op : Nat)
  /-- TQ_REQUEST_ARRIVAL (R267). -/
  | tqRequestArrival (op : Nat)
  /-- TQ_PUSH_LANDED (R267). -/
  | tqPushLanded (op : Nat)
  /-- TQ_POP_DELIVER (R267). -/
  | tqPopDeliver (op : Nat)
  /-- TBAR_RELEASE (R263). -/
  | tbarRelease (cmd : Nat) (team : Nat)
  /-- TRED_RELEASE (R264). -/
  | tredRelease (cmd : Nat) (team : Nat)
  /-- VDEC_COMPLETE (R196). -/
  | vdecComplete (op : Nat)
  /-- TRACE_COMPLETE (R346). -/
  | traceComplete (op : Nat)
  /-- ACCUMULATOR_OP_COMPLETE (R271). -/
  | accumulatorOpComplete (op : Nat)
  /-- FUSION_WINDOW_EXPIRY (R286). -/
  | fusionWindowExpiry (core : Nat) (quad : Nat)
  /-- MATRIX_PASS_START (R287). -/
  | matrixPassStart (core : Nat) (quad : Nat)
  /-- MATRIX_PASS_END (R287). -/
  | matrixPassEnd (core : Nat) (quad : Nat)
  /-- ACCUMULATOR_TILE_WRITE (R285). -/
  | accumulatorTileWrite (core : Nat) (quad : Nat)
  /-- WLOAD_FILL (R278). -/
  | wloadFill (op : Nat)
  /-- SLOT_FREE (R276). -/
  | slotFree (blk : Nat) (part : Nat) (slot : Nat)
  /-- CANOPY_LOOKUP (R304). -/
  | canopyLookup (op : Nat)
  /-- CANOPY_FILL (R305). -/
  | canopyFill (op : Nat)
  /-- CANOPY_ABORT (R306). -/
  | canopyAbort (op : Nat)
  /-- SWEEP_POINT (R309). -/
  | sweepPoint (op : Nat)
  /-- SWEEP_WALK (R309). -/
  | sweepWalk (op : Nat)
  /-- FRAME_ADVANCE (R310). -/
  | frameAdvance (op : Nat)
  /-- CANOPY_TIMER_EXPIRY (R312). -/
  | canopyTimerExpiry (entry : Nat)
  /-- NOTIFY_WORD_ADVANCE (R300). -/
  | notifyWordAdvance (g : Nat) (n : Nat)
  /-- PASS_DESCRIPTOR_CHECK (R321). -/
  | passDescriptorCheck (cmd : Nat)
  /-- MESH_DISPATCH (R326). -/
  | meshDispatch (cmd : Nat)
  /-- MESH_STAGE_CLOSE (R326). -/
  | meshStageClose (cmd : Nat)
  /-- BINNER_ACCEPT (R329). -/
  | binnerAccept (op : Nat)
  /-- FLUSH_ROUND_END (R337). -/
  | flushRoundEnd (cmd : Nat)
  /-- TILE_RASTERISE (R331). -/
  | tileRasterise (cmd : Nat) (blk : Nat)
  /-- TILE_RASTER_END (R333). -/
  | tileRasterEnd (cmd : Nat) (tile : Nat)
  /-- TILE_RELEASE (R336). -/
  | tileRelease (cmd : Nat) (tile : Nat)
  /-- TILE_WRITES_LANDED (R336). -/
  | tileWritesLanded (cmd : Nat) (tile : Nat)
  /-- PASS_STATUS_WRITE (R322). -/
  | passStatusWrite (cmd : Nat)
  /-- QUIESCE_CANCEL_TIMEOUT (R64). -/
  | quiesceCancelTimeout (blk : Nat)
  /-- CANCEL_ANSWER (R388). -/
  | cancelAnswer (op : Nat) (applied : Bool)
  /-- PREEMPT_DELIVERY (R384). -/
  | preemptDelivery (blk : Nat)
  /-- SAVE_BUDGET_EXPIRY (R385). -/
  | saveBudgetExpiry (blk : Nat)
  /-- BLOCK_SAVED (R385). -/
  | blockSaved (blk : Nat)
  /-- STEP_DELIVERY (R414). -/
  | stepDelivery (wid : Nat)
  /-- HALT_BROADCAST (R407). -/
  | haltBroadcast (wid : Nat)
  /-- WATCHDOG_WINDOW (R67). -/
  | watchdogWindow (g : Nat) (ctx : Nat)
  /-- CONTEXT_FAULT_DRAIN_EXPIRY (R370). -/
  | contextFaultDrainExpiry (g : Nat) (ctx : Nat)
  /-- COW_RESOLVED (R375). -/
  | cowResolved (g : Nat) (ctx : Nat) (page : Nat)
  /-- SAMPLE (R420). -/
  | sample (core : Nat) (quad : Nat)
  /-- DROOP_EVENT_START (R425). -/
  | droopEventStart (dom : Nat) (mv : Nat)
  /-- DROOP_EVENT_END (R425). -/
  | droopEventEnd (dom : Nat) (mv : Nat)
  /-- TEMPERATURE_SAMPLE (R426). -/
  | temperatureSample (dom : Nat) (celsius : Nat)
  /-- SKEW_MEASURE (R427). -/
  | skewMeasure (path : Nat) (offset : BitVec 64) (err : Nat)
  /-- REPLAY_PASS_END (R423). -/
  | replayPassEnd (g : Nat)
  /-- POWER_WINDOW (R438). -/
  | powerWindow (watts : Nat) (gladeWatts : List Nat)
  /-- THERMAL_STEP (R438). -/
  | thermalStep (celsius : Nat)
  /-- THERMAL_TRIP (R438). -/
  | thermalTrip (celsius : Nat)
  /-- BANDWIDTH_WINDOW (R382). -/
  | bandwidthWindow (g : Nat)
  /-- DEDUP_COMPARE (R391). -/
  | dedupCompare (g : Nat) (ctxA : Nat) (vaA : Nat) (ctxB : Nat) (vaB : Nat)
  /-- CORRECTABLE_ERROR (R361). -/
  | correctableError (src : Nat) (loc : Nat)
  /-- UNCORRECTABLE_ERROR (R362). -/
  | uncorrectableError (src : Nat) (loc : Nat) (victim : Nat)
  /-- ERROR_PERIOD_END (R362). -/
  | errorPeriodEnd (src : Nat)
  /-- WINDTHROW (R364). -/
  | windthrow (slice : Nat)
  /-- WINDTHROW_STEP_DONE (R364). -/
  | windthrowStepDone
  /-- BUCKET_MOVE (R365). -/
  | bucketMove
  /-- ROW_SPARING (R363). -/
  | rowSparing (src : Nat)
  /-- CORE_REMOVAL (R390). -/
  | coreRemoval (core : Nat)
  /-- WAY_DRAIN_SLICE_DONE (R210). -/
  | wayDrainSliceDone (g : Nat) (slice : Nat)
  /-- CLEARING_UNIT_DONE (R394). -/
  | clearingUnitDone
  /-- TRANSLATION_CHANGE_COMPLETE (R379). -/
  | translationChangeComplete (vf : Nat)
  /-- CTX_CLOSE_COMPLETE (R381). -/
  | ctxCloseComplete (vf : Nat)
  /-- PYURA_PORT_DOWN (R396). -/
  | pyuraPortDown (port : Nat)
  /-- PYURA_PORT_UP (R396). -/
  | pyuraPortUp (port : Nat)
  /-- HOST_STORE (R223). -/
  | hostStore (pa : Nat) (bytes : List Byte)
  /-- PEER_REQUEST (R396). -/
  | peerRequest (port : Nat) (pa : Nat) (op : BusOp)
  /-- POWER_ON_RESET (R428). -/
  | powerOnReset
  /-- DEVICE_RESET (R429). -/
  | deviceReset
  /-- WARM_RESET (R429). -/
  | warmReset
  /-- STANDBY_POWER_LOSS (R394). -/
  | standbyPowerLoss
  /-- STAGE0_COMPLETE (R428). -/
  | stage0Complete (digest : BitVec 512) (version : Nat)
  /-- STAGE1_COMPLETE (R428). -/
  | stage1Complete (failedCores : List Nat) (failedSlices : List Nat) (system : BootImage) (control : BootImage)
  /-- STAGE2_COMPLETE (R428). -/
  | stage2Complete
  /-- STARTUP_BOUND_MISSED (R428). -/
  | startupBoundMissed
  /-- REGISTER_WRITE (R443). -/
  | registerWrite (addr : Nat) (size : Nat) (value : BitVec 64)
  /-- L2WAYS_WRITE (R210). -/
  | l2waysWrite (g : Nat) (value : BitVec 32)
  /-- NAMESPACE_CREATE (R297). -/
  | namespaceCreate (n : Nat) (value : BitVec 32)
  /-- NAMESPACE_DELETE (R297). -/
  | namespaceDelete (n : Nat) (value : BitVec 32)
  /-- HISTOGRAM_CLEAR (R426). -/
  | histogramClear (m : Nat) (value : BitVec 32)
  /-- STATUS (R436). -/
  | status
  /-- ATTEST (R433). -/
  | attest (nonce : BitVec 512)
  /-- GETCERT (R432). -/
  | getcert
  /-- MEASURE (R430). -/
  | measure (n : Nat) (digest : BitVec 512)
  /-- SVN_COMMIT (R431). -/
  | svnCommit
  /-- STAGE2 (R428). -/
  | stage2 (digest : BitVec 512)
  /-- GLADE_CONFIG (R436). -/
  | gladeConfig (g : Nat) (vfs : List Nat)
  /-- GRANT (R377). -/
  | grant (g : Nat) (what : Grant)
  /-- TEARDOWN (R393). -/
  | teardown (g : Nat)
  /-- KEY_LOAD (R434). -/
  | keyLoad (g : Nat) (ct : List Byte) (wrapped : List Byte)
  /-- POWER_SET (R437). -/
  | powerSet (what : Nat) (value : Nat)
  /-- MAP (R379). -/
  | map (vf : Nat) (ctx : Nat) (va : Nat) (page : PageReq)
  /-- UNMAP (R379). -/
  | unmap (vf : Nat) (ctx : Nat) (va : Nat) (size : Nat)
  /-- PROTECT (R379). -/
  | protect (vf : Nat) (ctx : Nat) (va : Nat) (size : Nat) (rwx : BitVec 3)
  /-- CTX_OPEN (R381). -/
  | ctxOpen (vf : Nat) (ctx : Nat) (record : List Word)
  /-- CTX_CLOSE (R381). -/
  | ctxClose (vf : Nat) (ctx : Nat)
  /-- PREEMPT (R383). -/
  | preempt (vf : Nat) (req : PreemptReq)
  /-- WITHDRAW (R63). -/
  | withdraw (vf : Nat) (seq : Nat)
  /-- RESOLVE (R374). -/
  | resolve (vf : Nat) (entry : Nat)
  /-- FAIL (R374). -/
  | fail (vf : Nat) (entry : Nat) (cause : Nat)
  /-- CC_RESTART (R373). -/
  | ccRestart (vf : Nat) (pc : BitVec 64)
  /-- DUMP (R389). -/
  | dump (vf : Nat) (ctx : Nat) (blk : Nat) (slot : Nat)
  /-- INSTRUCTION_FETCH (R442). -/
  | instructionFetch (wid : Nat) (eid : Nat)
  /-- TLB_WALK_DONE (R378). -/
  | tlbWalkDone (core : Nat) (ctx : Nat) (page : Nat)
  /-- UNIT_XLATE_RESOLVED (R340). -/
  | unitXlateResolved (op : Nat)
  /-- HOST_READ (R392). -/
  | hostRead (pa : Nat) (op : BusOp)
  /-- STARTUP_CHECK_FAILED (R428). -/
  | startupCheckFailed (error : Nat) (n : Nat) (images : List BootImage)
  /-- SPREAD_WRITE_DONE (R411). -/
  | spreadWriteDone (wid : Nat) (eid : Nat)
  /-- ROLCYLINK_DOWN (R427). -/
  | rolcylinkDown
  /-- ROLCYLINK_UP (R427). -/
  | rolcylinkUp
  deriving DecidableEq, Repr

end Sys2Proof
end

