-- ==== Sys2Proof/Machine/State.lean ====
section
/-! DEFINITION. The state of the device as plain data, the reasons a step can stop, and the state after power-on
reset. Fields cite the rules of spec/ that name them; fields marked MODEL are the model's own (notes/assumptions 2, 3). -/

namespace Sys2Proof.Machine

open Sys2Proof

/-- What stops the whole model. Every trap of R127 is delivered as a next state, so no instruction raises one of these. -/
inductive Fault where
  /-- Raised by nothing the specification describes: `State.cur` names a fragment that is not resident. Safe. -/
  | lostFragment
  deriving DecidableEq, Repr

/-- Why a step has no meaning in the present state. -/
inductive Refusal where
  /-- An arm of `exec` not reached by the model. Safe: nothing can be proved about it. -/
  | notModelled (mnemonic : String)
  /-- An event whose condition does not hold now, so the device cannot make this step. Safe. -/
  | notEnabled (event : String)
  /-- An instruction with no fragment to issue it. Safe. -/
  | noAgent
  deriving DecidableEq, Repr

/-- Stall reasons in the order of R418. -/
inductive Stall where
  | issued | emptySrc | waitcnt | waitBar | waitRing | waitWitness | waitMon | icacheMiss
  | branchResolve | splitFull | valuBusy | mxBusy | mxFuseHold | wslotNotReady | scratchBank | lsuQueueFull
  | copyRingFull | xlateMiss | tqEmpty | canopyWait | rasterWait | taprootWait | throttlePower | throttleBw
  | preemptQuiesce | haltedDebug | faultReplay | notSelected | decodeBusy | xbarBusy | sfuBusy | other
  deriving DecidableEq, Repr

/-- The code of a stall reason (R418). -/
def Stall.code (r : Stall) : Nat := match r with
  | .issued => 0 | .emptySrc => 1 | .waitcnt => 2 | .waitBar => 3 | .waitRing => 4 | .waitWitness => 5 | .waitMon => 6
  | .icacheMiss => 7 | .branchResolve => 8 | .splitFull => 9 | .valuBusy => 10 | .mxBusy => 11 | .mxFuseHold => 12
  | .wslotNotReady => 13 | .scratchBank => 14 | .lsuQueueFull => 15 | .copyRingFull => 16 | .xlateMiss => 17
  | .tqEmpty => 18 | .canopyWait => 19 | .rasterWait => 20 | .taprootWait => 21 | .throttlePower => 22
  | .throttleBw => 23 | .preemptQuiesce => 24 | .haltedDebug => 25 | .faultReplay => 26 | .notSelected => 27
  | .decodeBusy => 28 | .xbarBusy => 29 | .sfuBusy => 30 | .other => 31

/-- A record of a deferral stack (R56): a deferral record, or once the first set has arrived a merge record.
`pc` is where the held set continues; `rejoin` is the address the record names. -/
structure Deferral where
  merge : Bool := false
  memb : Word := 0
  emask : Word := 0
  pc : DWord := 0
  fmt : Word := 0
  x0 : Byte := 0
  x1 : Byte := 0
  rejoin : Option DWord := none
  deriving DecidableEq, Repr

/-- Trap state of a fragment (R126, R154). -/
structure TrapSt where
  inHandler : Bool := false
  rpc : DWord := 0
  savedRj : Option DWord := none
  cause : Byte := 0
  tpc : DWord := 0
  targ : Word := 0
  /-- The unit at `rpc` issues again without evaluating any predicate (R408). -/
  skip : Bool := false
  deriving DecidableEq, Repr

/-- A halt (R407): origin 0 DHALT, 1 PREDICATE, 2 STEP, 3 COMMAND (R415), predicate, trigger PC. -/
structure HaltSt where
  origin : Nat := 0
  pred : Nat := 0
  trig : DWord := 0
  since : Nat := 0
  deriving DecidableEq, Repr

/-- A unit in progress that holds its fragment (R250): when it issued and times out (ns), what it waits for and how far
it has come, and its operands. `kind`: 1 wait.w, 2 wait.bar, 3 wait.gbar, 4 wait.ring, 5 wait.mon, 6 tbar, 7 tred,
8 tqpop, 9 any other unit, 10 a `vdec` whose blocks are being checked (R195), 11 an `scstat` that has read its item (R311), 12 a `wdesc` with its address and
home (R275), 13 a `pref` with the next line and the lines left (R247). -/
structure Held where
  since : Nat := 0
  limit : Option Nat := none
  tcount : Nat := 0
  kind : Nat := 9
  op : Nat := 0
  stage : Nat := 0
  a : Nat := 0
  b : Nat := 0
  deriving DecidableEq, Repr

/-- A fragment's split-table entry (R38, R54 to R60, R95). -/
structure Frag where
  memb : Word := 0
  emask : Word := 0
  pc : DWord := 0
  fmt : Word := 0
  x0 : Byte := 0
  x1 : Byte := 0
  rejoin : Option DWord := none
  pending : Option DWord := none
  stack : List Deferral := []
  parked : Option Nat := none
  halt : Option HaltSt := none
  /-- Halts of some of its lanes that wait for a `vdec` of the wave to complete (R195, R196). -/
  haltDue : List (Word × HaltSt) := []
  /-- A WATCH that waits for the same: its argument and the unit's PC (R195, R408). -/
  watchDue : Option (Word × DWord) := none
  /-- The next issue evaluates no predicate (R406). -/
  skipPred : Bool := false
  /-- 0 no, 1 one unit of a dstep, 2 the same with DELIVER (R413, R414). -/
  stepping : Nat := 0
  trap : TrapSt := {}
  held : Option Held := none
  sleepEnd : Option Nat := none
  yieldLeft : Nat := 0
  stall : Stall := .other
  /-- The clk of its core in which it was last served (R418). -/
  served : Nat := 0
  passed : Nat := 0
  overdue : Option Nat := none
  /-- The tag and core of a faulting store (R224), and that the unit at the PC is a global store in translation. -/
  pin : Option (Nat × Nat) := none
  storing : Bool := false
  deriving DecidableEq, Repr

/-- A join record (R55). -/
structure JoinRec where
  memb : Word := 0
  rejoin : Option DWord := none
  join : DWord := 0
  stack : List Deferral := []
  seq : Nat := 0
  deriving DecidableEq, Repr

/-- One split-table entry in use. -/
inductive Entry where
  | frag (f : Frag)
  | join (j : JoinRec)
  deriving DecidableEq, Repr

/-- The interrupted state of a PREEMPT or STEP delivery (R158, R384, R414). -/
structure Intr where
  cause : Nat := 0x18
  restore : Bool := false
  ents : Tab Entry := []
  sregs : Tab Word := []
  v01 : Tab Word := []
  sEmpty : List Nat := []
  vEmpty : List Nat := []
  hsel : Nat := 0
  /-- ADDR of HRJP per entry, where written (R158). -/
  rj : Tab DWord := []
  hdone : Nat := 0
  saved : Bool := false
  /-- The replay marks of the interrupted wave (R65). -/
  replay : List Nat := []
  harea : DWord := 0
  stepped : Nat := 0
  /-- Operations named below this were issued before the delivery. MODEL. -/
  first : Nat := 0
  deriving DecidableEq, Repr

/-- An item of a lane of a resolve wave (R334): tile, ordinal and the rest as 32-bit words. -/
structure Item where
  tile : Nat := 0
  words : List Word := []
  deriving DecidableEq, Repr

/-- A wave, resident on one quadrant (R38, R39, R95), or a control core (R97). Register tables list the registers that
are not 0; vector registers are keyed 32 × register + lane, tile elements 1024 × handle + 32 × row + column. -/
structure Wave where
  control : Bool := false
  glade : Nat := 0
  ctx : Nat := 0
  cmd : Nat := 0
  blk : Nat := 0
  widx : Nat := 0
  part : Nat := 0
  core : Nat := 0
  quad : Nat := 0
  prio : Nat := 0
  /-- Placement order (R60). -/
  born : Nat := 0
  nvreg : Nat := 256
  nacc : Nat := 0
  rsv : Nat := 0
  ents : Tab Entry := []
  sregs : Tab Word := []
  vregs : Tab Word := []
  sEmpty : List Nat := []
  vEmpty : List Nat := []
  tiles : Tab Word := []
  fflags : Word := 0
  teams : List Nat := [0, 0, 0, 0]
  sw : DWord := 0
  uhandler : DWord := 0
  dselLo : Word := 0
  dselHi : Word := 0
  dstat : Word := 0
  level : Nat := 0
  intr : Option Intr := none
  /-- Entries of the fault queue that the wave waits for (R62). -/
  replay : List Nat := []
  hits : Tab Word := []
  items : Tab Item := []
  stage : Nat := 0
  meshend : Bool := false
  /-- A halt on its way through the taproot (R407). -/
  haltReq : Option HaltSt := none
  /-- The entry whose stepped unit has completed and awaits STEP (R414). -/
  stepDue : Option Nat := none
  ended : Word := 0
  retired : Nat := 0
  hash : Word := 0
  haltCc : Bool := false
  ccSeq : Nat := 0
  cachePC : DWord := 0
  deriving DecidableEq, Repr

/-- One access of one lane of an operation: virtual address (or scratch address), home location, data as an unsigned
number of the access's size. -/
structure Acc where
  lane : Nat := 0
  va : Nat := 0
  home : Nat := 0
  data : Nat := 0
  va2 : Nat := 0
  home2 : Nat := 0
  deriving DecidableEq, Repr

/-- A watch predicate (R399, R400), and which write of a predicate made it. -/
structure Pred where
  ctl : DWord := 0
  a : DWord := 0
  b : DWord := 0
  hits : Word := 0
  gen : Nat := 0
  deriving DecidableEq, Repr

/-- Kinds of outstanding operations (R238 and the engines). -/
inductive OpKind where
  | load | store | atomic | copy | writeBack | barrive | gbarrive | tqinit | tqpush | tqpop | tbar | tred
  | vdec | trace | accrd | accwr | accclr | accst | mma | wload | lookup | fill | abort | sweep | frame
  | notify | prim | tile | spread
  deriving DecidableEq, Repr

/-- An operation that has issued and has not retired (R238). `cls` is its counter class, `done` that it has completed
and waits for older ones of its class; `stage` and `args` are as each kind says. -/
structure Op where
  kind : OpKind := .load
  wid : Nat := 0
  eid : Nat := 0
  core : Nat := 0
  glade : Nat := 0
  ctx : Nat := 0
  blk : Nat := 0
  cls : Option Nat := none
  done : Bool := false
  accs : List Acc := []
  size : Nat := 0
  dst : List Nat := []
  sdst : List Nat := []
  active : Word := 0
  scr : Bool := false
  scope : Nat := 1
  pol : Nat := 0
  rc : Nat := 0
  wit : DWord := 0
  /-- Epoch tag of a global store (R216). -/
  tag : Option Nat := none
  /-- Core whose L(c) a replayed store still pins (R224). -/
  pinCore : Option Nat := none
  aop : Nat := 0
  au : Bool := false
  fmt : Word := 0
  pc : DWord := 0
  issued : Nat := 0
  stage : Nat := 0
  slot : Nat := 0
  target : Option Nat := none
  args : List Nat := []
  cancel : Bool := false
  /-- Issued with predicates off (R406); the predicates of its core when it issued (R411). -/
  quiet : Bool := false
  preds : Tab Pred := []
  wait : Option Nat := none
  deriving DecidableEq, Repr

/-- A weight slot (R272 to R276): state 0 FREE, 1 EMPTY, 2 LOADING, 3 READY, 4 RELEASING; descriptor words; granules;
`wload`s issued; element and side data as numbers. -/
structure Slot where
  st : Nat := 0
  desc : List Word := []
  gran : Nat := 0
  gen : Nat := 0
  elems : Nat := 0
  side : Nat := 0
  deriving DecidableEq, Repr

/-- One page of a context (R376): base virtual address, size in bytes, kind 0 LOCAL 1 HOST 2 PEER, home base,
permissions R W X in bits 0 1 2, COW. -/
structure Page where
  va : Nat := 0
  len : Nat := 0
  kind : Nat := 0
  home : Nat := 0
  rwx : BitVec 3 := 1
  cow : Bool := false
  /-- The other page, by context and address, of a merge in progress (R391). -/
  merging : Option (Nat × Nat) := none
  /-- The mapping shares its frame through deduplication, and its frame's SHARERS counts it (R377). -/
  shared : Bool := false
  deriving DecidableEq, Repr

/-- A cached translation (R378). -/
structure TlbEnt where
  glade : Nat := 0
  ctx : Nat := 0
  page : Page := {}
  deriving DecidableEq, Repr

/-- A pending hardware walk (R378): the address and the waiting fragment. -/
structure Walk where
  glade : Nat := 0
  ctx : Nat := 0
  va : Nat := 0
  kind : Nat := 0
  wid : Nat := 0
  eid : Nat := 0
  deriving DecidableEq, Repr

/-- An L1 line (R202, R203, R206, R216): 128 bytes with masks of valid and of dirty bytes. -/
structure L1Line where
  glade : Nat := 0
  ctx : Nat := 0
  va : Nat := 0
  home : Nat := 0
  data : BitVec 1024 := 0
  valid : BitVec 128 := 0
  dirty : BitVec 128 := 0
  tag : Nat := 0
  sys : Bool := false
  filled : Nat := 0
  dirtied : Nat := 0
  rc : Nat := 0
  pol : Nat := 0
  /-- Filled from a peer's L1 (R355). -/
  fwd : Bool := false
  deriving DecidableEq, Repr

/-- An instruction-cache line (R442). -/
structure ILine where
  glade : Nat := 0
  ctx : Nat := 0
  va : Nat := 0
  data : BitVec 1024 := 0
  filled : Nat := 0
  deriving DecidableEq, Repr

/-- A crossbar pattern table (R187): the loading glade and context, 256 bytes. -/
structure Pattern where
  owner : Option (Nat × Nat) := none
  data : BitVec 2048 := 0
  deriving DecidableEq, Repr

/-- A group of quarter operations (R286): each by operation and quarter, what they agree in, its block, when it opened
(clk), and the clk its pass takes. -/
structure MxGroup where
  ops : List (Nat × Nat) := []
  key : List Nat := []
  blk : Nat := 0
  opened : Nat := 0
  len : Nat := 1
  deriving DecidableEq, Repr

/-- The matrix unit of one quadrant (R286, R287): open groups, due groups in the order they became due, the pass that runs
and its end (clk), and quarter operations whose tile is to be written, with the clk from which it is. -/
structure MxQuad where
  opened : List MxGroup := []
  due : List MxGroup := []
  running : Option MxGroup := none
  passEnd : Nat := 0
  writing : List ((Nat × Nat) × Nat) := []
  deriving DecidableEq, Repr

/-- A compute core 0 to 159, or control core g at 256 + g (which has the fetch, L1 and epoch parts). -/
structure CoreSt where
  l1 : List L1Line := []
  ic : List ILine := []
  tlb : List TlbEnt := []
  walks : List Walk := []
  view : Nat := 0
  completed : Nat := 0
  answered : List (Nat × Nat) := []
  scrSize : Nat := 0
  tables : Tab Pattern := []
  preds : Tab Pred := []
  /-- Per quadrant: placement order of the wave last sampled, and the clk from which the next sample is taken (R420). -/
  cursor : List Nat := [0, 0, 0, 0]
  sampleAt : List Nat := [0, 0, 0, 0]
  mx : Tab MxQuad := []
  /-- Issue gating (R438), and per quadrant whether it skips the next opportunity. -/
  gated : Bool := false
  skips : List Bool := [false, false, false, false]
  /-- Opportunities a class of a quadrant has waited with a ready fragment (R60), keyed 8 × quadrant + class. -/
  starve : Tab Nat := []
  /-- The core clock in MHz, and since when (ns); the MHz × ns it had counted by then (R3, R18). -/
  mhz : Nat := 1100
  clkFrom : Nat := 0
  ticks : Nat := 0
  freshGrids : List Nat := []
  deriving DecidableEq, Repr

/-- A landing probe on its way (R222): reader core, target core, epoch; received once the target has it. -/
structure Probe where
  glade : Nat := 0
  ctx : Nat := 0
  reader : Nat := 0
  target : Nat := 0
  epoch : Nat := 0
  received : Bool := false
  deriving DecidableEq, Repr

/-- An entry of the translation fault queue (R374). -/
structure FaultEnt where
  id : Nat := 0
  glade : Nat := 0
  ctx : Nat := 0
  va : Nat := 0
  kind : Nat := 0
  wid : Nat := 0
  pc : DWord := 0
  cow : Bool := false
  deriving DecidableEq, Repr

/-- A poisoned range (R225). -/
structure Poison where
  core : Nat := 0
  lo : Nat := 0
  hi : Nat := 0
  deriving DecidableEq, Repr

/-- One context of a glade: page table (R376) and hang count (R67); its record's words stand in the register file of
the glade's frame 3 (R381). -/
structure CtxSt where
  pages : List Page := []
  hang : Nat := 0
  /-- The clk at which the watchdog's window ends. -/
  winAt : Nat := 0
  retiredInWindow : Bool := false
  stalledInWindow : Bool := false
  residentAll : Bool := true
  drainFrom : Option Nat := none
  drainRec : List Word := []
  /-- The next fault record's write meets an uncorrectable error (R372). MODEL. -/
  recordLost : Bool := false
  vf : Nat := 0
  changes : List Page := []
  deriving DecidableEq, Repr

/-- A pre-emption in force (R63, R383): command, cores closed. -/
structure PreemptSt where
  cmd : Nat := 0
  cores : List Nat := []
  deriving DecidableEq, Repr

/-- A glade's state outside the register file. -/
structure Glade where
  epoch : Nat := 0
  advance : Bool := false
  /-- The clk of the control core from which the next advance is granted (R215). -/
  grantAt : Nat := 0
  completed : Nat := 0
  demand : Option Nat := none
  poison : List Poison := []
  faultq : List FaultEnt := []
  ctxs : Tab CtxSt := []
  counter : Nat := 0
  /-- HBM bytes of the bandwidth window in progress, and the window's number (R382). -/
  bytes : Nat := 0
  bwWin : Nat := 0
  /-- Commands named from here on were launched after ARM was last set (R423). -/
  armAt : Nat := 0
  preempts : List PreemptSt := []
  cores : List Nat := []
  vfs : List Nat := []
  hostRanges : List (Nat × Nat) := []
  peerRanges : List (Nat × Nat × Nat) := []
  /-- Physical slices that have finished the way drain in progress (R210). -/
  drained : List Nat := []
  /-- Cores on their way out (R390), and granted namespace numbers (R436). -/
  removing : List Nat := []
  nsids : List Nat := []
  deriving DecidableEq, Repr

/-- Command states (R47, R323). -/
inductive CmdSt where
  | reading | queued | checked | waitDep | active | suspended | ending | ended
  deriving DecidableEq, Repr

/-- Block states (R49). -/
inductive BlkSt where
  | pending | placed | running | quiescing | saving | saved | restoring | finishing | done
  deriving DecidableEq, Repr

/-- Arrivals of one team in its phase in progress (R263 to R265): wave, lanes arrived, and the operation's identity
(0 for tbar, else the function and immediate of tred), contributions once the wave has arrived. -/
structure Arrival where
  wid : Nat := 0
  lanes : Word := 0
  eids : List Nat := []
  what : Nat := 0
  vals : List Word := []
  dst : Nat := 0
  full : Bool := false
  deriving DecidableEq, Repr

/-- The image of a vacated block (R389): its waves and pattern tables (part, number, table). Scratch, weight slots,
replay entries and the tile region stay in the block's own fields. -/
structure Image where
  fallback : Bool := false
  handler : Bool := false
  /-- Offset of the first handler section. -/
  area : Nat := 0
  waves : Tab Wave := []
  tables : List (Nat × Nat × Pattern) := []
  deriving DecidableEq, Repr

/-- A block of a grid or a group of a pass (R49, R64 to R66, R324). Scratch is keyed 2^21 × part + offset. -/
structure Block where
  cmd : Nat := 0
  lin : Nat := 0
  st : BlkSt := .pending
  stage : Nat := 0
  cores : List Nat := []
  waves : List Nat := []
  published : Bool := false
  since : Nat := 0
  starving : Bool := false
  scr : Tab Byte := []
  scrSeed : Nat := 0
  /-- Ranges of a tile region that the device has changed: offset, bytes, seed of their free bytes; the latest first (R320). -/
  regions : List (Nat × Nat × Nat) := []
  scrSize : Nat := 0
  slots : Tab Slot := []
  image : Option Image := none
  slotNo : Option Nat := none
  /-- Vacated while its grid is SUSPENDED (R65). -/
  away : Bool := false
  /-- Replay entries: the cancelled operations, in the order recorded (R388). -/
  entries : List Op := []
  quiesceAt : Nat := 0
  budgetAt : Option Nat := none
  discard : Bool := false
  terminated : Bool := false
  record : List Word := []
  deriving DecidableEq, Repr

/-- A tile of a round of DRAW (R331 to R336): state 0 waiting for a group, 1 rasterising, 2 giving items, 3 released,
4 written; its group, that group's core when the tile was taken, and its slot; items left; depth, visibility (where not NONE) and colour words of its samples. Depth and
visibility are keyed by pixel × samples + sample, colour by 32 × that + 4 × target + word. -/
structure TileSt where
  st : Nat := 0
  grp : Nat := 0
  core : Nat := 0
  slot : Nat := 0
  items : List Item := []
  depth : Tab Word := []
  vis : Tab Word := []
  colour : Tab Word := []
  deriving DecidableEq, Repr

/-- Depth and visibility of a tile in the spill log (R337). -/
structure SpillImg where
  depth : Tab Word := []
  vis : Tab Word := []
  deriving DecidableEq, Repr

/-- Bytes of the arena that the device wrote: how many, the seed of their free values, and the tiles whose lists they hold,
none meaning every tile (R330). -/
structure ArenaPart where
  len : Nat := 0
  seed : Nat := 0
  tiles : List Nat := []
  deriving DecidableEq, Repr

/-- A triangle held in the arena (R329, R330): its ordinal, its fourteen words, and the tiles it meets. -/
structure Tri where
  ord : Nat := 0
  words : List Word := []
  tiles : List Nat := []
  deriving DecidableEq, Repr

/-- A render pass in progress (R317 to R338): phase 0 BIN, 1 DRAW, 2 ENDING; round number; triangles of the round; bytes
taken from the arena's free space; a triangle that did not fit (operation) and the flush it began; tiles of the round;
primitives binned and discarded, flushes; the spill log (tile, bytes; newest last) and its contents; whether the pass has
stored. Every triangle of the pass by ordinal, for items of samples that an earlier round drew. -/
structure PassSt where
  phase : Nat := 0
  round : Nat := 0
  /-- The arena is laid out, its parts by address, and the last chunk of each tile's list (R330). -/
  laid : Bool := false
  arena : Tab ArenaPart := []
  chunks : Tab Nat := []
  tris : List Tri := []
  used : Nat := 0
  first : Option Nat := none
  flushing : Bool := false
  tiles : Tab TileSt := []
  binned : Nat := 0
  discarded : Nat := 0
  flushes : Nat := 0
  log : List (Nat × Nat) := []
  spilled : Tab SpillImg := []
  drawn : Tab Tri := []
  wrote : Bool := false
  /-- A covered store has yet to land; the epoch at which the last one that has landed did (R338). -/
  pending : Bool := false
  landed : Option Nat := none
  /-- The mesh stage has closed (R326). -/
  closed : Bool := false
  deriving DecidableEq, Repr

/-- A command: a grid or a pass (R42 to R48, R317 to R323). `desc` holds the descriptor's words. -/
structure Cmd where
  isPass : Bool := false
  glade : Nat := 0
  seq : Nat := 0
  ccpc : DWord := 0
  addr : DWord := 0
  desc : List Word := []
  st : CmdSt := .reading
  dst : Nat := 0
  teams : List (List (Nat × Nat)) := []
  /-- Arrivals at the phases of the teams, by team and place in its sequence (R265). -/
  phases : Tab (List Arrival) := []
  status : Nat := 0
  detail : Nat := 0
  /-- A read of the descriptor or of a team list failed (R161). -/
  readFail : Bool := false
  haltMark : Bool := false
  wit : DWord := 0
  wrote : Bool := false
  doneBlocks : Nat := 0
  firstTerm : Option Nat := none
  faultEnt : Option Nat := none
  pass : Option PassSt := none
  deriving DecidableEq, Repr

/-- A Canopy tag entry (R294): key (namespace; object; level, layer, TV and TU), state 0 INVALID, 1 INFLIGHT, 2 VALID;
the 512 bytes of its heap slot as a number. -/
structure CnpEnt where
  key : List Word := []
  owner : Nat := 0
  st : Nat := 0
  gen : Nat := 0
  swq : Nat := 0
  lastUse : Nat := 0
  fillFrame : Nat := 0
  dep : Word := 0
  timer : Nat := 0
  texels : Nat := 0
  deriving DecidableEq, Repr

/-- A frame's ownership record (R377). -/
structure Frame where
  valid : Bool := false
  glade : Nat := 0
  key : Option Nat := none
  sharers : Nat := 0
  deriving DecidableEq, Repr

/-- An action of the agenda. MODEL. -/
inductive Act where
  /-- An event row happens. -/
  | event (i : Instr)
  /-- The fragment in entry `eid` of wave `wid` is served by its scheduler. -/
  | issue (wid eid : Nat)
  /-- One issue opportunity of a quadrant: R60 picks the fragment. -/
  | opportunity (core quad : Nat)
  /-- Only time passes. -/
  | pass
  deriving DecidableEq, Repr

/-- One turn: the ns that pass before the action. MODEL. -/
structure Turn where
  ns : Nat := 1
  act : Act := .pass
  deriving DecidableEq, Repr

/-- A watch event of the unit in progress (R401): source, lane, value or address range. MODEL. -/
structure WatchEv where
  src : Nat := 0
  lane : Nat := 0
  x : Nat := 0
  len : Nat := 0
  scr : Bool := false
  /-- Already evaluated with an earlier part of its unit; it can still complete a chain (R403). -/
  seen : Bool := false
  deriving DecidableEq, Repr

/-- A translation change waiting to complete (R379): glade, context, old pages, new page, protected scan. -/
structure XlChange where
  vf : Nat := 0
  glade : Nat := 0
  ctx : Nat := 0
  old : Page := {}
  new : Option Page := none
  ops : List Nat := []
  closing : Bool := false
  deriving DecidableEq, Repr

/-- Windthrow in progress (R364, R367): the slice's logical and physical numbers, and the step. -/
structure WindSt where
  slice : Nat := 0
  phys : Nat := 0
  step : Nat := 1
  deriving DecidableEq, Repr

/-- A sync-cache entry (R357): the home address of its object, the glade that uses it and the physical slice that holds it. -/
structure SyncEnt where
  home : Nat := 0
  glade : Nat := 0
  phys : Nat := 0
  deriving DecidableEq, Repr

/-- What an error source remembers (R362): times of its correctable events; a period, by its number, the start-up it counts from and its
length in ms; the locations seen in it, and in how many consecutive periods up to it each had an event. -/
structure ErrSt where
  times : List Nat := []
  period : Nat := 0
  since : Nat := 0
  len : Nat := 0
  seen : List Nat := []
  runs : Tab Nat := []
  deriving DecidableEq, Repr

/-- The clearing engine (R393, R394): glades whose teardown waits, in request order; the glade being cleared and the
units of its phase. Phase and count stand in CLR_PROG. -/
structure ClearSt where
  queue : List Nat := []
  cur : Option Nat := none
  units : List Nat := []
  deriving DecidableEq, Repr

/-- A replay session of a glade (R422 to R424): the command, the pass in progress, the captured pages in the order of their
snapshots, and the END code once the session is to end early. -/
structure ReplaySt where
  cmd : Nat := 0
  pass : Nat := 1
  pages : List Nat := []
  early : Nat := 0
  deriving DecidableEq, Repr

/-- Start-up progress (R428): the stage in progress, if one is; when reset was released and STAGE2 requested (ns); the
security version of the running stage-1 firmware (R431); the logical cores in service, and the physical core behind each
logical number. -/
structure BootSt where
  powered : Bool := true
  stage : Option Nat := some 0
  since : Nat := 0
  asked : Nat := 0
  version : Nat := 0
  cores : List Nat := []
  coreMap : Tab Nat := []
  deriving DecidableEq, Repr

/-- The device. Tables list what differs from the start value of their kind. -/
structure State where
  /-- Real time in ns since the model's start; the timebases are offsets from it (R19). -/
  now : Nat := 0
  /-- Timebase offsets of the thirteen dies (R19, R427). -/
  tbOff : Tab Nat := []
  /-- Turns to come. MODEL. -/
  agenda : List Turn := []
  /-- The issuing wave and entry. MODEL. -/
  cur : Option (Nat × Nat) := none
  /-- Next fresh name. MODEL. -/
  nextId : Nat := 1024
  /-- Counter of free values. MODEL. -/
  freeCount : Nat := 0
  /-- Watch events of the unit in progress. MODEL. -/
  watchEv : List WatchEv := []
  /-- L1 lines filled in the step, which the counters of R421 take. MODEL. -/
  fills : List L1Line := []
  /-- Waves and control cores (control core g is wave g). -/
  waves : Tab Wave := []
  blocks : Tab Block := []
  cmds : Tab Cmd := []
  /-- Outstanding operations, by issue order. -/
  ops : Tab Op := []
  cores : Tab CoreSt := []
  /-- Cluster TLBs (R24, R378). -/
  clusterTlb : Tab (List TlbEnt) := []
  probes : Tab Probe := []
  glades : Tab Glade := []
  /-- Memory at its home slices: HBM at its physical address, host memory from 2^56, peer memory of port p from
  (2 + p) × 2^56 (R28, R34, R376). Bytes not listed read 0 (notes/assumptions 4). -/
  mem : List Host.Cell := []
  /-- Lines of HBM with a poison mark, by home address (R364 step 2). -/
  marked : List Nat := []
  frames : Tab Frame := []
  /-- Memory-mapped registers, by 32-bit word (R5 to R8, R443). -/
  regs : Tab Word := []
  /-- Canopy entries, keyed 16 × (2048 × physical slice + set) + way (R293, R294). -/
  canopy : Tab CnpEnt := []
  /-- LastSweep values, keyed 32 × record + bit (R309). -/
  lastSweep : Tab Word := []
  /-- The sync caches' entries, most recently used first (R25, R268, R357). -/
  sync : List SyncEnt := []
  changes : List XlChange := []
  wind : Option WindSt := none
  /-- Sources whose retirement waits, in order, and those whose retirement has started (R362, R363, R366). -/
  lasting : List Nat := []
  acted : List Nat := []
  clear : ClearSt := {}
  replaySes : Tab ReplaySt := []
  boot : BootSt := {}
  keys : Tab (BitVec 512) := []
  /-- The decapsulation key held, by the number of its key pair (R433, R434). -/
  kemKey : Option Nat := none
  meas : Tab (BitVec 512) := []
  svn : Nat := 0
  /-- The ms of the last of what is done once in a ms: the temperature of die d (key d), the skew of path n (32 + n), the power window
(64) and the thermal step (65) (R426, R427, R438). -/
  msAt : Tab Nat := []
  /-- Message signals (R372): MSI-X vectors raised, newest first, with their virtual function. -/
  msix : List (Nat × Nat) := []
  /-- Answers of mailbox, firmware and bus requests, newest first: request number and words. MODEL. -/
  replies : List (List Word) := []
  failedCores : List Nat := []
  failedSlices : List Nat := []
  /-- Error sources (R361, R362): times of the correctable events (ns), and the period with the location of each event. -/
  errors : Tab ErrSt := []
  /-- Voltage domains (R425): 1 an event in progress, 2 in progress again, n + 3 ended at n ns. -/
  droop : Tab Nat := []
  /-- The deepest sag of a domain's last event in mV (R425, R426). -/
  sags : Tab Nat := []
  /-- Temperatures of the dies in °C, and whether the 100 °C rule is in force (R438). -/
  temps : Tab Nat := []
  hot : Bool := false
  /-- The RolcyLink path to the host is up (R427). -/
  hostUp : Bool := true
  deriving DecidableEq, Repr

/-- The state after power-on reset: nothing runs, no glade is configured, and stage 0 has begun (R428). -/
def State.reset : State := {}

end Sys2Proof.Machine
end

