-- ==== Sys2Proof/Machine/Mem.lean ====
section
/-! DEFINITION. Memory at its home slices as a canonical list of cells, little-endian numbers over it, and bit fields
of words (R1, R71, R211). -/

namespace Sys2Proof.Machine

open Sys2Proof

/-! ## Bits and bytes -/

/-- Bits `hi` down to `lo` of a number. -/
def bitsOf (x hi lo : Nat) : Nat := (x / 2 ^ lo) % 2 ^ (hi + 1 - lo)

/-- Bits `hi` down to `lo` of a word. -/
def fld (w : Word) (hi lo : Nat) : Nat := bitsOf w.toNat hi lo

/-- `x` with bits `hi` down to `lo` replaced by the low bits of `v`. -/
def setBits (x hi lo v : Nat) : Nat :=
  x - bitsOf x hi lo * 2 ^ lo + (v % 2 ^ (hi + 1 - lo)) * 2 ^ lo

/-- A word with a field replaced. -/
def setFld (w : Word) (hi lo v : Nat) : Word := BitVec.ofNat 32 (setBits w.toNat hi lo v)

/-- Sign extension of an `n`-bit number to an integer. -/
def signed (n x : Nat) : Int := if x % 2 ^ n < 2 ^ (n - 1) then (x % 2 ^ n : Nat) else (x % 2 ^ n : Nat) - (2 ^ n : Nat)

/-- An integer modulo 2^n as a number. -/
def wrap (n : Nat) (x : Int) : Nat := (x % (2 ^ n : Nat)).toNat

/-- The words of a number, low first. -/
def wordsOf : Nat → Nat → List Word
  | 0, _ => []
  | n + 1, x => BitVec.ofNat 32 x :: wordsOf n (x / 2 ^ 32)

/-- The number of a list of words, low first. -/
def ofWords : List Word → Nat
  | [] => 0
  | w :: t => w.toNat + 2 ^ 32 * ofWords t

/-- The number of a list of bytes, low first. -/
def ofBytes : List Byte → Nat
  | [] => 0
  | b :: t => b.toNat + 256 * ofBytes t

/-- The bytes of a number, low first. -/
def toBytes : Nat → Nat → List Byte
  | 0, _ => []
  | n + 1, x => BitVec.ofNat 8 x :: toBytes n (x / 256)

/-- Number of set bits. -/
def popc : Nat → Nat → Nat
  | 0, _ => 0
  | n + 1, x => x % 2 + popc n (x / 2)

/-- The lanes of a mask, rising. -/
def lanesOf (m : Word) : List Nat := (List.range 32).filter fun l => m.getLsbD l

/-- The lowest lane of a mask; 32 for none. -/
def lowLane (m : Word) : Nat := (lanesOf m).headD 32

/-- A mask of one lane. -/
def laneBit (l : Nat) : Word := 1#32 <<< l

/-! ## Cells -/

/-- The byte of an unlisted address: 0 (notes/assumptions 4). -/
def emptyByte : Byte := 0

/-- One byte of memory. -/
def getByte : List Host.Cell → Nat → Byte
  | [], _ => emptyByte
  | (k, b) :: t, a => if k == a then b else if a < k then emptyByte else getByte t a

/-- Writes one byte, keeping addresses rising and no listed byte equal to `emptyByte`. -/
def setByte : List Host.Cell → Nat → Byte → List Host.Cell
  | [], a, b => if b == emptyByte then [] else [(a, b)]
  | (k, c) :: t, a, b =>
    if k == a then (if b == emptyByte then t else (a, b) :: t)
    else if a < k then (if b == emptyByte then (k, c) :: t else (a, b) :: (k, c) :: t)
    else (k, c) :: setByte t a b

/-- The canonical form: addresses rise strictly and no byte equals what an unlisted address reads as. -/
def Memory.wf : List Host.Cell → Bool
  | [] => true
  | [(_, b)] => b != emptyByte
  | (k, b) :: (k', b') :: t => b != emptyByte && (k < k') && Memory.wf ((k', b') :: t)

/-- `n` bytes from `a`, as a number. -/
def getMem (m : List Host.Cell) (a n : Nat) : Nat :=
  (List.range n).foldr (fun i acc => (getByte m (a + i)).toNat + 256 * acc) 0

/-- Writes the low `n` bytes of `x` at `a`. -/
def setMem : List Host.Cell → Nat → Nat → Nat → List Host.Cell
  | m, _, 0, _ => m
  | m, a, n + 1, x => setMem (setByte m a (BitVec.ofNat 8 x)) (a + 1) n (x / 256)

/-- Writes those of the 128 bytes of a line whose mask bit is set. -/
def setMasked (m : List Host.Cell) (a : Nat) (data : BitVec 1024) (mask : BitVec 128) : List Host.Cell :=
  (List.range 128).foldl (fun m i => if mask.getLsbD i then setByte m (a + i) (data.extractLsb' (8 * i) 8) else m) m

/-- Writes zeros over `n` bytes from `a`: the cells there are dropped. -/
def clearMem (m : List Host.Cell) (a n : Nat) : List Host.Cell := m.filter fun c => c.1 < a || a + n ≤ c.1

/-- Applies a function of address and contents to every 128-byte line of a 64 KiB frame. -/
def mapFrame (f : Nat → BitVec 1024 → BitVec 1024) (m : List Host.Cell) (n : Nat) : List Host.Cell :=
  (List.range 512).foldl (fun m i =>
    let pa := 65536 * n + 128 * i
    setMem m pa 128 (f pa (BitVec.ofNat 1024 (getMem m pa 128))).toNat) m

/-! ## The memory-mapped register file (R5 to R8, R443) -/

/-- Register blocks, each with its own 1 MiB of the model's register space (notes/assumptions 15). -/
inductive RegBlk where
  | mgt | boot | fab | slc | erw | tpr | cnp | ccr | wch | smp | rpl | drp | hmn | tmb | ddp | clr | rlk | pyl | vf
  | gld (g : Nat)
  | core (c : Nat)
  deriving DecidableEq, Repr

/-- The number of a block in the register space. -/
def RegBlk.code (b : RegBlk) : Nat := match b with
  | .mgt => 0 | .boot => 1 | .fab => 2 | .slc => 3 | .erw => 4 | .tpr => 5 | .cnp => 6 | .ccr => 7 | .wch => 8
  | .smp => 9 | .rpl => 10 | .drp => 11 | .hmn => 12 | .tmb => 13 | .ddp => 14 | .clr => 15 | .rlk => 16 | .pyl => 17 | .vf => 18
  | .gld g => 32 + g
  | .core c => 128 + c

/-- The byte address of a register word. -/
def regAddr (b : RegBlk) (off : Nat) : Nat := b.code * 2 ^ 20 + off

/-- Reset values other than zero of register words: the Reset columns of R37, R207, R354, R361, R391, R419, R422,
R425, R426, R437. -/
def regReset (a : Nat) : Word :=
  let blk := a / 2 ^ 20
  let off := a % 2 ^ 20
  if blk == 0 then (if off == 0x010 then 0x01000400#32 else if off == 0x020 then 0x09600000#32 else 0#32)
  else if blk == 2 then (if off == 0 then 1#32 else 0#32)
  else if blk == 4 then (if off < 16 then 0x03E80010#32 else 0#32)
  else if blk == 9 then (if off % 32 == 0 then 0x60#32 else 0#32)
  else if blk == 11 then (if off % 16 == 0 then 0x20#32 else 0#32)
  else if blk == 12 then (if off % 256 == 8 then 0xFFFFFFFF#32 else 0#32)
  else if blk == 14 then (if off == 0 then 0x01000000#32 else 0#32)
  else if 32 ≤ blk ∧ blk < 80 then (if off == 0x1100 then 0x0000FFFF#32 else 0#32)
  else 0#32

/-- A register word. -/
def reg (s : State) (b : RegBlk) (off : Nat) : Word :=
  Tab.valD s.regs (regAddr b off / 4) (regReset (regAddr b off))

/-- Two register words as a number. -/
def reg64 (s : State) (b : RegBlk) (off : Nat) : Nat := (reg s b off).toNat + 2 ^ 32 * (reg s b (off + 4)).toNat

/-- Sets a register word, as the device or firmware does. -/
def setReg (s : State) (b : RegBlk) (off : Nat) (v : Word) : State :=
  { s with regs := Tab.putD s.regs (regAddr b off / 4) v (regReset (regAddr b off)) }

/-- Sets two register words. -/
def setReg64 (s : State) (b : RegBlk) (off v : Nat) : State :=
  setReg (setReg s b off (BitVec.ofNat 32 v)) b (off + 4) (BitVec.ofNat 32 (v / 2 ^ 32))

/-- A field of a register word. -/
def regFld (s : State) (b : RegBlk) (off hi lo : Nat) : Nat := fld (reg s b off) hi lo

/-- Sets a field of a register word. -/
def setRegFld (s : State) (b : RegBlk) (off hi lo v : Nat) : State := setReg s b off (setFld (reg s b off) hi lo v)

end Sys2Proof.Machine
end

