-- ==== Sys2Proof/Machine/Ops.lean ====
section
/-! DEFINITION. The named operations over the state: fragments, waves, cores, contexts, outstanding operations, page
tables, and taking a trap: delivery by class (R369), the user handler (R154), a context fault (R370, R372), a
control-core halt (R373), queueing a replayable fault (R374, R375), and the return from a user handler (R155). -/

namespace Sys2Proof.Machine

open Sys2Proof

/-- How a unit ends other than by completing. -/
inductive Stop where
  /-- Not issued, or issued and still holding its fragment; the state to keep. -/
  | hold (why : Stall) (s : State)
  /-- A trap: cause (R127), argument, faulting address. -/
  | trap (cause : Nat) (arg : Word) (addr : Nat)
  /-- Ended before executing by something already applied to the state, such as a watch halt. -/
  | ended (s : State)
  /-- No meaning. -/
  | refuse (r : Refusal)

/-- The result of a part of a unit. -/
abbrev Eff (α : Type) := Except Stop α

/-! ## Trap causes (R127) -/

def illegalOp : Nat := 0x01
def priv : Nat := 0x02
def regBound : Nat := 0x03
def emptyRead : Nat := 0x04
def misalign : Nat := 0x05
def addrNoncanon : Nat := 0x06
def xlate : Nat := 0x07
def perm : Nat := 0x08
def cowCause : Nat := 0x09
def memUncorr : Nat := 0x0A
def witnessInvalid : Nat := 0x0B
def witnessExpired : Nat := 0x0C
def witnessForeign : Nat := 0x0D
def witnessPoisoned : Nat := 0x0E
def waitTimeout : Nat := 0x0F
def barOverflow : Nat := 0x10
def ringMisuse : Nat := 0x11
def fmtIllegal : Nat := 0x12
def accBound : Nat := 0x13
def wslotBad : Nat := 0x14
def copyFault : Nat := 0x15
def userTrap : Nat := 0x16
def watchCause : Nat := 0x17
def teamBad : Nat := 0x1A
def queueFault : Nat := 0x1B
def canopyBad : Nat := 0x1C
def hangCause : Nat := 0x1D
def idempLost : Nat := 0x1E

/-- A trap without argument or address. -/
def trap {α : Type} (cause : Nat) : Eff α := .error (.trap cause 0 0)

/-- A trap where `c` holds. -/
def trapIf (c : Bool) (cause : Nat) : Eff Unit := if c then trap cause else .ok ()

/-- An event whose condition does not hold. -/
def notNow {α : Type} (name : String) : Eff α := .error (.refuse (.notEnabled name))

/-- An event's condition. -/
def require (c : Bool) (name : String) : Eff Unit := if c then .ok () else notNow name

/-- An optional value an event needs. -/
def need {α : Type} (o : Option α) (name : String) : Eff α := match o with
  | some a => .ok a
  | none => notNow name

/-! ## Parts of the state -/

def State.wave? (s : State) (wid : Nat) : Option Wave := Tab.val? s.waves wid
@[simps] def State.setWave (s : State) (wid : Nat) (w : Wave) : State := { s with waves := Tab.put s.waves wid w }
@[simps] def State.updWave (s : State) (wid : Nat) (f : Wave → Wave) : State := { s with waves := Tab.upd s.waves wid f }
def State.waveD (s : State) (wid : Nat) : Wave := Tab.valD s.waves wid {}

/-- The fragment of an entry, where the entry is one. -/
def Wave.frag? (w : Wave) (eid : Nat) : Option Frag := match Tab.val? w.ents eid with
  | some (.frag f) => some f
  | _ => none
def Wave.setFrag (w : Wave) (eid : Nat) (f : Frag) : Wave := { w with ents := Tab.put w.ents eid (.frag f) }
/-- Changes the fragment of an entry, where the entry is still one. -/
def Wave.updLive (w : Wave) (eid : Nat) (g : Frag → Frag) : Wave := match w.frag? eid with
  | some f => w.setFrag eid (g f)
  | none => w
def State.frag? (s : State) (wid eid : Nat) : Option Frag := (s.wave? wid).bind fun w => w.frag? eid
def State.setFrag (s : State) (wid eid : Nat) (f : Frag) : State := s.updWave wid fun w => w.setFrag eid f
/-- Changes a fragment of a wave, or one that a delivery has set aside. -/
def State.updFrag (s : State) (wid eid : Nat) (g : Frag → Frag) : State :=
  s.updWave wid fun w => match w.frag? eid with
    | some f => w.setFrag eid (g f)
    | none => match w.intr with
      | none => w
      | some it => match Tab.val? it.ents eid with
        | some (.frag f) => { w with intr := some { it with ents := Tab.put it.ents eid (.frag (g f)) } }
        | _ => w

/-- Fragments of a wave with their entry numbers. -/
def Wave.frags (w : Wave) : List (Nat × Frag) := w.ents.filterMap fun (k, e) => match e with
  | .frag f => some (k, f)
  | .join _ => none
/-- Open join records of a wave. -/
def Wave.joins (w : Wave) : List (Nat × JoinRec) := w.ents.filterMap fun (k, e) => match e with
  | .frag _ => none
  | .join j => some (k, j)
/-- The fragment's `vdec` is being checked: nothing ends this hold (R195). -/
def Frag.decoding (f : Frag) : Bool := f.held.any fun h => h.kind == 10

/-- The fragment's `scstat` has still to write its register (R311, R316). -/
def Frag.reading (f : Frag) : Bool := f.held.any fun h => h.kind == 11

/-- A `vdec` of the wave is being checked or has not completed. -/
def vdecOut (s : State) (wid : Nat) : Bool :=
  (s.ops.any fun (_, o) => o.kind == .vdec && o.wid == wid && !o.done) || ((s.waveD wid).frags.any fun (_, f) => f.decoding)

/-- Fragments of a wave, those its delivery has set aside included. -/
def Wave.allFrags (w : Wave) : List Frag :=
  (w.frags.map (·.2)) ++ (match w.intr with
    | some it => it.ents.filterMap fun (_, e) => match e with
      | .frag f => some f
      | .join _ => none
    | none => [])

/-- Changes every fragment of a wave. -/
def Wave.mapFrags (w : Wave) (g : Frag → Frag) : Wave :=
  { w with ents := w.ents.map fun (k, e) => match e with
      | .frag f => (k, .frag (g f))
      | .join j => (k, .join j) }

/-- Changes every fragment of a wave, those a delivery has set aside included. -/
def Wave.mapAllFrags (w : Wave) (g : Frag → Frag) : Wave :=
  let on := fun (_ : Nat) (e : Entry) => match e with
    | .frag f => .frag (g f)
    | .join j => .join j
  { w.mapFrags g with intr := w.intr.map fun it => { it with ents := Tab.mapV it.ents on } }

def State.coreSt (s : State) (c : Nat) : CoreSt := Tab.valD s.cores c {}
@[simps] def State.setCore (s : State) (c : Nat) (x : CoreSt) : State := { s with cores := Tab.put s.cores c x }
def State.updCore (s : State) (c : Nat) (f : CoreSt → CoreSt) : State := s.setCore c (f (s.coreSt c))
def State.gladeSt (s : State) (g : Nat) : Glade := Tab.valD s.glades g {}
@[simps] def State.setGlade (s : State) (g : Nat) (x : Glade) : State := { s with glades := Tab.put s.glades g x }
def State.updGlade (s : State) (g : Nat) (f : Glade → Glade) : State := s.setGlade g (f (s.gladeSt g))
def State.ctxSt (s : State) (g c : Nat) : CtxSt := Tab.valD (s.gladeSt g).ctxs c {}
def State.setCtx (s : State) (g c : Nat) (x : CtxSt) : State :=
  s.updGlade g fun gl => { gl with ctxs := Tab.put gl.ctxs c x }
def State.updCtx (s : State) (g c : Nat) (f : CtxSt → CtxSt) : State := s.setCtx g c (f (s.ctxSt g c))
def State.blk? (s : State) (b : Nat) : Option Block := Tab.val? s.blocks b
def State.blkD (s : State) (b : Nat) : Block := Tab.valD s.blocks b {}
@[simps] def State.updBlk (s : State) (b : Nat) (f : Block → Block) : State := { s with blocks := Tab.upd s.blocks b f }
def State.cmd? (s : State) (c : Nat) : Option Cmd := Tab.val? s.cmds c
def State.cmdD (s : State) (c : Nat) : Cmd := Tab.valD s.cmds c {}
@[simps] def State.updCmd (s : State) (c : Nat) (f : Cmd → Cmd) : State := { s with cmds := Tab.upd s.cmds c f }
def State.op? (s : State) (o : Nat) : Option Op := Tab.val? s.ops o
@[simps] def State.updOp (s : State) (o : Nat) (f : Op → Op) : State := { s with ops := Tab.upd s.ops o f }

/-- A fragment of the context stood in a condition that keeps its watchdog's window from counting (R67). -/
def State.noteStall (s : State) (g c : Nat) : State := s.updCtx g c fun x => { x with stalledInWindow := true }

/-- A resident wave of a context. -/
def ctxResident (s : State) (g c : Nat) : Bool := s.waves.any fun (_, w) => !w.control && w.glade == g && w.ctx == c

/-- A wave of the context has left; the window counts only with one resident throughout (R67). -/
def State.noteLeave (s : State) (g c : Nat) : State :=
  if ctxResident s g c then s else s.updCtx g c fun x => { x with residentAll := false }

/-- A fresh name. -/
def State.fresh (s : State) : Nat × State := (s.nextId, { s with nextId := s.nextId + 1 })

/-- A free word, and the counter moved on. -/
def State.freeWord (s : State) : Word × State := (Config.freeWord s.freeCount, { s with freeCount := s.freeCount + 1 })

/-- Lanes that act: members whose `emask` bit is set (R9). -/
def Frag.active (f : Frag) : Word := f.memb &&& f.emask

/-- The number under which a core's fetch, L1 and epoch parts stand: control core g at 256 + g. -/
def Wave.coreNo (w : Wave) (wid : Nat) : Nat := if w.control then 256 + wid else w.core

/-- Context in which a wave fetches and reaches memory (R439). -/
def Wave.fetchCtx (w : Wave) : Nat := if w.control then 0 else w.ctx

/-! ## L1 lines (R202 to R205) -/

/-- The base of a 128-byte line. -/
def lineOf (a : Nat) : Nat := a / 128 * 128

/-- An L1 line is the one of a glade, context and line address. -/
def L1Line.isAt (e : L1Line) (g c va : Nat) : Bool := e.glade == g && e.ctx == c && e.va == lineOf va

/-- 20 µs, the bound of R203. -/
def lineLife : Nat := 20000

/-- Homes outside HBM: every access acts as SCOPE sys (R376). -/
def isFar (home : Nat) : Bool := 2 ^ 56 ≤ home

/-- An access is served by the home slice (R205, R223). -/
def bypasses (scope pol home : Nat) : Bool := scope == 2 || pol == 3 || isFar home

/-- The L1 line of a core that holds an address. -/
def lineFind (s : State) (core g c va : Nat) : Option L1Line := (s.coreSt core).l1.find? fun e => e.isAt g c va

/-- A mask of `n` bytes from `off`. -/
def byteMask (off n : Nat) : BitVec 128 := BitVec.ofNat 128 (2 ^ n - 1) <<< off

/-- The line holds the bytes: dirty, or clean and filled less than 20 µs ago. -/
def L1Line.holds (e : L1Line) (now off n : Nat) : Bool :=
  let m := byteMask off n
  (m &&& ~~~e.dirty) == 0 || ((m &&& ~~~(e.dirty ||| e.valid)) == 0 && now < e.filled + lineLife)

/-- A load would miss L1. -/
def l1Misses (s : State) (core g c va n : Nat) : Bool := match lineFind s core g c va with
  | some e => !e.holds s.now (va % 128) n
  | none => true

/-! ## Time (R3, R18, R19) -/

/-- The clks that a core has counted: the MHz of its own clock times the ns, over 1000 (R3, R18). -/
def coreClk (s : State) (c : Nat) : Nat :=
  let x := s.coreSt c
  (x.ticks + x.mhz * (s.now - x.clkFrom)) / 1000

/-- What `k` names has not been done in the ms in progress, and a note that it has (R426, R427, R438). -/
def msFree (s : State) (k : Nat) : Bool := Tab.val? s.msAt k != some (s.now / 1000000)
def noteMs (s : State) (k : Nat) : State := { s with msAt := Tab.put s.msAt k (s.now / 1000000) }

/-- Sets a core's clock, from now on. -/
def setMhz (s : State) (c mhz : Nat) : State :=
  s.updCore c fun x => { x with ticks := x.ticks + x.mhz * (s.now - x.clkFrom), clkFrom := s.now, mhz := mhz }

/-- A core with nothing but its clock. -/
def CoreSt.bare (x : CoreSt) : CoreSt := { mhz := x.mhz, gated := x.gated, clkFrom := x.clkFrom, ticks := x.ticks }

/-- The die of a core: compute chiplet core / 20, the base die for a control core (R12, R13, R427). -/
def dieOf (coreNo : Nat) : Nat := if coreNo < 256 then coreNo / 20 else 12

/-- A die's timebase. -/
def timebase (s : State) (die : Nat) : DWord := BitVec.ofNat 64 (s.now + Tab.valD s.tbOff die 0)

/-! ## Page tables (R376) -/

/-- The entry of a context's page table that maps an address. -/
def findPage (pages : List Page) (va : Nat) : Option Page := pages.find? fun p => p.va ≤ va && va < p.va + p.len

/-- A hardware walk. -/
def walkPage (s : State) (g c va : Nat) : Option Page := findPage (s.ctxSt g c).pages va

/-- The home location of an address on a page. -/
def Page.homeOf (p : Page) (va : Nat) : Nat := p.home + (va - p.va)

/-- The page lets bytes be read, written, fetched. -/
def Page.w (p : Page) : Bool := p.rwx.getLsbD 1
def Page.x (p : Page) : Bool := p.rwx.getLsbD 2

/-- Home location of an address a device unit may write in a context, if it has one. -/
def writableHome (s : State) (g c va : Nat) : Option Nat := match walkPage s g c va with
  | some p => if p.w && !p.cow then some (p.homeOf va) else none
  | none => none

/-- Home location of an address a device unit may read in a context, if it has one. -/
def readableHome (s : State) (g c va : Nat) : Option Nat := (walkPage s g c va).map fun p => p.homeOf va

/-! ## Context records (R381) -/

/-- Offset of a context record in the glade's register block: frame 3. -/
def ctxOff (c : Nat) : Nat := 0x3000 + 64 * c
/-- STATE: 0 CLOSED, 1 OPEN, 2 FAULTED, 3 CLOSING. -/
def ctxState (s : State) (g c : Nat) : Nat := regFld s (.gld g) (ctxOff c) 31 30
def ctxHandler (s : State) (g c : Nat) : Nat := reg64 s (.gld g) (ctxOff c + 0x08)
def setCtxState (s : State) (g c st : Nat) : State :=
  let s := setRegFld s (.gld g) (ctxOff c) 31 30 st
  let bit := if st == 1 || st == 2 then 1 else 0
  setRegFld s (.gld g) (0x40 + 4 * (c / 32)) (c % 32) (c % 32) bit

/-- A context in which fragments may issue: open and not being stopped by a context fault. -/
def ctxRuns (s : State) (g c : Nat) : Bool := ctxState s g c == 1 && (s.ctxSt g c).drainFrom.isNone

/-! ## Registers of a wave (R95, R98) -/

def Wave.sreg (w : Wave) (n : Nat) : Word := Tab.valD w.sregs n 0
def Wave.setS (w : Wave) (n : Nat) (v : Word) : Wave := { w with sregs := Tab.putD w.sregs n v 0 }
def Wave.vreg (w : Wave) (n lane : Nat) : Word := Tab.valD w.vregs (32 * n + lane) 0
def Wave.setV (w : Wave) (n lane : Nat) (v : Word) : Wave := { w with vregs := Tab.putD w.vregs (32 * n + lane) v 0 }
def Wave.setSs (w : Wave) (n : Nat) (vs : List Word) : Wave :=
  (vs.zipIdx).foldl (fun w (v, i) => w.setS (n + i) v) w
def Wave.sPair (w : Wave) (n : Nat) : DWord := w.sreg (n + 1) ++ w.sreg n
def Wave.setSPair (w : Wave) (n : Nat) (v : DWord) : Wave :=
  (w.setS n (v.extractLsb' 0 32)).setS (n + 1) (v.extractLsb' 32 32)
/-- Writes a register in the lanes of a mask. -/
def Wave.setVm (w : Wave) (n : Nat) (m : Word) (f : Nat → Word) : Wave :=
  (lanesOf m).foldl (fun w l => w.setV n l (f l)) w

def ins (x : Nat) (l : List Nat) : List Nat := if l.contains x then l else x :: l
def Wave.markEmptyS (w : Wave) (rs : List Nat) : Wave := { w with sEmpty := rs.foldr ins w.sEmpty }
def Wave.markFullS (w : Wave) (rs : List Nat) : Wave := { w with sEmpty := w.sEmpty.filter fun r => !rs.contains r }
def Wave.markEmptyV (w : Wave) (rs : List Nat) : Wave := { w with vEmpty := rs.foldr ins w.vEmpty }
def Wave.markFullV (w : Wave) (rs : List Nat) : Wave := { w with vEmpty := w.vEmpty.filter fun r => !rs.contains r }

/-- `n` register numbers from `r`. -/
def range (r n : Nat) : List Nat := (List.range n).map (r + ·)

/-- ORs exception flags into the wave (R84, R85). -/
def Wave.raise (w : Wave) (fl : Nat) : Wave := { w with fflags := w.fflags ||| BitVec.ofNat 32 (fl % 64) }

/-! ## Outstanding operations (R238) -/

/-- A counter of a wave: its operations of the class that have not retired. -/
def outstanding (s : State) (wid cls : Nat) : Nat :=
  (s.ops.filter fun (_, o) => o.wid == wid && o.cls == some cls).length

/-- Retires completed operations of a class in issue order. -/
def retireList (wid cls : Nat) : Tab Op → Tab Op
  | [] => []
  | (k, o) :: t =>
    if o.wid == wid && o.cls == some cls then (if o.done then retireList wid cls t else (k, o) :: t)
    else (k, o) :: retireList wid cls t

/-- Completes an operation: it retires, with those of its class that waited for it; one of no class just ends. -/
def completeOp (s : State) (oid : Nat) : State := match s.op? oid with
  | none => s
  | some o => match o.cls with
    | none => { s with ops := Tab.del s.ops oid }
    | some c => { s with ops := retireList o.wid c (Tab.put s.ops oid { o with done := true }) }

/-- Lines that an operation's accesses reach through the mesh: scratch of another part, and global lines that L1 does
not serve (R200, R205, R226, R261). -/
def Op.meshLines (s : State) (o : Op) : List Nat :=
  let far := o.accs.filter fun a => match o.kind with
    | .load => if o.scr then bitsOf a.va 23 21 != (s.waveD o.wid).part
        else bypasses o.scope o.pol a.home || l1Misses s o.core o.glade o.ctx a.va o.size
    | .store => if o.scr then bitsOf a.va 23 21 != (s.waveD o.wid).part else bypasses o.scope o.pol a.home
    | .atomic => o.scope != 0 || isFar a.home || l1Misses s o.core o.glade o.ctx a.va o.size
    | .copy => o.stage != 1 &&
        (bypasses o.scope o.pol a.home || l1Misses s o.core o.glade o.ctx a.va o.size)
    | _ => false
  let out := if o.kind == .copy && o.stage != 0 then o.accs.map fun a => lineOf a.home2 else []
  (far.map fun a => if o.scr then lineOf a.va else lineOf a.home).eraseDups ++ out.eraseDups

/-- Bytes at a home location carry a poison mark (R364). -/
def markedAt (s : State) (home n : Nat) : Bool := s.marked.any fun l => decide (home < l + 128) && decide (l < home + n)

/-- A read of an operation is served from a line with a poison mark; a line that the core's L1 holds serves it as before (R364,
notes/assumptions 127). -/
def Op.meetsMark (s : State) (o : Op) : Bool :=
  !o.scr && !(o.kind == .copy && o.stage == 1) && o.accs.any fun a =>
    markedAt s a.home (if o.kind == .wload then a.va2 else o.size) &&
    (o.kind == .wload || (o.kind == .atomic && o.scope != 0) || bypasses o.scope o.pol a.home ||
      l1Misses s o.core o.glade o.ctx a.va o.size)

/-- An operation of the fetch or trace engine, which keeps in its unit what the mesh has no room for (R351). -/
def Op.engine (o : Op) : Bool := o.kind == .wload || o.kind == .trace

/-- Requests of an operation in the mesh (R351): one per line of an access, one per ray, one for each operation of another unit that
works at a slice; an operation on scratch of its own part needs none (notes/assumptions 31). -/
def Op.requests (s : State) (o : Op) : Nat :=
  let away := o.accs.any fun a => bitsOf a.va 23 21 != (s.waveD o.wid).part
  match o.kind with
  | .load | .store | .atomic | .copy => (o.meshLines s).length
  | .wload => (o.accs.map fun a => (a.va % 128 + a.va2 + 127) / 128).foldl (· + ·) 0
  | .trace => o.accs.length
  | .barrive => if away then 1 else 0
  | .accst => if away then popc 32 o.active.toNat else 0
  | .gbarrive | .tqinit | .tqpush | .tqpop | .lookup | .fill | .abort | .sweep | .frame | .notify | .writeBack | .tile => 1
  | .tbar | .tred | .vdec | .accrd | .accwr | .accclr | .mma | .prim | .spread => 0

/-- Requests of a core that stand in the mesh: its operations' and its landing probes (R351). -/
def meshRequests (s : State) (core : Nat) : Nat :=
  (s.ops.foldl (fun n (_, o) => if o.core == core && !o.done then n + o.requests s else n) 0) +
  ((Tab.vals s.probes).filter fun p => p.reader == core).length

/-- The counter of a class has room, and for a unit that uses the mesh its core's requests are not all in use (R238, R351). -/
def roomFor (s : State) (wid core : Nat) (cls : Option Nat) (mesh : Bool) : Eff Unit :=
  let busy : Bool := match cls with
    | some c => 63 ≤ outstanding s wid c
    | none => false
  if busy || (mesh && 256 ≤ meshRequests s core) then .error (.hold .lsuQueueFull s) else .ok ()

/-- The counter of the class, and the core's mesh requests, have room for an operation (R238, R351). -/
def opRoom (s : State) (o : Op) : Eff Unit :=
  let busy : Bool := match o.cls with
    | some c => 63 ≤ outstanding s o.wid c
    | none => false
  let n := if o.engine then min 1 (o.requests s) else o.requests s
  if busy || (n != 0 && 256 < meshRequests s o.core + n) then .error (.hold .lsuQueueFull s) else .ok ()

/-- Enters an operation, with the time and the predicates of its core (R411). -/
def putOp (s : State) (o : Op) : Nat × State :=
  let (id, s) := s.fresh
  (id, { s with ops := Tab.put s.ops id { o with issued := s.now, preds := (s.coreSt o.core).preds } })

/-- Starts an operation; without room the unit is not ready. -/
def addOp (s : State) (o : Op) : Eff (Nat × State) := do
  opRoom s o
  .ok (putOp s o)

/-- An operation of a fragment. -/
def mkOp (wid eid : Nat) (w : Wave) (f : Frag) (kind : OpKind) (cls : Option Nat) : Op :=
  { kind := kind, wid := wid, eid := eid, core := w.coreNo wid, glade := w.glade, ctx := if w.control then 0 else w.ctx,
    blk := w.blk, cls := cls, active := f.active, fmt := f.fmt, pc := f.pc, quiet := f.skipPred }

/-- A replay entry's operation is still to be applied; a pop or push is applied once the slice has accepted it again (R64,
notes/assumptions 134). -/
def Op.unapplied (o : Op) : Bool := o.wait.isSome && !o.done && !((o.kind == .tqpop || o.kind == .tqpush) && o.stage == 2)

/-- The operation may be applied now as far as the replay entries of its block go: they are applied in the order in which
they were recorded (R388). -/
def entryTurn (s : State) (oid : Nat) (o : Op) : Bool :=
  o.wait.isNone || !(s.ops.any fun (k, p) => k < oid && p.wait == o.wait && p.unapplied)

/-- The class numbers of R117. -/
def cLD : Nat := 0
def cST : Nat := 1
def cCP : Nat := 2
def cMX : Nat := 3
def cWL : Nat := 4
def cAT : Nat := 5
def cTQ : Nat := 6
def cTR : Nat := 7

/-- A PREEMPT delivery holds the wave's registers in its image (R384, R387). -/
def Wave.delivered (w : Wave) : Bool := match w.intr with
  | some it => it.cause == 0x18
  | none => false

/-- The copies that a PREEMPT delivery holds, seen as a wave, and back. -/
def Wave.copies (w : Wave) (it : Intr) : Wave := { w with sregs := it.sregs, sEmpty := it.sEmpty, vEmpty := it.vEmpty, vregs := it.v01 }
def Intr.fromCopies (it : Intr) (w : Wave) : Intr :=
  { it with sregs := w.sregs, sEmpty := w.sEmpty, vEmpty := w.vEmpty, v01 := w.vregs.filter fun e => e.1 < 64 }

/-- Every lane of the wave has ended. -/
def Wave.over (w : Wave) : Bool := w.ended == 0xFFFFFFFF#32

/-- The vector destinations that an operation's completion writes: none once every lane of its wave has ended (R150). -/
def liveDst (s : State) (o : Op) : List Nat := if (s.waveD o.wid).over then [] else o.dst

/-- Applies a register write to a wave, which is discarded once every lane of it has ended (R150); in a PREEMPT delivery,
one by a re-applied operation goes to its copies too. -/
def Wave.deliver (w : Wave) (o : Op) (f : Wave → Wave) : Wave := if w.over then w else match w.intr with
  | some it =>
    if it.cause == 0x18 && o.wait.isSome then { f w with intr := some (it.fromCopies (f (w.copies it))) } else f w
  | none => f w

/-- Writes an operation's vector results and marks their registers full. -/
def deliverV (s : State) (o : Op) (f : Nat → Nat → Word) : State :=
  s.updWave o.wid fun w => w.deliver o fun w =>
    ((o.dst.zipIdx).foldl (fun w (r, i) => w.setVm r o.active (f i)) w).markFullV o.dst

/-- Writes an operation's scalar results and marks their registers full. -/
def deliverS (s : State) (o : Op) (vs : List Word) : State :=
  s.updWave o.wid fun w => w.deliver o fun w => ((o.sdst.zip vs).foldl (fun w (r, v) => w.setS r v) w).markFullS o.sdst

/-! ## Fault records (R372) -/

/-- What a fault record names. -/
structure FaultInfo where
  kind : Nat := 1
  cause : Nat := 0
  seq : Nat := 0
  ccpc : DWord := 0
  pc : DWord := 0
  addr : Nat := 0
  arg : Word := 0
  core : Nat := 0
  quad : Nat := 0
  wave : Nat := 0
  blk : Nat := 0
  lanes : Word := 0

/-- The sixteen words of a fault record. -/
def faultWords (s : State) (i : FaultInfo) (die : Nat) : List Word :=
  let t := timebase s die
  [BitVec.ofNat 32 (i.kind * 2 ^ 24 + i.cause), BitVec.ofNat 32 i.seq,
   i.ccpc.extractLsb' 0 32, i.ccpc.extractLsb' 32 32, i.pc.extractLsb' 0 32, i.pc.extractLsb' 32 32,
   BitVec.ofNat 32 i.addr, BitVec.ofNat 32 (i.addr / 2 ^ 32), i.arg,
   BitVec.ofNat 32 (i.core % 256 * 2 ^ 24 + i.quad * 2 ^ 16 + i.wave), BitVec.ofNat 32 i.blk, i.lanes,
   t.extractLsb' 0 32, t.extractLsb' 32 32, 0, 0]

/-- Writes a record to a context's fault ring, or counts it lost. -/
def writeFaultRecord (s : State) (g c : Nat) (ws : List Word) : State :=
  let r := RegBlk.gld g
  let o := ctxOff c
  let size := (reg s r (o + 0x28)).toNat
  let head := reg s r (o + 0x2C)
  let tail := reg s r (o + 0x30)
  let slot := reg64 s r (o + 0x20) + 64 * (tail.toNat % size)
  let lost := (s.ctxSt g c).recordLost
  let s := if lost then s.updCtx g c fun x => { x with recordLost := false } else s
  match (if lost || (tail - head).toNat == size then none else writableHome s g c slot) with
  | none => setReg s r (o + 0x34) (reg s r (o + 0x34) + 1)
  | some h =>
    let s := { s with mem := setMem s.mem h 64 (ofWords ws) }
    let s := setReg s r (o + 0x30) (tail + 1)
    { s with msix := ((s.ctxSt g c).vf, 0) :: s.msix }

/-- What a record says of the unit at a fragment's PC. -/
def fragInfo (s : State) (w : Wave) (f : Frag) (kind cause : Nat) (arg : Word) (addr : Nat) : FaultInfo :=
  let b := s.blkD w.blk
  let k := s.cmdD w.cmd
  { kind := kind, cause := cause, seq := k.seq, ccpc := k.ccpc, pc := f.pc, addr := addr, arg := arg,
    core := if w.control then 0xFF else w.core, quad := w.quad, wave := w.widx, blk := b.lin, lanes := f.active }

/-- What a record says of a unit of a fragment. -/
def unitInfo (s : State) (wid eid kind cause : Nat) (arg : Word) (addr : Nat) : FaultInfo :=
  let w := s.waveD wid
  fragInfo s w ((w.frag? eid).getD {}) kind cause arg addr

/-! ## Taking a trap (R369) -/

/-- Begins a context fault (R370): issue in the context stops; CONTEXT_FAULT_DRAIN_EXPIRY takes the later steps. Only
the first fault of an open context counts. -/
def contextFault (s : State) (g c : Nat) (i : FaultInfo) (die : Nat) : State :=
  if ctxRuns s g c then
    s.updCtx g c fun x => { x with drainFrom := some s.now, drainRec := faultWords s i die }
  else s

/-- Halts a control core (R373): CCR_FAULT reports it, with the 52 bits that its PC field has, and every open context of the glade gets a record of KIND 4. -/
def ccHalt (s : State) (g : Nat) (i : FaultInfo) : State :=
  let s := s.updWave g fun w => { w with haltCc := true }
  let s := setReg s .ccr (0x100 + 16 * g) (BitVec.ofNat 32 (0x100 + i.cause))
  let s := setReg64 s .ccr (0x108 + 16 * g) (i.pc.toNat % 2 ^ 52)
  let ws := faultWords s { i with kind := 4 } 12
  (List.range 64).foldl (fun s c => if ctxState s g c == 1 then writeFaultRecord s g c ws else s) s

/-- The entry of a glade's fault queue for one context and 64 KiB page, made where there is none (R374, R375). -/
def enqueueFault (s : State) (g c : Nat) (cow : Bool) (kind addr wid : Nat) (pc : DWord) : Nat × State :=
  match (s.gladeSt g).faultq.find? fun e => e.ctx == c && e.va / 2 ^ 16 == addr / 2 ^ 16 && e.cow == cow with
  | some e => (e.id, s)
  | none =>
    let (n, s) := s.fresh
    let e : FaultEnt := { id := n, glade := g, ctx := c, va := addr, kind := kind, wid := wid, pc := pc, cow := cow }
    (n, s.updGlade g fun x => { x with faultq := x.faultq ++ [e] })

/-- Queues a replayable fault and marks the wave for replay (R62). -/
def queueFault' (s : State) (wid eid : Nat) (cow : Bool) (kind addr : Nat) : State :=
  let w := s.waveD wid
  let pc := ((s.frag? wid eid).getD {}).pc
  let (id, s) := enqueueFault s w.glade (if w.control then 0 else w.ctx) cow kind addr wid pc
  s.updWave wid fun w => { w with replay := ins id w.replay }

/-- Adds a unit that left its fall-through path to the wave's HASH (R424). -/
def Wave.hashJump (w : Wave) (pc target : DWord) (lanes : Word) : Wave :=
  let x := (pc.extractLsb' 0 32 ^^^ (target.extractLsb' 0 32).rotateLeft 13 ^^^ lanes) * 0x9E3779B1#32
  { w with hash := w.hash + x }

/-- Delivery to the user handler (R154). -/
def enterHandler (f : Frag) (uh resume : DWord) (cause : Nat) (arg : Word) (unitPc : DWord) : Frag :=
  { f with
    trap := ({ inHandler := true, rpc := resume, savedRj := f.pending, cause := BitVec.ofNat 8 cause, tpc := unitPc,
               targ := arg, skip := f.skipPred && resume == f.pc } : TrapSt),
    skipPred := false,
    pending := none, pc := uh, held := none, sleepEnd := none }

/-- Return from the user handler (R155). -/
def leaveHandler (f : Frag) : Frag :=
  { f with pc := f.trap.rpc, pending := f.trap.savedRj, trap := { f.trap with inHandler := false } }

/-- Puts a block on the fall-back save path (R385, R386): its handler fragments are discarded. -/
def fallBack (s : State) (b : Nat) : State :=
  s.updBlk b fun x => { x with budgetAt := none, image := x.image.map fun im => { im with fallback := true, handler := false } }

/-- The wave runs a save handler: of the vector registers it may write only v0 and v1, and it may write no accumulator tile
and no weight slot (R384). -/
def saveRefuses (w : Wave) : Bool := match w.intr with
  | some it => it.cause == 0x18 && !it.restore
  | none => false

/-- A trap that stops a wave: in a save handler its block takes the fall-back path and nothing else happens (R385); else
it is a context fault (R370). -/
def waveFault (s : State) (w : Wave) (i : FaultInfo) : State :=
  if saveRefuses w then fallBack s w.blk else contextFault s w.glade w.ctx i (dieOf w.core)

/-- DeliverUser of R154, with the unit's PC and the resume address given. -/
def deliverUser (s : State) (wid eid cause : Nat) (arg : Word) (unitPc resume : DWord) : State :=
  let w := s.waveD wid
  match w.frag? eid with
  | none => s
  | some f =>
    if w.uhandler == 0 || f.trap.inHandler || w.intr.isSome then
      waveFault s w { unitInfo s wid eid 1 cause arg 0 with pc := unitPc }
    else s.setWave wid ((w.setFrag eid (enterHandler f w.uhandler resume cause arg unitPc)).hashJump unitPc w.uhandler f.memb)

/-- What a record says of a trap of an operation (R369, R372): an asynchronous one names no unit. -/
def opInfo (s : State) (o : Op) (kind cause addr : Nat) : FaultInfo :=
  let w := s.waveD o.wid
  let b := s.blkD o.blk
  let k := s.cmdD (if w.control then w.cmd else b.cmd)
  { kind := kind, cause := cause, seq := k.seq, ccpc := k.ccpc, pc := if cause == memUncorr || cause == copyFault then 0 else o.pc,
    addr := addr, core := o.core, quad := w.quad, wave := w.widx, blk := b.lin, lanes := o.active }

/-- Block termination by an operation's trap (R371): issue stops in the block, a record of KIND 2 is written unless a context
fault has begun or the context is closing (R370), and the first cause is kept for the command; BLOCK_DONE takes the rest. -/
def terminateBlock (s : State) (o : Op) (cause : Nat) : State :=
  let x := s.blkD o.blk
  if x.terminated then s
  else
    let g := (s.cmdD x.cmd).glade
    let c := (s.waveD (x.waves.headD 0)).ctx
    let s := if ctxRuns s g c then writeFaultRecord s g c (faultWords s (opInfo s o 2 cause 0) (dieOf o.core)) else s
    let s := s.updBlk o.blk fun y => { y with terminated := true, since := s.now }
    s.updCmd x.cmd fun y => { y with firstTerm := some (y.firstTerm.getD cause) }

/-- The wave runs a restore handler, where any trap is a context fault (R387). -/
def Wave.restoring (w : Wave) : Bool := w.intr.any fun it => it.cause == 0x18 && it.restore

/-- Takes a trap of the unit of a fragment (R369). The fragment's PC is the unit's. -/
def takeTrap (s : State) (wid eid cause : Nat) (arg : Word) (addr akind : Nat) : State :=
  let w := s.waveD wid
  let f := (w.frag? eid).getD {}
  if cause == xlate && !w.restoring then queueFault' s wid eid false akind addr
  else if cause == cowCause && !w.restoring then queueFault' s wid eid true akind addr
  else if w.control then ccHalt s w.glade (unitInfo s wid eid 4 cause arg addr)
  else if w.intr.isNone && (cause == emptyRead || cause == waitTimeout) then deliverUser s wid eid cause arg f.pc f.pc
  else waveFault s w (unitInfo s wid eid 1 cause arg addr)

/-- Takes a trap of an operation (R369): the record names the launching command, and of a precise trap the unit. -/
def opTrap (s : State) (o : Op) (cause addr : Nat) : State :=
  let w := s.waveD o.wid
  let i := opInfo s o 1 cause addr
  if w.control then ccHalt s w.glade { i with pc := o.pc, core := 0xFF } else waveFault s w i

/-- A class-B trap of an operation ends its block (R371); of one that a handler of a PREEMPT delivery issued it is as any other
trap of that handler (R385, R387). -/
def blockTrap (s : State) (o : Op) (cause : Nat) : State :=
  if (s.waveD o.wid).delivered && o.wait.isNone then opTrap s o cause 0 else terminateBlock s o cause

end Sys2Proof.Machine
end

