-- ==== Sys2Proof/Machine/Split.lean ====
section
/-! DEFINITION. Divergence and rejoining: splitting a fragment, the ordered fallback, deferral and merge records,
parking and fusion, and the end of lanes (R54 to R58, R147, R150). -/

namespace Sys2Proof.Machine

open Sys2Proof

/-- The next parking order of a wave. -/
def parkOrder (w : Wave) : Nat := (w.frags.map fun (_, f) => (f.parked.map (· + 1)).getD 0).foldl max 0

/-- What a fragment at its PC does with the top record of its stack (R56 steps 1 and 2). A record keeps no pending rejoin
address: the entry's own stays as it is (notes/assumptions 113). -/
def inspectTop (f : Frag) : Option Frag := match f.stack with
  | [] => none
  | r :: t =>
    if r.merge && r.pc == f.pc then
      some { f with memb := f.memb ||| r.memb, emask := f.emask ||| r.emask, fmt := r.fmt, x0 := r.x0, x1 := r.x1,
                    stack := t }
    else if !r.merge && r.rejoin == some f.pc then
      some { f with
        memb := r.memb, emask := r.emask, fmt := r.fmt, x0 := r.x0, x1 := r.x1, pc := r.pc,
        stack := { merge := true, memb := f.memb, emask := f.emask, pc := f.pc, fmt := f.fmt, x0 := f.x0, x1 := f.x1,
                   rejoin := r.rejoin } :: t }
    else none

/-- Parked fragments of a wave that a join record gathers, in parking order. -/
def gathered (w : Wave) (j : JoinRec) : List (Nat × Frag) :=
  ((w.frags.filter fun (_, f) => f.parked.isSome && f.pc == j.join && (f.memb &&& ~~~j.memb) == 0)).mergeSort
    fun a b => (a.2.parked.getD 0) ≤ (b.2.parked.getD 0)

/-- The lanes gathered at a join record. -/
def gatheredLanes (w : Wave) (j : JoinRec) : Word := (gathered w j).foldl (fun m (_, f) => m ||| f.memb) 0

/-- The innermost join record whose lanes have all parked; of two with equal lanes the later opened. -/
def fusible (w : Wave) : Option (Nat × JoinRec) :=
  ((w.joins.filter fun (_, j) => j.memb != 0 && gatheredLanes w j == j.memb)).foldl
    (fun best c => match best with
      | none => some c
      | some b =>
        let pc := popc 32 c.2.memb.toNat
        let pb := popc 32 b.2.memb.toNat
        if pc < pb || (pc == pb && b.2.seq < c.2.seq) then some c else best) none

/-- An open join record waits for the fragment at its PC. A deferred set that resumed with the rejoin address of its
record may have none: no fusion could release it, and "the lanes held in records always run on to their own end" (R56), so
it runs on (notes/assumptions 16). -/
def hasJoin (w : Wave) (f : Frag) : Bool := w.joins.any fun (_, j) => j.join == f.pc && (f.memb &&& ~~~j.memb) == 0

/-- Fuses the fragments of a join record into its entry (R57); a halt of one of them still stands (R409). -/
def fuse (w : Wave) (eid : Nat) (j : JoinRec) : Wave :=
  let fs := gathered w j
  let first : Frag := match fs with
    | (_, f) :: _ => f
    | [] => {}
  let g : Frag :=
    { first with
      memb := j.memb, emask := fs.foldl (fun m (_, f) => m ||| f.emask) 0, pc := j.join, rejoin := j.rejoin,
      pending := none, stack := j.stack, parked := none, halt := fs.findSome? fun (_, f) => f.halt,
      haltDue := fs.flatMap fun (_, f) => f.haltDue, watchDue := fs.findSome? fun (_, f) => f.watchDue, held := none, stepping := 0 }
  let ents := fs.foldl (fun t (k, _) => Tab.del t k) w.ents
  { w with ents := Tab.put ents eid (.frag g) }

/-- A fragment has reached the address its PC names: records are served, then it parks, then joins fuse, and a fused
fragment reaches the join address in turn (R56, R57). -/
def settle : Nat → Wave → Nat → Wave
  | 0, w, _ => w
  | n + 1, w, eid => match w.frag? eid with
    | none => w
    | some f => match inspectTop f with
      | some f' => settle n (w.setFrag eid f') eid
      | none =>
        if f.rejoin == some f.pc && f.parked.isNone && hasJoin w f then
          let w := w.setFrag eid { f with parked := some (parkOrder w), pending := none, held := none }
          match fusible w with
          | some (k, j) => settle n (fuse w k j) k
          | none => w
        else w

/-- Fuel that no nest of records exceeds: at most 31 records and 32 joins (R56). -/
def settleFuel : Nat := 130

/-- Fuses what the end of lanes made complete. -/
def settleJoins : Nat → Wave → Wave
  | 0, w => w
  | n + 1, w => match fusible w with
    | some (k, j) => settleJoins n (settle settleFuel (fuse w k j) k)
    | none => w

/-! ## Entries (R54) -/

/-- Entries that a wave holds, those its delivery has set aside included. -/
def Wave.entriesHeld (w : Wave) : Nat := w.ents.length + (match w.intr with
  | some it => it.ents.length
  | none => 0)

/-- Unreserved split-table entries of a core that no wave holds. -/
def freePool (s : State) (core : Nat) : Nat :=
  2048 - ((Tab.vals s.waves).filter fun w => !w.control && w.core == core).foldl
    (fun n w => n + max w.entriesHeld (1 + w.rsv)) 0

/-- Entries a divergence of the wave may take: its reservation, then the core's. -/
def freeEntries (s : State) (w : Wave) : Nat := (1 + w.rsv - w.entriesHeld) + freePool s w.core

/-- A fragment made from `f` for a subset of its lanes. -/
def childFrag (f : Frag) (lanes : Word) (pc : DWord) (rejoin : Option DWord) : Frag :=
  { f with memb := lanes, emask := f.emask &&& lanes, pc := pc, rejoin := rejoin, pending := none, stack := [],
           parked := none, held := none, stepping := 0, overdue := none, passed := 0 }

/-- Split(t at target, n at next) of R148: R55, or R56 where entries are short. `free` is what R54 leaves. -/
def splitWave (free : Nat) (w : Wave) (eid : Nat) (f : Frag) (t n : Word) (target next : DWord) : Wave :=
  match f.pending with
  | some j =>
    if 2 ≤ free then
      let seq := (w.joins.map fun (_, j) => j.seq + 1).foldl max 0
      let r : JoinRec := { memb := f.memb, rejoin := f.rejoin, join := j, stack := f.stack, seq := seq }
      let w := { w with ents := Tab.put w.ents eid (.join r) }
      let k := Tab.freshFrom w.ents 0
      let w := w.setFrag k (childFrag f t target (some j))
      let k' := Tab.freshFrom w.ents 0
      let w := w.setFrag k' (childFrag f n next (some j))
      settle settleFuel (settle settleFuel w k) k'
    else deferWave w eid f t n target next (some j)
  | none =>
    if 1 ≤ free then
      let w := w.setFrag eid { childFrag f t target f.rejoin with stack := f.stack }
      let k := Tab.freshFrom w.ents 0
      let w := w.setFrag k (childFrag f n next f.rejoin)
      settle settleFuel (settle settleFuel w eid) k
    else deferWave w eid f t n target next f.rejoin
where
  /-- The ordered fallback: the record keeps F's `emask` whole, and only F's membership changes. -/
  deferWave (w : Wave) (eid : Nat) (f : Frag) (t n : Word) (target next : DWord) (j : Option DWord) : Wave :=
    let r : Deferral := { merge := false, memb := n, emask := f.emask, pc := next, fmt := f.fmt, x0 := f.x0, x1 := f.x1,
                          rejoin := j }
    let g := { f with memb := t, pc := target, pending := none, held := none, stack := r :: f.stack }
    settle settleFuel (w.setFrag eid g) eid

/-! ## Ending lanes (R56, R57, R150) -/

/-- Removes lanes from the records of a stack; empty records go. -/
def dropLanes (m : Word) (st : List Deferral) : List Deferral :=
  (st.map fun r => { r with memb := r.memb &&& ~~~m }).filter fun r => r.memb != 0

/-- The top record of an entry without running lanes resumes in it as a fragment made from `f` (R56), and has then
reached its address. An entry without records goes. -/
def resumeEntry (w : Wave) (eid : Nat) (f : Frag) : Wave := match f.stack with
  | [] => { w with ents := Tab.del w.ents eid }
  | r :: t =>
    let g := { f with memb := r.memb, emask := r.emask, pc := r.pc, fmt := r.fmt, x0 := r.x0, x1 := r.x1, stack := t,
                      pending := none, parked := none, held := none }
    settle settleFuel (w.setFrag eid (if r.merge then g else { g with rejoin := r.rejoin })) eid

/-- Ends every lane of a fragment's membership. -/
def endLanes (w : Wave) (eid : Nat) (f : Frag) : Wave :=
  let m := f.memb
  let ents : Tab Entry := w.ents.map fun (k, e) => match e with
    | .frag g => (k, .frag (if k == eid then { g with memb := 0, emask := 0, stack := dropLanes m g.stack }
        else { g with stack := dropLanes m g.stack }))
    | .join j => (k, .join { j with memb := j.memb &&& ~~~m, stack := dropLanes m j.stack })
  let w := { w with ents := ents, ended := w.ended ||| m }
  let w := match w.frag? eid with
    | some g => resumeEntry w eid g
    | none => w
  let w := w.joins.foldl (fun w (k, j) =>
    if j.memb == 0 then resumeEntry w k { f with stack := j.stack, rejoin := j.rejoin } else w) w
  settleJoins 64 w

/-- Splits lanes of a fragment off into a new fragment at the same PC, as HALT_LANE does (R407); none where no entry is
free or no lane would stay. -/
def splitOff (free : Nat) (w : Wave) (eid : Nat) (f : Frag) (lanes : Word) : Option (Wave × Nat) :=
  let m := f.memb &&& lanes
  if free == 0 || m == f.memb || m == 0 then none
  else
    let k := Tab.freshFrom w.ents 0
    let due := fun (m : Word) => f.watchDue.filter fun (a, _) => m.getLsbD (a.toNat / 256 % 32)
    let g := { f with memb := m, emask := f.emask &&& m, stack := [], watchDue := due m }
    let w := w.setFrag eid { f with memb := f.memb &&& ~~~m, watchDue := due (~~~m) }
    some (w.setFrag k g, k)

end Sys2Proof.Machine
end

