-- ==== Sys2Proof/Machine/Watch.lean ====
section
/-! DEFINITION. Watch predicates: events, matching, hit counts, actions and halts (R397 to R409), and the records of
the sample ring (R419, R420). -/

namespace Sys2Proof.Machine

open Sys2Proof

/-! ## The debug context (R397, R398) -/

def dbgEn (s : State) (g : Nat) : Bool := regFld s .wch (16 * g) 31 31 == 1
def dbgCtx (s : State) (g : Nat) : Nat := regFld s .wch (16 * g) 5 0
def dbgTarget (s : State) (g : Nat) : Nat := regFld s .wch (16 * g) 13 8
def dbgSeq (s : State) (g : Nat) : Nat := (reg s .wch (16 * g + 4)).toNat
/-- The halt notify word's address; 0 means none. -/
def dbgNotify (s : State) (g : Nat) : Nat := (reg64 s .wch (16 * g + 8) / 4 % 2 ^ 50) * 4

/-- A debug handler wave: a wave of DCTX while EN is set. -/
def isDebugWave (s : State) (w : Wave) : Bool := !w.control && dbgEn s w.glade && w.ctx == dbgCtx s w.glade

/-- Predicates are evaluated for the wave. -/
def watched (s : State) (w : Wave) : Bool :=
  !w.control && dbgEn s w.glade && w.ctx == dbgTarget s w.glade && !isDebugWave s w &&
  (dbgSeq s w.glade == 0 || (s.cmdD w.cmd).seq == dbgSeq s w.glade)

/-! ## Ring records (R419, R420) -/

/-- Address space of the sample ring. -/
def ringCtx (s : State) (g : Nat) : Nat := if dbgEn s g then dbgCtx s g else 0

/-- Writes a 64-byte record to a glade's sample ring, or counts it lost (R420); one whose slot is no writable page is dropped
(notes/assumptions 152). -/
def ringWrite (s : State) (g : Nat) (ws : List Word) : State :=
  let ctl := reg s .smp (32 * g)
  let size := 2 ^ fld ctl 8 4
  let base := (reg64 s .smp (32 * g) / 2 ^ 12 % 2 ^ 40) * 2 ^ 12
  let head := reg s .smp (32 * g + 8)
  let tail := reg s .smp (32 * g + 12)
  if (tail - head).toNat == size then setReg s .smp (32 * g + 16) (reg s .smp (32 * g + 16) + 1)
  else match writableHome s g (ringCtx s g) (base + 64 * (tail.toNat % size)) with
    | none => s
    | some h =>
      let s := { s with mem := setMem s.mem h 64 (ofWords ws) }
      setReg s .smp (32 * g + 12) (tail + 1)

/-- The words of a ring record. -/
def ringWords (s : State) (w : Wave) (typ lane reason : Nat) (issued : Bool) (pc : DWord) (x : Nat) : List Word :=
  let k := s.cmdD w.cmd
  let b := s.blkD w.blk
  let t := timebase s (dieOf w.core)
  [BitVec.ofNat 32 (w.core * 2 ^ 24 + w.quad * 2 ^ 22 + (if issued then 2 ^ 21 else 0) + reason * 2 ^ 16 +
      w.ctx * 2 ^ 10 + lane * 2 ^ 5 + typ),
   BitVec.ofNat 32 k.seq, pc.extractLsb' 0 32, pc.extractLsb' 32 32, k.ccpc.extractLsb' 0 32, k.ccpc.extractLsb' 32 32,
   t.extractLsb' 0 32, t.extractLsb' 32 32, BitVec.ofNat 32 x, BitVec.ofNat 32 (x / 2 ^ 32),
   BitVec.ofNat 32 (b.lin * 256 + w.widx), 0, 0, 0, 0, 0]

/-! ## Matching (R400 to R403) -/

def Pred.en (p : Pred) : Bool := p.ctl.getLsbD 63
def Pred.fld (p : Pred) (hi lo : Nat) : Nat := bitsOf p.ctl.toNat hi lo

/-- An event's value or address range matches the comparison; a range [A, B] with A above B holds nothing. -/
def cmpMatch (p : Pred) (e : WatchEv) : Bool :=
  let cmp := p.fld 58 56
  if e.src ≤ 1 then
    let cut := fun (v : DWord) => if e.scr then v.toNat % 2 ^ 32 else v.toNat
    let a := cut p.a
    let b := cut p.b
    let last := e.x + e.len - 1
    if cmp == 0 then e.x ≤ a && a ≤ last
    else if cmp == 1 then !(e.x ≤ a && a ≤ last)
    else if cmp == 2 then a ≤ b && e.x ≤ b && a ≤ last
    else if cmp == 3 then e.x < a || b < last
    else (e.x &&& b) == a
  else
    let w := if e.src == 4 then 64 else 8 * 2 ^ p.fld 55 54
    let a := p.a.toNat % 2 ^ w
    let b := p.b.toNat % 2 ^ w
    let x := e.x % 2 ^ w
    if cmp == 0 then x == a
    else if cmp == 1 then x != a
    else if cmp == 2 then a ≤ x && x ≤ b
    else if cmp == 3 then x < a || b < x
    else (x &&& b) == a

/-- A predicate matches an event of a wave, CHAIN aside. -/
def plainMatch (w : Wave) (p : Pred) (e : WatchEv) : Bool :=
  p.en && p.fld 61 59 == e.src && p.ctl.getLsbD e.lane &&
  (p.fld 47 46 == 0 || (p.fld 47 46 == 1 && p.fld 45 38 == w.widx)) &&
  (1 < e.src || (p.fld 37 37 == 1) == e.scr) && cmpMatch p e

/-- The hit of predicate `n` in a lane on the events of one unit: the value that matched. A chained hit comes with the later of
its two events, so events seen before hit only together with a new one (R403, R406). -/
def hitIn (preds : Tab Pred) (w : Wave) (evs : List WatchEv) (n : Nat) (p : Pred) (l : Nat) : Option Nat :=
  let own := evs.filter fun e => e.lane == l && plainMatch w p e
  if p.fld 50 50 == 1 then
    match Tab.val? preds (n + 1) with
    | some q =>
      let next := evs.filter fun e => e.lane == l && plainMatch w q e
      ((if next.isEmpty then [] else own).find? fun e => !e.seen || next.any fun e' => !e'.seen).map (·.x)
    | none => none
  else (own.find? fun e => !e.seen).map (·.x)

/-- The hits of predicate `n` on the events of one unit: lanes rising, with the value that matched. -/
def hitsOf (preds : Tab Pred) (w : Wave) (evs : List WatchEv) (n : Nat) : List (Nat × Nat) := match Tab.val? preds n with
  | none => []
  | some p => (List.range 32).filterMap fun l => (hitIn preds w evs n p l).map fun x => (l, x)

/-! ## Halts (R407, R409) -/

/-- Halts a fragment: a sleep ends. A halt takes effect only once no `vdec` is outstanding (R195, R196): `late` makes it
wait. -/
def haltFrag (late : Bool) (h : HaltSt) (f : Frag) : Frag :=
  if f.halt.isSome then f
  else if late then { f with haltDue := f.haltDue ++ [(f.memb, h)], sleepEnd := none, stepping := 0 }
  else { f with halt := some h, haltDue := [], sleepEnd := none, stepping := 0 }

/-- Halts the lanes of `m`: of each fragment that is not halted they leave into one new HALTED fragment, or the whole fragment is
halted where no entry is free or all its lanes are named (R407). `skip` is the entry whose halted unit issues again without
predicates (R406). -/
def Wave.haltLanes (free : Nat) (late : Bool) (h : HaltSt) (m : Word) (skip : Option Nat) (w : Wave) : Wave :=
  w.frags.foldl (fun v (k, f) =>
    let hit := f.memb &&& m
    let stop := fun (g : Frag) => haltFrag false h { g with skipPred := g.skipPred || skip == some k }
    if hit == 0 || f.halt.isSome then v
    else if late then
      v.setFrag k { f with haltDue := f.haltDue ++ [(hit, h)], sleepEnd := none, skipPred := f.skipPred || skip == some k }
    else match splitOff (free + w.ents.length - v.ents.length) v k f hit with
      | some (u, n) => u.updLive n stop
      | none => v.updLive k stop) w

/-- A change to the fragments of a wave, or to those that a delivery has set aside. -/
def Wave.onSide (aside : Bool) (g : Wave → Wave) (w : Wave) : Wave :=
  if aside then
    match w.intr with
    | some it => { w with intr := some { it with ents := (g { w with ents := it.ents }).ents } }
    | none => w
  else g w

/-- Halts every fragment of a wave; fusion groups of its block become due. -/
def haltWave (late : Bool) (h : HaltSt) (w : Wave) : Wave := { w.mapFrags (haltFrag late h) with haltReq := none }

/-- The halts that wait in the fragments of a wave take effect (R196, R407). -/
def Wave.haltsDue (free now : Nat) (w : Wave) : Wave :=
  let dues := w.frags.flatMap fun (_, f) => f.haltDue
  let w := w.mapFrags fun f => { f with haltDue := [] }
  dues.foldl (fun v (m, h) => v.haltLanes (free + w.ents.length - v.ents.length) false { h with since := now } m none) w

/-- The open groups that satisfy `p` become due, in the order they opened (R286). -/
def MxQuad.makeDue (m : MxQuad) (p : MxGroup → Bool) : MxQuad :=
  { m with opened := m.opened.filter fun g => !p g, due := m.due ++ m.opened.filter p }

/-- Fusion groups of a block become due (R286, R409). -/
def dueGroups (s : State) (b : Nat) : State :=
  { s with cores := Tab.mapV s.cores fun _ c =>
      { c with mx := Tab.mapV c.mx fun _ m => m.makeDue fun g => g.blk == b } }

/-- Halts that waited for the `vdec` of a wave take effect once none is outstanding, and fusion groups of its block become due
(R196, R286). -/
def takeHalts (s : State) (wid : Nat) : State :=
  let w := s.waveD wid
  if vdecOut s wid || w.allFrags.all fun f => f.haltDue.isEmpty then s
  else
    let go := Wave.haltsDue (freeEntries s w) s.now
    dueGroups (s.updWave wid fun w => (w.onSide false go).onSide true go) w.blk

/-- Halts the waves that satisfy `p`: on the named core at once, elsewhere through the taproot; fusion groups of the blocks with a
fragment halted now become due. -/
def haltWhere (s : State) (core : Nat) (h : Nat → HaltSt) (p : Nat → Wave → Bool) : State :=
  let s' := { s with waves := Tab.mapV s.waves fun k w =>
    if !w.control && p k w then
      if w.core == core then haltWave (vdecOut s k) (h k) w else { w with haltReq := some (h k) }
    else w }
  (s.waves.filter fun (k, w) => !w.control && p k w && w.core == core && !vdecOut s k).foldl (fun s (_, w) => dueGroups s w.blk) s'

/-- A notify addition on its way to its home slice (R300). -/
def notifyAdd (s : State) (g c addr : Nat) : State :=
  if addr == 0 then s
  else
    let (id, s) := s.fresh
    { s with ops := Tab.put s.ops id { kind := .notify, wid := 2 ^ 40, glade := g, ctx := c, scr := true, args := [addr], issued := s.now } }

/-- The halt notify word advances by 1. -/
def haltNotify (s : State) (g : Nat) : State := notifyAdd s g (dbgCtx s g) (dbgNotify s g)

/-- Members of the team in a slot of a wave. -/
def teamMate (w : Wave) (slot : Nat) (v : Wave) : Bool :=
  let t := w.teams.getD slot 0
  v.cmd == w.cmd && v.teams.contains t

/-- Applies the halt action of a predicate to the lanes that hit, in the fragments of the wave or in those set aside. -/
def haltAction (s : State) (wid : Nat) (aside : Bool) (skip : Option Nat) (pred act tslot : Nat) (lanes : Word) (trig : DWord) : State :=
  let w := s.waveD wid
  let h : HaltSt := { origin := 1, pred := pred, trig := trig, since := s.now }
  if act == 2 then
    let late := vdecOut s wid
    let s' := s.updWave wid (Wave.onSide aside (Wave.haltLanes (freeEntries s w) late h lanes skip))
    if late then s' else dueGroups s' w.blk
  else
    let s := match skip with
      | some eid => s.updFrag wid eid fun f => { f with skipPred := true }
      | none => s
    if act == 3 then haltWhere s w.core (fun _ => h) fun k _ => k == wid
    else if act == 4 then haltWhere s w.core (fun _ => h) fun _ v => v.blk == w.blk
    else if act == 5 then
      if 256 ≤ w.teams.getD tslot 0 then haltWhere s w.core (fun _ => h) fun _ v => teamMate w tslot v
      else haltWhere s w.core (fun _ => h) fun k _ => k == wid
    else
      let s := haltWhere s w.core (fun k => if k == wid then h else { h with origin := 3 }) fun _ v => v.cmd == w.cmd
      s.updCmd w.cmd fun c => { c with haltMark := true }

/-! ## Evaluation (R404 to R408) -/

/-- A predicate whose action is taken for some hits: its number, it, and those hits. -/
abbrev Acting := Nat × Pred × List (Nat × Nat)

def Acting.act (a : Acting) : Nat := a.2.1.fld 53 51
def Acting.lanes (a : Acting) : Word := a.2.2.foldl (fun m (l, _) => m ||| laneBit l) 0
def Acting.halts (a : Acting) : Bool := 2 ≤ a.act && a.act ≤ 6

/-- The sum of a saturating hit count. -/
def satAdd (h : Word) (n : Nat) : Word := if 2 ^ 32 ≤ h.toNat + n then 0xFFFFFFFF#32 else h + BitVec.ofNat 32 n

/-- The hits on one unit, by predicate. -/
def allHits (preds : Tab Pred) (w : Wave) (evs : List WatchEv) : List (Nat × List (Nat × Nat)) :=
  ((List.range 16).map fun n => (n, hitsOf preds w evs n)).filter fun (_, hs) => !hs.isEmpty

/-- HITS of a predicate before a unit's hits: the core's count, or, where the predicate has been written again since the unit issued,
the count it had then (R404, R411, notes/assumptions 139). -/
def hitsBefore (s : State) (core n : Nat) (p : Pred) : Word :=
  let c := Tab.valD (s.coreSt core).preds n {}
  if c.gen == p.gen then c.hits else p.hits

/-- The predicates that act: those with hits that find HITS at or past THRESH (R404). -/
def actsOf (s : State) (core : Nat) (preds : Tab Pred) (hits : List (Nat × List (Nat × Nat))) : List Acting :=
  hits.filterMap fun (n, hs) =>
    let p := Tab.valD preds n {}
    let th := max 1 (p.fld 36 32)
    match (hs.zipIdx).filterMap fun (h, i) => if th ≤ (hitsBefore s core n p).toNat + i + 1 then some h else none with
    | [] => none
    | a => some (n, p, a)

/-- Evaluates predicates on the events of one unit: HITS count, and LOG writes its records. The predicates that act come back
(R404, R405). -/
def takeHits (s : State) (wid : Nat) (preds : Tab Pred) (trig : DWord) (evs : List WatchEv) : State × List Acting :=
  let w := s.waveD wid
  let hits := allHits preds w evs
  let acts := actsOf s w.core preds hits
  let s := s.updCore w.core fun c => { c with
    preds := hits.foldl (fun t (n, hs) => Tab.upd t n fun q =>
      if q.gen == (Tab.valD preds n {}).gen then { q with hits := satAdd q.hits hs.length } else q) c.preds }
  (acts.foldl (fun s a =>
    if a.act == 1 then a.2.2.foldl (fun s (l, x) => ringWrite s w.glade (ringWords s w 1 l a.1 false trig x)) s else s) s, acts)

/-- The halts of a unit's hits, which together advance the notify word once (R405, R407). -/
def haltHits (s : State) (wid : Nat) (aside : Bool) (skip : Option Nat) (trig : DWord) (acts : List Acting) : State :=
  haltNotify ((acts.filter Acting.halts).foldl (fun s a =>
    haltAction s wid aside skip a.1 a.act (a.2.1.fld 49 48) a.lanes trig) s) (s.waveD wid).glade

/-- WATCH's argument (R408). -/
def watchArg (n lane : Nat) : Word := BitVec.ofNat 32 (n + 256 * lane)

/-- The first predicate with TRAP that hit in some lanes, and the lowest of them that hit (R405, R408). -/
def trapHit (acts : List Acting) (m : Word) : Option Word :=
  (acts.filter fun a => a.act == 7).findSome? fun a =>
    ((a.2.2.find? fun h => m.getLsbD h.1).map fun h => watchArg a.1 h.1)

/-- Address events, at issue and after the unit's own checks (R406): the unit goes on, its events noted for the predicates
that a value completes, or ends unexecuted. -/
def watchAddr (s : State) (wid eid : Nat) (evs : List WatchEv) : Eff State :=
  let w := s.waveD wid
  let f := (w.frag? eid).getD {}
  let preds := (s.coreSt w.core).preds
  if !watched s w || f.skipPred || preds.isEmpty then .ok s
  else
    let (s, acts) := takeHits s wid preds f.pc evs
    if acts.any Acting.halts then .error (.ended (haltHits s wid false (some eid) f.pc acts))
    else match trapHit acts f.memb with
      | some a =>
        .error (.ended (deliverUser (s.updFrag wid eid fun f => { f with skipPred := true }) wid eid watchCause a f.pc f.pc))
      | none => .ok { s with watchEv := s.watchEv ++ evs.map fun e => { e with seen := true } }

/-- Delivers WATCH of a completed unit to a fragment, which resumes at its next unit (R408). -/
def takeWatch (s : State) (wid eid : Nat) (arg : Word) (trig : DWord) : State :=
  let pc := ((s.frag? wid eid).getD {}).pc
  (deliverUser s wid eid watchCause arg trig pc).updFrag wid eid fun f => { f with parked := none, watchDue := none }

/-- A halt of a unit's hits reaches a fragment (R405). -/
def haltReaches (acts : List Acting) (f : Frag) : Bool := acts.any fun a => a.halts && (a.act != 2 || a.lanes &&& f.memb != 0)

/-- Value and flag events, once the value exists: the unit with PC `trig` has completed, and the fragments that now hold the lanes that
hit take the actions; a WATCH that finds its fragment's `vdec` being checked, or the fragment set aside, waits (R195, R406 to R408).
`aside` says that a delivery has set the unit's fragment aside. -/
def watchValues (s : State) (wid : Nat) (preds : Tab Pred) (aside : Bool) (trig : DWord) (evs : List WatchEv) : State :=
  match s.wave? wid with
  | none => s
  | some w =>
    if evs.isEmpty || !watched s w || preds.isEmpty then s
    else
      let (s, acts) := takeHits s wid preds trig evs
      let frags := if aside then (match w.intr with
        | some it => ({ w with ents := it.ents } : Wave).frags
        | none => []) else w.frags
      let s := if acts.any Acting.halts then haltHits s wid aside none trig acts else s
      frags.foldl (fun s (k, f) => match trapHit acts f.memb with
        | none => s
        | some a =>
          if haltReaches acts f then s
          else if aside || f.decoding then
            s.updWave wid (Wave.onSide aside fun w => w.updLive k fun f => { f with watchDue := some (f.watchDue.getD (a, trig)) })
          else takeWatch s wid k a trig) s

/-- The events of an operation's completion, under the predicates in force when it issued (R411). -/
def watchOp (s : State) (oid : Nat) (o : Op) (evs : List WatchEv) : State :=
  if o.quiet then s
  else watchValues s o.wid o.preds ((s.waveD o.wid).intr.any fun it => o.wait.isSome || oid < it.first) o.pc evs

/-- Events matter for the wave: it is watched and its core holds a predicate. -/
def watching (s : State) (w : Wave) : Bool := watched s w && !(s.coreSt w.core).preds.isEmpty

end Sys2Proof.Machine
end

