-- ==== Sys2Proof/Machine/Issue.lean ====
section
/-! DEFINITION. One unit of a fragment: its end by completing, holding or trapping (R10, R59, R145, R250, R369), and one
event of the device. -/

namespace Sys2Proof.Machine

open Sys2Proof

/-- The outcome type of every meaning. -/
abbrev Out := Host.Outcome State Fault Refusal

/-- The body of a unit: the state, the issuing wave and entry, and what they hold. -/
abbrev Body := State → Nat → Nat → Wave → Frag → Eff State

/-- The fragment moves on after its unit: a held unit is done, and a handler that returns goes back to a unit whose
predicates are not evaluated where it was entered so (R408). -/
def afterUnit (size : Nat) (adv : Bool) (f : Frag) : Frag :=
  { f with pc := if adv then f.pc + BitVec.ofNat 64 size else f.pc, held := none, stall := .issued,
           skipPred := f.trap.skip && !f.trap.inHandler, trap := { f.trap with skip := f.trap.skip && f.trap.inHandler },
           passed := 0, overdue := none, pin := none, storing := false }

/-- A stepped fragment that has neither parked nor ended is HALTED with origin STEP (R413). -/
def stepHalt (late : Bool) (now : Nat) (trig : DWord) (f : Frag) : Frag :=
  if f.stepping == 0 then f
  else if f.parked.isSome then { f with stepping := 0 }
  else haltFrag late { origin := 2, trig := trig, since := now } f

/-- A retired unit resets the hang count of its context (R67). -/
def countRetired (s : State) (w : Wave) : State := s.updCtx w.glade w.ctx fun c => { c with hang := 0, retiredInWindow := true }

/-- The state with another record of watch events. -/
@[simps] def State.withEv (s : State) (evs : List WatchEv) : State := { s with watchEv := evs }

/-- A step ends: its fragment halts, and once it has, fusion groups of its block become due (R286, R409, R413). -/
def endStep (s : State) (wid eid : Nat) (trig : DWord) : State :=
  let late := vdecOut s wid
  let s' := s.updWave wid fun w => w.updLive eid (stepHalt late s.now trig)
  if (s'.frag? wid eid).any fun f => f.halt.isSome then dueGroups s' (s.waveD wid).blk else s'

/-- A unit retires. -/
def retireUnit (s : State) (wid eid size : Nat) (adv : Bool) (f0 : Frag) : State :=
  let s := s.updWave wid fun w => w.updLive eid (afterUnit size adv)
  let s := s.updWave wid fun w =>
    let w := settle settleFuel w eid
    { w with retired := w.retired + 1, stepDue := if f0.stepping == 2 then some eid else w.stepDue }
  let evs := s.watchEv
  let s := s.withEv []
  let s := countRetired s (s.waveD wid)
  let s := if f0.skipPred then s else watchValues s wid (s.coreSt (s.waveD wid).core).preds false f0.pc evs
  if f0.stepping == 0 then s else endStep s wid eid f0.pc

/-- A step whose unit was delivered to the user handler halts at the handler's first unit (R413). -/
def stepTrap (f0 : Frag) (wid eid : Nat) (s : State) : State :=
  if f0.stepping == 0 then s
  else if (s.frag? wid eid).any fun f => f.trap.inHandler && !f0.trap.inHandler then endStep s wid eid f0.pc
  else s

/-- The outcome of a unit from its body's result; `s0` is the state before it. -/
def finishUnit (size : Nat) (adv : Bool) (s0 : State) (wid eid : Nat) (f0 : Frag) (r : Eff State) : Out := match r with
  | .ok s => .next (retireUnit s wid eid size adv f0)
  | .error (.hold why s) => .next ((s.withEv []).updFrag wid eid fun f => { f with stall := why })
  | .error (.trap c a ad) => .next (stepTrap f0 wid eid (takeTrap s0 wid eid c a ad a.toNat))
  | .error (.ended s) => .next (stepTrap f0 wid eid (s.withEv []))
  | .error (.refuse r) => .refused r

/-- Runs a unit of `size` bytes for the issuing fragment; `adv` says that its PC moves past the unit. -/
def issueUnit (size : Nat) (adv : Bool) (s : State) (body : Body) : Out := match s.cur with
  | none => .refused .noAgent
  | some (wid, eid) => match s.wave? wid with
    | none => .fault .lostFragment
    | some w => match w.frag? eid with
      | none => .fault .lostFragment
      | some f => finishUnit size adv s wid eid f (body (s.withEv []) wid eid w f)

/-- The bytes of a unit with an EXT unit before it. -/
def extSize (x : Ext) : Nat := if x = .none then 4 else 8

/-- An event: its new state, or why it cannot happen now. -/
def runEvent (s : State) (r : Eff State) : Out := match r with
  | .ok s' => .next s'
  | .error (.refuse r) => .refused r
  | .error (.hold _ s') => .next s'
  | .error (.ended s') => .next s'
  | .error (.trap _ _ _) => .next s

/-! ## Held units (R250) -/

/-- The record of a unit that holds its fragment: the one in force, or a new one with the unit's operands; a TIMEOUT
unit gives the limit. -/
def heldOr (s : State) (f : Frag) (x : Ext) (kind a b : Nat) : Held := match f.held with
  | some h => h
  | none =>
    let h : Held := { since := s.now, kind := kind, a := a, b := b }
    match x with
    | .timeout n => { h with limit := some (s.now + 1000 * n.toNat), tcount := n.toNat }
    | _ => h

/-- The time of a held unit is up. -/
def Held.due (h : Held) (now : Nat) : Bool := match h.limit with
  | some t => t ≤ now
  | none => false

/-- Holds the fragment at its unit, or traps WAIT_TIMEOUT where its time is up; TIMEOUT 0 traps at the first check
(R111, R250). -/
def holdUnit {α : Type} (s : State) (wid eid : Nat) (h : Held) (why : Stall) : Eff α :=
  if h.due s.now then .error (.trap waitTimeout (BitVec.ofNat 32 h.tcount) 0)
  else .error (.hold why (s.updFrag wid eid fun f => { f with held := some h }))

end Sys2Proof.Machine
end

