-- ==== Sys2Proof/Machine/Operands.lean ====
section
/-! DEFINITION. Operand forms: register fields and their checks, readiness, and reading operands (R98 to R104, R133,
R235). Checks that trap come first, then registers that must be full, then trap-if-empty fields (R99). -/

namespace Sys2Proof.Machine

open Sys2Proof

/-- VecReg of R101. -/
def vecReg (w : Wave) (f : Frag) (fd : Nat) : Eff Nat :=
  let n := if fd < 96 then fd else if fd < 112 then f.x0.toNat + (fd - 96) else f.x1.toNat + (fd - 112)
  if w.nvreg ≤ n then trap regBound else .ok n

/-- A vector operand of `cnt` registers; `pair` demands an even first register, `block` that it always waits for full
registers, `tie` the trap-if-empty bit. -/
structure VSrc where
  fd : Nat
  cnt : Nat := 1
  pair : Bool := false
  tie : Bool := false

/-- The first register of a range, checked (R101, R104). Of several faults of one unit the model reports the first in the
order of these checks (notes/assumptions 112). -/
def vecRange (w : Wave) (f : Frag) (fd cnt : Nat) (pair : Bool) : Eff Nat := do
  let n ← vecReg w f fd
  trapIf (pair && n % 2 == 1) illegalOp
  trapIf (w.nvreg < n + cnt) regBound
  .ok n

/-- A scalar source (R102): an even pair when `pair`. -/
structure SSrc where
  fd : Nat
  cnt : Nat := 1
  pair : Bool := false

/-- The checks of a scalar source. -/
def scalarCheck (x : SSrc) : Eff Unit :=
  if x.fd < 192 then
    if x.pair && x.fd % 2 == 1 then trap illegalOp
    else if 192 < x.fd + x.cnt then trap illegalOp
    else .ok ()
  else if 216 ≤ x.fd then trap illegalOp
  else if 208 ≤ x.fd then (if x.cnt == 1 && !x.pair then .ok () else trap illegalOp)
  else if x.cnt ≤ 2 && (x.cnt == 1 || x.pair) then .ok () else trap illegalOp

/-- Special scalar sources (R102). A control core reads 208 and 211 as its one fragment holds them
(notes/assumptions 20). -/
def specialSrc (s : State) (wid : Nat) (w : Wave) (f : Frag) (n : Nat) : Word :=
  if n == 208 then f.emask
  else if n == 209 then f.fmt
  else if n == 210 then w.fflags
  else if n == 211 then BitVec.ofNat 32 (popc 32 f.active.toNat)
  else if n == 212 then BitVec.ofNat 32 w.widx
  else if n == 213 then BitVec.ofNat 32 (s.blkD w.blk).lin
  else if n == 214 then (timebase s (dieOf (w.coreNo wid))).extractLsb' 0 32
  else 0

/-- The value of a scalar source: a word, a pair, or a range, as a number. -/
def scalarVal (s : State) (wid : Nat) (w : Wave) (f : Frag) (x : SSrc) : Nat :=
  if x.fd < 192 then ofWords ((range x.fd x.cnt).map w.sreg)
  else if x.fd < 208 then x.fd - 192
  else (specialSrc s wid w f x.fd).toNat

/-- The scalar registers of a source. -/
def SSrc.regs (x : SSrc) : List Nat := if x.fd < 192 then range x.fd x.cnt else []

/-- A scalar destination range (R102, R104). -/
def scalarDst (fd cnt : Nat) (pair : Bool) : Eff Unit :=
  if 192 < fd + cnt || (pair && fd % 2 == 1) then trap illegalOp else .ok ()

/-- None of the registers may be empty, or the unit is not ready (R99, R100). -/
def fullS (s : State) (w : Wave) (rs : List Nat) : Eff Unit :=
  if rs.any fun r => w.sEmpty.contains r then .error (.hold .emptySrc s) else .ok ()

/-- The issuing wave waits for a register that one of its lookups has yet to write (R303). -/
def awaitsLookup (s : State) (w : Wave) (rs : List Nat) : Bool := s.cur.any fun c => s.ops.any fun (_, o) =>
  o.kind == .lookup && o.wid == c.1 && !o.done && rs.any fun r => w.vEmpty.contains r && o.dst.contains r

def fullV (s : State) (w : Wave) (rs : List Nat) : Eff Unit :=
  if rs.any fun r => w.vEmpty.contains r then .error (.hold (if awaitsLookup s w rs then .canopyWait else .emptySrc) s) else .ok ()

/-- Trap-if-empty fields, in the order a, b: the first empty register is the argument (R99). -/
def tieCheck (w : Wave) : List (VSrc × Nat) → Eff Unit
  | [] => .ok ()
  | (x, n) :: t =>
    if x.tie then
      match (range n x.cnt).find? fun r => w.vEmpty.contains r with
      | some r => .error (.trap emptyRead (BitVec.ofNat 32 r) 0)
      | none => tieCheck w t
    else tieCheck w t

/-- A unit that writes a tile or a weight slot, or is `scfill`, traps in a save delivery (R384). -/
def saveGuard (w : Wave) : Eff Unit := trapIf (saveRefuses w) illegalOp

/-- A vector destination of `cnt` registers. -/
def vecDst (w : Wave) (f : Frag) (fd cnt : Nat) (pair : Bool) : Eff Nat := do
  let n ← vecRange w f fd cnt pair
  trapIf (saveRefuses w && 2 < n + cnt) illegalOp
  .ok n

/-- Resolves vector sources. -/
def vecSrcs (w : Wave) (f : Frag) : List VSrc → Eff (List Nat)
  | [] => .ok []
  | x :: t => do
    let n ← vecRange w f x.fd x.cnt x.pair
    let r ← vecSrcs w f t
    .ok (n :: r)

/-- Checks scalar sources. -/
def scalarChecks : List SSrc → Eff Unit
  | [] => .ok ()
  | x :: t => do
    scalarCheck x
    scalarChecks t

/-- The value of a range of vector registers in a lane, as a number. -/
def vecVal (w : Wave) (n cnt lane : Nat) : Nat := ofWords ((range n cnt).map fun r => w.vreg r lane)

/-! ## Whole operand lists -/

/-- Operands of a unit: vector sources, scalar sources, a vector destination (field, count, pair), a scalar destination
(field, count, pair). -/
structure Opnds where
  v : List VSrc := []
  s : List SSrc := []
  vd : Option (Nat × Nat × Bool) := none
  sd : Option (Nat × Nat × Bool) := none

/-- Resolved operands: first vector registers, scalar values, destination registers. -/
structure Got where
  v : List Nat := []
  s : List Nat := []
  vd : Nat := 0
  sd : Nat := 0

/-- Registers that must be full before the unit is ready. -/
def blockingV (xs : List VSrc) (ns : List Nat) : List Nat :=
  (xs.zip ns).flatMap fun (x, n) => if x.tie then [] else range n x.cnt

/-- Resolves and checks the operands of a unit and waits for those that must be full (R99, R100). -/
def readyOpnds (s : State) (wid : Nat) (w : Wave) (f : Frag) (o : Opnds) : Eff Got := do
  let ns ← vecSrcs w f o.v
  let vd ← match o.vd with
    | some (fd, c, p) => vecDst w f fd c p
    | none => .ok 0
  scalarChecks o.s
  let sd ← match o.sd with
    | some (fd, c, p) => do
      scalarDst fd c p
      .ok fd
    | none => .ok 0
  fullS s w (o.s.flatMap SSrc.regs)
  fullS s w (match o.sd with
    | some (fd, c, _) => range fd c
    | none => [])
  fullV s w (blockingV o.v ns)
  fullV s w (match o.vd with
    | some (_, c, _) => range vd c
    | none => [])
  .ok { v := ns, s := o.s.map (scalarVal s wid w f), vd := vd, sd := sd }

/-- Operands of a unit that waits for `room` too: the trap-if-empty fields are tested last, once the unit is otherwise
ready (R99). -/
def getOpndsFor (s : State) (wid : Nat) (w : Wave) (f : Frag) (o : Opnds) (room : Eff Unit) : Eff Got := do
  let g ← readyOpnds s wid w f o
  room
  tieCheck w (o.v.zip g.v)
  .ok g

/-- Operands of a unit that waits for nothing else. -/
def getOpnds (s : State) (wid : Nat) (w : Wave) (f : Frag) (o : Opnds) : Eff Got := getOpndsFor s wid w f o (.ok ())

/-- Units a control core does not execute (R124). -/
def noControl (w : Wave) : Eff Unit := trapIf w.control illegalOp

/-! ## Results -/

/-- The wave with `cnt` registers from `n` written in the lanes of `m`; `val l` gives the words of lane `l`. -/
def Wave.setLanes (w : Wave) (n cnt : Nat) (m : Word) (val : Nat → List Word) : Wave :=
  (lanesOf m).foldl (fun w l => (((val l).take cnt).zipIdx).foldl (fun w (v, i) => w.setV (n + i) l v) w) w

/-- Writes `cnt` registers from `n` in the lanes of `m`, noting a write event per register and lane where the wave is
watched (R163, R401). `val l` gives the words of lane `l`. -/
def writeV (s : State) (wid n cnt : Nat) (m : Word) (val : Nat → List Word) : State :=
  let w := s.waveD wid
  let s := s.setWave wid (w.setLanes n cnt m val)
  if watching s w then
    s.withEv (s.watchEv ++ (lanesOf m).flatMap fun l =>
        ((val l).take cnt).map fun v => ({ src := 5, lane := l, x := v.toNat } : WatchEv))
  else s

/-- Completes an operation that writes one word per lane of each of its vector destinations: word `i` of lane `l` is `val i l`. The
registers become full, and value events follow (R150, R238, R401). -/
def completeLanes (s : State) (oid : Nat) (o : Op) (val : Nat → Nat → Word) : State :=
  let dst := liveDst s o
  let s := (dst.zipIdx).foldl (fun s (r, i) => writeV s o.wid r 1 o.active fun l => [val i l]) (s.withEv [])
  let evs := s.watchEv
  let s := completeOp ((s.withEv []).updWave o.wid fun w => w.markFullV dst) oid
  watchOp s oid o evs

/-- Raises exception flags lane by lane, noting flag events (R85, R401). -/
def raiseFlags (s : State) (wid : Nat) (m : Word) (fl : Nat → Nat) : State :=
  let ls := (lanesOf m).map fun l => (l, fl l)
  let all := ls.foldl (fun a (_, x) => a ||| x) 0
  if all == 0 then s
  else
    let w := s.waveD wid
    let s := s.setWave wid (w.raise all)
    if watching s w then
      s.withEv (s.watchEv ++ (ls.filter fun (_, x) => x != 0).map fun (l, x) =>
          ({ src := 4, lane := l, x := x } : WatchEv))
    else s

/-- A vector unit: `k lane operands` gives each lane's result words and flags. -/
def vecUnit (size : Nat) (o : Opnds) (s : State) (k : Frag → List Nat → List Nat → List Word × Nat) : Out :=
  issueUnit size true s fun s wid _ w f => do
    noControl w
    let g ← getOpnds s wid w f o
    let res := (List.range 32).map fun l =>
      if f.active.getLsbD l then k f ((o.v.zip g.v).map fun (x, n) => vecVal w n x.cnt l) g.s else ([], 0)
    let cnt := match o.vd with
      | some (_, c, _) => c
      | none => 0
    let s := writeV s wid g.vd cnt f.active fun l => (res.getD l ([], 0)).1
    .ok (raiseFlags s wid f.active fun l => (res.getD l ([], 0)).2)

/-- A scalar unit with one result range, given as a number. -/
def scalarUnit (size : Nat) (srcs : List SSrc) (sd cnt : Nat) (pair : Bool) (s : State) (k : List Nat → Nat) : Out :=
  issueUnit size true s fun s wid _ w f => do
    let g ← getOpnds s wid w f { s := srcs, sd := some (sd, cnt, pair) }
    .ok (s.setWave wid (w.setSs sd (wordsOf cnt (k g.s))))

end Sys2Proof.Machine
end

