-- ==== Sys2Proof/Machine/Scratch.lean ====
section
/-! DEFINITION. The scratchpad: addresses and their checks, the bytes of a part, and the order of one wave's accesses
to one part (R33, R200, R201, R237). -/

namespace Sys2Proof.Machine

open Sys2Proof

/-- The key of a scratch byte in its block. -/
def scrKey (part off : Nat) : Nat := 2 ^ 21 * part + off

/-- The seed of the free bytes at an offset of a block's scratchpad. -/
def Block.seedAt (b : Block) (off : Nat) : Nat :=
  match b.regions.find? fun r => decide (r.1 ≤ off) && decide (off < r.1 + r.2.1) with
  | some r => r.2.2
  | none => b.scrSeed

/-- A byte of a block's scratchpad; one that nothing has written, or that the device has since changed in a tile slot, is a free
value (R201, R320, notes/assumptions 5, 119). -/
def Block.scrByte (b : Block) (part off : Nat) : Byte :=
  (Tab.val? b.scr (scrKey part off)).getD (Config.freeByte (b.seedAt off + scrKey part off))

/-- `n` bytes of scratch as a number. -/
def Block.scrGet (b : Block) (part off n : Nat) : Nat := ofBytes ((List.range n).map fun i => b.scrByte part (off + i))

/-- Writes the low `n` bytes of `x` to scratch. -/
def Block.scrSet (b : Block) (part off n x : Nat) : Block :=
  { b with scr := ((toBytes n x).zipIdx).foldl (fun t (v, i) => Tab.put t (scrKey part (off + i)) v) b.scr }

def scrGet (s : State) (blk part off n : Nat) : Nat := (s.blkD blk).scrGet part off n
def scrPut (s : State) (blk part off n x : Nat) : State := s.updBlk blk fun b => b.scrSet part off n x

/-! ## Tile slots in scratch (R320) -/

/-- A word, a 64-bit value and a field of a command's descriptor. -/
def Cmd.w (k : Cmd) (off : Nat) : Nat := (k.desc.getD (off / 4) 0).toNat
def Cmd.d (k : Cmd) (off : Nat) : Nat := k.w off + 2 ^ 32 * k.w (off + 4)
def Cmd.b (k : Cmd) (off hi lo : Nat) : Nat := bitsOf (k.w off) hi lo

/-- Render pass geometry (R317 to R320): samples, tile edge, bytes of a depth, and of a colour sample. -/
def Cmd.samples (k : Cmd) : Nat := 2 ^ k.b 0 25 24
def Cmd.edge (k : Cmd) : Nat := 16 * 2 ^ k.b 0 23 22
def Cmd.ncolor (k : Cmd) : Nat := k.b 0 21 18
def Cmd.depthBytes (k : Cmd) : Nat := if k.b 0 17 16 == 1 then 4 else if k.b 0 17 16 == 2 then 2 else 0
def Cmd.cfmt (k : Cmd) (i : Nat) : Nat := k.b (0x10C + 32 * i) 2 0
def cfmtBytes (n : Nat) : Nat := if n == 1 then 8 else if n == 3 then 16 else 4
def Cmd.colourBytes (k : Cmd) (i : Nat) : Nat := cfmtBytes (k.cfmt i)
/-- The tile slot size (R320). -/
def Cmd.slotSize (k : Cmd) : Nat :=
  k.edge * k.edge * k.samples * (k.depthBytes + 4 + ((List.range k.ncolor).map k.colourBytes).foldl (· + ·) 0)

/-- Rounds up to a multiple. -/
def roundUp (n m : Nat) : Nat := (n + m - 1) / m * m

/-- Offset of a tile slot in the scratch of a resolve group: the region starts at SCRATCH rounded up to 4 KiB (R320). -/
def Cmd.slotOff (k : Cmd) (slot : Nat) : Nat := roundUp (k.b 0x8C 20 0) 4096 + slot * k.slotSize

/-- Key of a word of a colour sample. -/
def colourKey (smp tgt wd : Nat) : Nat := 32 * smp + 4 * tgt + wd

/-- A tile whose slot software has written: its depth, visibility and colour are free words (R320, notes/assumptions 119). -/
def TileSt.spoil (k : Cmd) (seed : Nat) (t : TileSt) : TileSt :=
  let n := k.edge * k.edge * k.samples
  let word := fun (i : Nat) => (i, Config.freeWord (seed + i))
  { t with depth := (List.range n).map word, vis := (List.range n).map fun i => (i, Config.freeWord (seed + n + i)),
           colour := (List.range (32 * n)).map fun i => (i, Config.freeWord (seed + 2 * n + i)) }

/-- A store to scratch bytes that lie in a tile slot of a resolve group spoils the tile (R237, R320). -/
def spoilTiles (s : State) (blk off n : Nat) : State :=
  let b := s.blkD blk
  let k := s.cmdD b.cmd
  let hit := fun (t : TileSt) =>
    t.grp == blk && 1 ≤ t.st && t.st ≤ 3 && off < k.slotOff t.slot + k.slotSize && k.slotOff t.slot < off + n
  if b.stage != 3 || !(k.pass.any fun p => p.tiles.any fun (_, t) => hit t) then s
  else
    let s' := s.updCmd b.cmd fun k => { k with pass := k.pass.map fun p =>
      { p with tiles := Tab.mapV p.tiles fun _ t => if hit t then t.spoil k s.freeCount else t } }
    { s' with freeCount := s.freeCount + 2 ^ 24 }

/-- The device changes a tile slot of a group: its bytes are free until something writes them. -/
def refreshSlot (s : State) (k : Cmd) (blk slot : Nat) : State :=
  let off := k.slotOff slot
  let s' := s.updBlk blk fun b =>
    { b with scr := b.scr.filter fun e => !(decide (off ≤ e.1) && decide (e.1 < off + k.slotSize)),
             regions := (off, k.slotSize, s.freeCount) :: b.regions.filter fun r => r.1 != off }
  { s' with freeCount := s.freeCount + 2 ^ 24 }

/-- Writes the low `n` bytes of `x` to scratch of a block. -/
def scrSet (s : State) (blk part off n x : Nat) : State := scrPut (spoilTiles s blk off n) blk part off n x

/-- Part and offset of a scratch address. -/
def partOf (a : Nat) : Nat := bitsOf a 23 21
def offOf (a : Nat) : Nat := bitsOf a 20 0

/-- The checks of R237: MISALIGN, then PERM. `own` demands the wave's own part. -/
def scrCheck (s : State) (w : Wave) (a size align : Nat) (own : Bool) : Eff Unit := do
  let b := s.blkD w.blk
  if a % align != 0 then .error (.trap misalign 0 a)
  else if w.control || a / 2 ^ 24 != 0 || b.cores.length ≤ partOf a || b.scrSize < offOf a + size ||
      (own && partOf a != w.part) then .error (.trap perm 0 a)
  else .ok ()

/-- An operation that accesses scratch of a part for its wave and has not yet done so (R200, R290). -/
def scrPending (part : Nat) (o : Op) : Bool :=
  !o.done && (o.kind == .accst || (o.scr && (o.kind == .load || o.kind == .store))) && o.accs.any fun a => partOf a.va == part

/-- An earlier scratch access of the wave to the part is outstanding; operations are numbered in issue order (R200). -/
def scrEarlier (s : State) (wid part before : Nat) : Bool :=
  s.ops.any fun (k, o) => k < before && o.wid == wid && scrPending part o

/-- An earlier scratch store of the wave is outstanding, `accst` included (R188, R196, R254, R261, R290). -/
def scrStoresOut (s : State) (wid before : Nat) : Bool :=
  s.ops.any fun (k, o) => k < before && o.wid == wid && (o.kind == .accst || (o.kind == .store && o.scr)) && !o.done

end Sys2Proof.Machine
end

