-- ==== Sys2Proof/Machine/Flags.lean ====
section
/-! DEFINITION. Exception flags (R84, R85): their bits, and a computation's flags beside its result. -/

namespace Sys2Proof.Machine

open Sys2Proof

/-! ## Bits of fflags (R84) -/

def flNX : Nat := 1
def flUF : Nat := 2
def flOF : Nat := 4
def flDZ : Nat := 8
def flNV : Nat := 16
def flSP : Nat := 32

/-- Joins the flags of two computations (R85). -/
def orFlags (a b : Nat) : Nat := a ||| b

/-- Flags with NV where raised. -/
def withNV (nv : Bool) (r : Nat × Nat) : Nat × Nat := (r.1, r.2 ||| (if nv then flNV else 0))

end Sys2Proof.Machine
end

