-- ==== Sys2Proof/Machine/Num.lean ====
section
/-! DEFINITION. Number formats, exact arithmetic and rounding (R68 to R84, R90): a finite value is a sign, a magnitude
and a power of two; results are rounded once. -/

namespace Sys2Proof.Machine

open Sys2Proof

/-! ## Formats (R68) -/

/-- What an all-ones exponent means. -/
inductive FKind where
  | ieee | e4m3 | e2m1
  deriving DecidableEq, Repr

/-- A floating-point format: exponent and fraction widths, bias. -/
structure Fmt where
  ew : Nat
  mw : Nat
  bias : Nat
  kind : FKind := .ieee
  deriving DecidableEq, Repr

def FP64 : Fmt := { ew := 11, mw := 52, bias := 1023 }
def FP32 : Fmt := { ew := 8, mw := 23, bias := 127 }
def FP16 : Fmt := { ew := 5, mw := 10, bias := 15 }
def BF16 : Fmt := { ew := 8, mw := 7, bias := 127 }
def E4M3 : Fmt := { ew := 4, mw := 3, bias := 7, kind := .e4m3 }
def E5M2 : Fmt := { ew := 5, mw := 2, bias := 15 }
def E2M1 : Fmt := { ew := 2, mw := 1, bias := 1, kind := .e2m1 }

/-- Width in bits. -/
def Fmt.width (F : Fmt) : Nat := 1 + F.ew + F.mw
/-- The exponent of the smallest normal number. -/
def Fmt.emin (F : Fmt) : Int := 1 - (F.bias : Int)

/-- The largest finite magnitude as a multiple of a power of two. -/
def Fmt.maxFin (F : Fmt) : Nat × Int := match F.kind with
  | .ieee => (2 ^ (F.mw + 1) - 1, (2 ^ F.ew - 2 : Int) - F.bias - F.mw)
  | .e4m3 => (14, 5)
  | .e2m1 => (3, 1)

/-- The bits of the largest finite magnitude. -/
def Fmt.maxBits (F : Fmt) : Nat := match F.kind with
  | .ieee => (2 ^ F.ew - 1) * 2 ^ F.mw - 1
  | .e4m3 => 0x7E
  | .e2m1 => 0x7

/-- The canonical quiet NaN (R72); E2M1 has none and delivers +0 (R81). -/
def Fmt.nan (F : Fmt) : Nat := match F.kind with
  | .ieee => (2 ^ F.ew - 1) * 2 ^ F.mw + 2 ^ (F.mw - 1)
  | .e4m3 => 0x7F
  | .e2m1 => 0

/-- The sign bit in place. -/
def Fmt.sign (F : Fmt) (neg : Bool) : Nat := if neg then 2 ^ (F.ew + F.mw) else 0

/-- Infinity of a sign, in a format that has one. -/
def Fmt.inf (F : Fmt) (neg : Bool) : Nat := F.sign neg + (2 ^ F.ew - 1) * 2 ^ F.mw

/-- A value: a NaN (signalling or quiet), an infinity, or (−1)^neg × m × 2^e. -/
inductive FV where
  | nan (sig : Bool)
  | inf (neg : Bool)
  | num (neg : Bool) (m : Nat) (e : Int)
  deriving DecidableEq, Repr

/-- The value of the bits of a format (R68, R69). -/
def unpack (F : Fmt) (x : Nat) : FV :=
  let neg := x / 2 ^ (F.ew + F.mw) % 2 == 1
  let e := x / 2 ^ F.mw % 2 ^ F.ew
  let m := x % 2 ^ F.mw
  let fin := if e == 0 then FV.num neg m (F.emin - F.mw)
    else FV.num neg (m + 2 ^ F.mw) ((e : Int) - F.bias - F.mw)
  if e == 2 ^ F.ew - 1 then
    match F.kind with
    | .ieee => if m == 0 then .inf neg else .nan (m / 2 ^ (F.mw - 1) % 2 == 0)
    | .e4m3 => if m == 7 then .nan false else fin
    | .e2m1 => fin
  else fin

def FV.isNan (v : FV) : Bool := match v with
  | .nan _ => true
  | _ => false
def FV.isSig (v : FV) : Bool := match v with
  | .nan s => s
  | _ => false
def FV.isNeg (v : FV) : Bool := match v with
  | .nan _ => false
  | .inf n => n
  | .num n _ _ => n
def FV.neg (v : FV) : FV := match v with
  | .nan s => .nan s
  | .inf n => .inf !n
  | .num n m e => .num (!n) m e
def FV.isZero (v : FV) : Bool := match v with
  | .num _ m _ => m == 0
  | _ => false

/-! ## Rounding (R78 to R82) -/

/-- Rounding modes: 0 RNE, 1 RTZ, 2 RDN, 3 RUP (R75). Whether the magnitude is rounded up, given its last bit, and the
rest compared with one half: 0 none, 1 below, 2 half, 3 above. -/
def roundsUp (rnd : Nat) (neg : Bool) (odd : Bool) (rest : Nat) : Bool :=
  if rest == 0 then false
  else if rnd == 0 then rest == 3 || (rest == 2 && odd)
  else if rnd == 1 then false
  else if rnd == 2 then neg
  else !neg

/-- A magnitude m × 2^e rounded to a multiple of 2^q: the multiple, and whether it differs. -/
def quantize (rnd : Nat) (neg : Bool) (m : Nat) (e q : Int) : Nat × Bool :=
  if q ≤ e then (m * 2 ^ (e - q).toNat, false)
  else
    let s := (q - e).toNat
    let n := m / 2 ^ s
    let r := m % 2 ^ s
    let rest := if r == 0 then 0 else if 2 * r < 2 ^ s then 1 else if 2 * r == 2 ^ s then 2 else 3
    (if roundsUp rnd neg (n % 2 == 1) rest then n + 1 else n, r != 0)

/-- The exponent of the leading bit of m × 2^e. -/
def topExp (m : Nat) (e : Int) : Int := (Nat.log2 m : Int) + e

/-- m × 2^e exceeds n × 2^f. -/
def above (m : Nat) (e : Int) (n : Nat) (f : Int) : Bool :=
  let k := min e f
  n * 2 ^ (f - k).toNat < m * 2 ^ (e - k).toNat

/-- The bits of an overflow (R79, R80). -/
def overflowBits (F : Fmt) (rnd : Nat) (sat neg : Bool) : Nat :=
  if sat || F.kind == .e2m1 then F.sign neg + F.maxBits
  else if rnd == 0 || (rnd == 2 && neg) || (rnd == 3 && !neg) then
    match F.kind with
    | .e4m3 => F.nan
    | _ => F.inf neg
  else F.sign neg + F.maxBits

/-- The bits of m × 2^q, no larger than the largest finite value, m below 2^(mw + 1). -/
def encodeFin (F : Fmt) (neg : Bool) (m : Nat) (q : Int) : Nat :=
  F.sign neg + (if m < 2 ^ F.mw then m else ((q - (F.emin - F.mw)).toNat * 2 ^ F.mw + m))

/-- Round(F, ±m × 2^e) for m ≠ 0: bits and flags (R78 to R82). -/
def roundFin (F : Fmt) (rnd : Nat) (sat neg : Bool) (m : Nat) (e : Int) : Nat × Nat :=
  let q := max (topExp m e) F.emin - F.mw
  let (n, inexact) := quantize rnd neg m e q
  let (mx, eq) := F.maxFin
  if n == 0 then (F.sign neg, flNX + flUF)
  else if above n q mx eq then (overflowBits F rnd sat neg, flOF + flNX)
  else
    let (n', q') := if n == 2 ^ (F.mw + 1) then (2 ^ F.mw, q + 1) else (n, q)
    let tiny :=
      let (k, _) := quantize rnd neg m e (topExp m e - F.mw)
      topExp k (topExp m e - F.mw) < F.emin
    (encodeFin F neg n' q', (if inexact then flNX else 0) + (if inexact && tiny then flUF else 0))

/-- Round of any value, with the special results of R72 and R81: `sat` acts on an overflow, `infSat` on an infinite
operand of a conversion to E4M3. -/
def roundV (F : Fmt) (rnd : Nat) (sat infSat : Bool) (v : FV) : Nat × Nat := match v with
  | .nan sig => if F.kind == .e2m1 then (0, flNV) else (F.nan, if sig then flNV else 0)
  | .inf neg => match F.kind with
    | .ieee => (F.inf neg, 0)
    | .e4m3 => (if infSat then F.sign neg + F.maxBits else F.nan, flNV)
    | .e2m1 => (F.sign neg + F.maxBits, flNV)
  | .num neg m e => if m == 0 then (F.sign neg, 0) else roundFin F rnd sat neg m e

/-! ## Exact sums and products (R73, R86, R90) -/

/-- A product: 0 × ∞ is invalid. The result says whether it raised NV. -/
def fmulX (a b : FV) : FV × Bool :=
  if a.isNan || b.isNan then (.nan false, a.isSig || b.isSig)
  else
    let s := a.isNeg != b.isNeg
    match a, b with
    | .num _ m e, .num _ n f => (.num s (m * n) (e + f), false)
    | _, _ => if a.isZero || b.isZero then (.nan false, true) else (.inf s, false)

/-- The signed integer value of a term over 2^k. -/
def FV.over (v : FV) (k : Int) : Int := match v with
  | .num neg m e => (if neg then -1 else 1) * ((m * 2 ^ (e - k).toNat : Nat) : Int)
  | _ => 0

/-- ExactSum of terms under a rounding mode (for the sign of a zero). -/
def sumX (rnd : Nat) (ts : List FV) : FV × Bool :=
  let p := ts.any fun t => t == .inf false
  let n := ts.any fun t => t == .inf true
  if ts.any FV.isNan then (.nan false, ts.any FV.isSig || (p && n))
  else
    if p && n then (.nan false, true)
    else if p then (.inf false, false)
    else if n then (.inf true, false)
    else
      let k := ts.foldl (fun k t => match t with
        | .num _ m e => if m == 0 then k else min k e
        | _ => k) (0 : Int)
      let x := ts.foldl (fun a t => if t.isZero then a else a + t.over k) (0 : Int)
      if x == 0 then
        let allNeg := ts.all fun t => t.isZero && t.isNeg
        (.num (allNeg || rnd == 2) 0 0, false)
      else (.num (x < 0) x.natAbs k, false)

/-- Rounds an exact result, keeping whether it was invalid. -/
def roundX (F : Fmt) (rnd : Nat) (r : FV × Bool) : Nat × Nat := withNV r.2 (roundV F rnd false false r.1)

/-- a + b, a − b, a × b, a × b + c in a format (R174). -/
def fadd (F : Fmt) (rnd a b : Nat) : Nat × Nat := roundX F rnd (sumX rnd [unpack F a, unpack F b])
def fsub (F : Fmt) (rnd a b : Nat) : Nat × Nat := roundX F rnd (sumX rnd [unpack F a, (unpack F b).neg])
def fmul (F : Fmt) (rnd a b : Nat) : Nat × Nat := roundX F rnd (fmulX (unpack F a) (unpack F b))
def ffma (F : Fmt) (rnd a b c : Nat) : Nat × Nat :=
  let (p, nv) := fmulX (unpack F a) (unpack F b)
  let (x, nv') := sumX rnd [p, unpack F c]
  roundX F rnd (x, nv || nv' || (unpack F c).isSig)

/-- A quotient of magnitudes with a sticky last bit, precise enough for any format. -/
def divMag (m n : Nat) : Nat × Int :=
  let q := m * 2 ^ 160 / n
  if m * 2 ^ 160 % n == 0 then (q, -160) else (2 * q + 1, -161)

/-- a / b (R174). -/
def fdiv (F : Fmt) (rnd a b : Nat) : Nat × Nat :=
  let x := unpack F a
  let y := unpack F b
  if x.isNan || y.isNan then (F.nan, if x.isSig || y.isSig then flNV else 0)
  else
    let s := x.isNeg != y.isNeg
    match x, y with
    | .num _ m e, .num _ n f =>
      if n == 0 then (if m == 0 then (F.nan, flNV) else (F.inf s, flDZ))
      else if m == 0 then (F.sign s, 0)
      else
        let (q, k) := divMag m n
        roundFin F rnd false s q (e - f + k)
    | .inf _, .num _ _ _ => (F.inf s, 0)
    | .num _ _ _, _ => (F.sign s, 0)
    | _, _ => (F.nan, flNV)

/-- The integer square root, bit by bit from bit `n`. -/
def isqrt : Nat → Nat → Nat → Nat
  | 0, r, x => if (r + 1) * (r + 1) ≤ x then r + 1 else r
  | n + 1, r, x => isqrt n (if (r + 2 ^ (n + 1)) * (r + 2 ^ (n + 1)) ≤ x then r + 2 ^ (n + 1) else r) x

/-- √a (R175). -/
def fsqrt (F : Fmt) (rnd a : Nat) : Nat × Nat := match unpack F a with
  | .nan sig => (F.nan, if sig then flNV else 0)
  | .inf neg => if neg then (F.nan, flNV) else (F.inf false, 0)
  | .num neg m e =>
    if m == 0 then (F.sign neg, 0)
    else if neg then (F.nan, flNV)
    else
      let (m, e) := if e % 2 == 0 then (m, e) else (2 * m, e - 1)
      let x := m * 2 ^ 128
      let r := isqrt 100 0 x
      let (r, k) := if r * r == x then (r, (0 : Int)) else (2 * r + 1, -1)
      roundFin F rnd false false r (e / 2 - 64 + k)

/-! ## Comparison, minimum, maximum, class (R74, R91, R173, R176) -/

/-- −1, 0, 1 for two values that are not NaN; −0 equals +0. -/
def fcmp (a b : FV) : Int := match a, b with
  | .num n m e, .num n' m' e' =>
    let k := min e e'
    let x := (FV.num n m e).over k
    let y := (FV.num n' m' e').over k
    if x < y then -1 else if x == y then 0 else 1
  | .inf n, .inf n' => if n == n' then 0 else if n then -1 else 1
  | .inf n, _ => if n then -1 else 1
  | _, .inf n => if n then 1 else -1
  | _, _ => 0

/-- a is less than b where −0 counts as less than +0. -/
def fless (a b : FV) : Bool := fcmp a b < 0 || (fcmp a b == 0 && a.isNeg && !b.isNeg)

/-- MinNum, or MaxNum for `hi` (R74). -/
def minMaxNum (F : Fmt) (hi : Bool) (a b : Nat) : Nat × Nat :=
  let x := unpack F a
  let y := unpack F b
  let fl := if x.isSig || y.isSig then flNV else 0
  if x.isNan && y.isNan then (F.nan, fl)
  else if x.isNan then (b, fl)
  else if y.isNan then (a, fl)
  else if hi then (if fless x y then b else a, fl)
  else (if fless y x then b else a, fl)

/-- Min or Max of a semiring cell: a NaN gives the canonical NaN (R91). -/
def cellMinMax (F : Fmt) (hi : Bool) (a b : Nat) : Nat :=
  let x := unpack F a
  let y := unpack F b
  if x.isNan || y.isNan then F.nan
  else if hi then (if fless x y then b else a)
  else (if fless y x then b else a)

/-- Comparisons 0 eq, 1 ne, 2 lt, 3 le, and their flags (R173). -/
def fcompare (F : Fmt) (cc a b : Nat) : Bool × Nat :=
  let x := unpack F a
  let y := unpack F b
  let fl := if x.isSig || y.isSig then flNV else 0
  if x.isNan || y.isNan then (cc == 1, fl)
  else
    let c := fcmp x y
    (if cc == 0 then c == 0 else if cc == 1 then c != 0 else if cc == 2 then c < 0 else c ≤ 0, fl)

/-- The class mask of R176. -/
def fclass (F : Fmt) (a : Nat) : Nat := match unpack F a with
  | .nan sig => if sig then 2 ^ 8 else 2 ^ 9
  | .inf neg => if neg then 1 else 2 ^ 7
  | .num neg m e =>
    if m == 0 then (if neg then 2 ^ 3 else 2 ^ 4)
    else if topExp m e < F.emin then (if neg then 2 ^ 2 else 2 ^ 5)
    else if neg then 2 ^ 1 else 2 ^ 6

/-- |a| or −a: a NaN becomes canonical, no flag (R175). -/
def fsignop (F : Fmt) (negate : Bool) (a : Nat) : Nat :=
  if (unpack F a).isNan then F.nan
  else
    let mag := a % 2 ^ (F.ew + F.mw)
    if negate then (if a / 2 ^ (F.ew + F.mw) % 2 == 1 then mag else mag + F.sign true) else mag

/-- The integer a magnitude rounds to. -/
def roundInt (rnd : Nat) (neg : Bool) (m : Nat) (e : Int) : Nat × Bool := quantize rnd neg m e 0

/-- `vrnd` (R175). -/
def fround (F : Fmt) (rnd a : Nat) : Nat × Nat := match unpack F a with
  | .nan sig => (F.nan, if sig then flNV else 0)
  | .inf neg => (F.inf neg, 0)
  | .num neg m e =>
    let (n, _) := roundInt rnd neg m e
    if n == 0 then (F.sign neg, 0) else ((roundFin F 1 false neg n 0).1, 0)

/-- `vfrac` (R175): a − Floor(a). -/
def ffrac (rnd a : Nat) : Nat × Nat := match unpack FP32 a with
  | .nan sig => (FP32.nan, if sig then flNV else 0)
  | .inf _ => (FP32.nan, flNV)
  | .num neg m e =>
    let (n, _) := roundInt 2 neg m e
    let (x, _) := sumX 0 [.num neg m e, .num (!neg) n 0]
    match x with
    | .num _ k f => if k == 0 then (0, 0) else roundFin FP32 rnd false false k f
    | _ => (FP32.nan, 0)

/-! ## Conversions (R80, R81, R83, R178) -/

/-- The narrowing conversions of R80. -/
def narrowing (D S : Fmt) : Bool :=
  if S = FP64 then D = FP32 || D = FP16 || D = BF16
  else if S = FP32 then D = FP16 || D = BF16 || D.width ≤ 8
  else if S = FP16 || S = BF16 then D.width ≤ 8
  else false

/-- A conversion between floating-point formats; SAT acts on the overflow of narrowing ones (R80, R81). -/
def cvtFF (D S : Fmt) (rnd : Nat) (sat : Bool) (x : Nat) : Nat × Nat :=
  roundV D rnd (sat && narrowing D S) sat (unpack S x)

/-- The value clamped to `n` bits, signed or not, and whether it fitted. -/
def clampInt (n : Nat) (sg : Bool) (x : Int) : Int × Bool :=
  let lo : Int := if sg then -(2 ^ (n - 1) : Nat) else 0
  let hi : Int := if sg then (2 ^ (n - 1) : Nat) - 1 else (2 ^ n : Nat) - 1
  if x < lo then (lo, false) else if hi < x then (hi, false) else (x, true)

/-- Floating point to an integer of `n` bits (R81, R83). -/
def cvtIF (n : Nat) (sg : Bool) (S : Fmt) (rnd x : Nat) : Nat × Nat := match unpack S x with
  | .nan _ => (0, flNV)
  | .inf neg => (wrap n (clampInt n sg (if neg then -(2 ^ 70 : Nat) else (2 ^ 70 : Nat))).1, flNV)
  | .num neg m e =>
    let (k, inexact) := roundInt rnd neg m e
    let v : Int := if neg then -(k : Int) else k
    let (c, ok) := clampInt n sg v
    (wrap n c, if !ok then flNV else if inexact then flNX else 0)

/-- An integer to floating point (R178). -/
def cvtFI (D : Fmt) (rnd : Nat) (x : Int) : Nat × Nat :=
  if x == 0 then (0, 0) else roundFin D rnd false (x < 0) x.natAbs 0

end Sys2Proof.Machine
end

