-- ==== Sys2Proof/Machine/Approx.lean ====
section
/-! DEFINITION. The approximating functions (R177). The result of a function is free within its bound: the candidate
of Config.approx where that lies within the bound of a reference value, else the reference rounded. References are
fixed-point numbers with 256 fraction bits (notes/assumptions 7). -/

namespace Sys2Proof.Machine

open Sys2Proof

/-- Fraction bits of the references. -/
def fb : Nat := 256
/-- One in fixed point. -/
def one : Int := (2 ^ fb : Nat)
/-- Product in fixed point. -/
def fxMul (x y : Int) : Int := x * y / one

/-- m × 2^e in fixed point, truncated. -/
def toFx (neg : Bool) (m : Nat) (e : Int) : Int :=
  let s := e + fb
  let x : Int := if 0 ≤ s then (m * 2 ^ s.toNat : Nat) else (m / 2 ^ (-s).toNat : Nat)
  if neg then -x else x

/-- Σ x^k / k! from k on, by `n` terms; `t` is the term before. -/
def expTerms : Nat → Nat → Int → Int → Int → Int
  | 0, _, _, _, acc => acc
  | n + 1, k, x, t, acc =>
    let t' := fxMul t x / (k : Int)
    expTerms n (k + 1) x t' (acc + t')
/-- e^x − 1, |x| at most 1. -/
def expm1 (x : Int) : Int := expTerms 60 1 x one 0

/-- Doubles the argument of e^x − 1 `n` times. -/
def expm1Double : Nat → Int → Int
  | 0, y => y
  | n + 1, y => expm1Double n (2 * y + fxMul y y)

/-- Bits of log2 of a number in [1, 2) in fixed point, by squaring. -/
def log2Bits : Nat → Int → Int → Int → Int
  | 0, _, _, acc => acc
  | n + 1, y, w, acc =>
    let y := fxMul y y
    if 2 * one ≤ y then log2Bits n (y / 2) (w / 2) (acc + w) else log2Bits n y (w / 2) acc

/-- log2 (m × 2^e) for m > 0. -/
def log2Fx (m : Nat) (e : Int) : Int :=
  let k := topExp m e
  k * one + log2Bits 120 (toFx false m (e - k)) (one / 2) 0

/-- arctan (1 / n) by its series. -/
def atanTerms : Nat → Nat → Int → Int → Int → Int
  | 0, _, _, _, acc => acc
  | i + 1, k, n2, t, acc => atanTerms i (k + 2) n2 (-(t / n2)) (acc + t / (k : Int))
def atanInv (n : Int) : Int := atanTerms 120 1 (n * n) (one / n) 0
/-- π. -/
def piFx : Int := 4 * (4 * atanInv 5 - atanInv 239)
/-- ln 2 = 18 artanh (1/26) − 2 artanh (1/4801) + 8 artanh (1/8749), each by its series. -/
def artanhTerms : Nat → Nat → Int → Int → Int → Int
  | 0, _, _, _, acc => acc
  | i + 1, k, n2, t, acc => artanhTerms i (k + 2) n2 (t / n2) (acc + t / (k : Int))
def artanhInv (n : Int) : Int := artanhTerms 60 1 (n * n) (one / n) 0
def ln2Fx : Int := 18 * artanhInv 26 - 2 * artanhInv 4801 + 8 * artanhInv 8749

/-- Σ of the sine series from its first term, argument within ±4. -/
def sinTerms : Nat → Nat → Int → Int → Int → Int
  | 0, _, _, _, acc => acc
  | i + 1, k, x2, t, acc =>
    let t' := -(fxMul t x2) / (((k + 1) * (k + 2) : Nat) : Int)
    sinTerms i (k + 2) x2 t' (acc + t')
def sinFx (x : Int) : Int := sinTerms 40 1 (fxMul x x) x x
def cosFx (x : Int) : Int := sinTerms 40 0 (fxMul x x) one one

/-- The value of FP32 bits in fixed point. -/
def bitsFx (b : Nat) : Option Int := match unpack FP32 b with
  | .num neg m e => some (toFx neg m e)
  | _ => none

/-- An ulp of FP32 at a magnitude, in fixed point. -/
def ulpFx (x : Int) : Int :=
  let k := (Nat.log2 x.natAbs : Int) - fb
  (2 ^ (max (k - 23) (-149) + fb).toNat : Nat)

/-- The reference rounded to FP32, never above the largest finite value. -/
def refBits (x : Int) : Nat := if x == 0 then 0 else (roundFin FP32 0 false (x < 0) x.natAbs (-(fb : Int))).1

/-- The candidate where it is within `bound` of the reference, else the reference. -/
def within (f a : Nat) (ref bound : Int) : Nat :=
  let c := Config.approx f a % 2 ^ 32
  match bitsFx c with
  | some y => if -bound ≤ y - ref && y - ref ≤ bound then c else refBits ref
  | none => refBits ref

/-- The overflow threshold of FP32 in fixed point (R177). -/
def overFx : Int := ((2 ^ 25 - 1 : Nat) * 2 ^ (103 + fb) : Nat)

/-- A finite result with a relative bound of `n` ulp, or infinity with OF. -/
def approxUlp (f a n : Nat) (ref : Int) : Nat × Nat :=
  if overFx ≤ ref.natAbs then (FP32.inf (ref < 0), flOF) else (within f a ref (n * ulpFx ref), 0)

/-- `vrcp`. The quotient is exact to the last fraction bit. -/
def fxRcp (neg : Bool) (m : Nat) (e : Int) : Int :=
  let q : Int := (2 ^ (2 * fb) : Nat) / (m : Int)
  let x := if 0 ≤ e + fb then q / (2 ^ (e + fb).toNat : Nat) else q * (2 ^ (-(e + fb)).toNat : Nat)
  if neg then -x else x

/-- 2^x for x in fixed point below 129. -/
def exp2Fx (x : Int) : Int :=
  let n := x / one
  let y := one + expm1 (fxMul (x - n * one) ln2Fx)
  if 0 ≤ n then y * (2 ^ n.toNat : Nat) else y / (2 ^ (-n).toNat : Nat)

/-- An approximating function of VFX number `f` on FP32 bits: result and flags. -/
def approxFn (f a : Nat) : Nat × Nat := match unpack FP32 a with
  | .nan sig => (FP32.nan, if sig then flNV else 0)
  | .inf neg =>
    if f == 6 then (FP32.sign neg, 0)
    else if f == 7 then (if neg then (FP32.nan, flNV) else (0, 0))
    else if f == 8 then (if neg then 0 else FP32.inf false, 0)
    else if f == 9 then (if neg then (FP32.nan, flNV) else (FP32.inf false, 0))
    else if f == 12 then (FP32.sign neg + 0x3F800000, 0)
    else (FP32.nan, flNV)
  | .num neg m e =>
    if f == 6 then (if m == 0 then (FP32.inf neg, flDZ) else approxUlp f a 1 (fxRcp neg m e))
    else if f == 7 then
      if m == 0 then (FP32.inf neg, flDZ)
      else if neg then (FP32.nan, flNV)
      else
        let (m, e) := if e % 2 == 0 then (m, e) else (2 * m, e - 1)
        let r : Int := (isqrt 515 0 (2 ^ (4 * fb) / m) : Nat)
        let k := e / 2 + fb
        approxUlp f a 1 (if 0 ≤ k then r / (2 ^ k.toNat : Nat) else r * (2 ^ (-k).toNat : Nat))
    else if f == 8 then
      if m == 0 then (within f a one (2 * ulpFx one), 0)
      else if 8 ≤ topExp m e then (if neg then (within f a 0 (2 * ulpFx 1), 0) else (FP32.inf false, flOF))
      else approxUlp f a 2 (exp2Fx (toFx neg m e))
    else if f == 9 then
      if m == 0 then (FP32.inf true, flDZ)
      else if neg then (FP32.nan, flNV)
      else
        let r := log2Fx m e
        if r == 0 then (0, 0)
        else if -one ≤ r && r ≤ one then (within f a r (one / 2 ^ 22), 0)
        else (within f a r (ulpFx r), 0)
    else if f == 10 || f == 11 then
      if f == 10 && m == 0 then (FP32.sign neg, 0)
      else if 20 < topExp m e || (topExp m e == 20 && 2 ^ 20 * one < toFx false m e) then (within f a 0 one, 0)
      else
        let x := toFx neg m e
        let k := (x + piFx) / (2 * piFx)
        let y := x - k * (2 * piFx)
        (within f a (if f == 10 then sinFx y else cosFx y) (one / 2 ^ 22), 0)
    else
      if m == 0 then (FP32.sign neg, 0)
      else if 5 ≤ topExp m e then (within f a (if neg then -one else one) (2 * ulpFx (one - 1)), 0)
      else
        let x := 2 * toFx false m e
        let y := expm1Double 7 (expm1 (x / 128))
        let r := y * one / (y + 2 * one)
        (within f a (if neg then -r else r) (2 * ulpFx r), 0)

end Sys2Proof.Machine
end

