-- ==== Sys2Proof/Machine/Scalar.lean ====
section
/-! DEFINITION. Scalar arithmetic, logic, bit fields and immediates (R133 to R140). -/

namespace Sys2Proof.Machine

open Sys2Proof

/-- A three-operand scalar instruction (R135). -/
def scalar3 (d a b : BitVec 8) (s : State) (k : Nat → Nat → Nat) : Out :=
  scalarUnit 4 [{ fd := a.toNat }, { fd := b.toNat }] d.toNat 1 false s fun v => k (v.getD 0 0) (v.getD 1 0)

/-- A one-operand scalar instruction (R138). -/
def scalar1 (d a : BitVec 8) (s : State) (k : Nat → Nat) : Out :=
  scalarUnit 4 [{ fd := a.toNat }] d.toNat 1 false s fun v => k (v.getD 0 0)

/-- A 64-bit scalar instruction on even pairs (R139). -/
def scalar64 (d a b : BitVec 8) (s : State) (k : Nat → Nat → Nat) : Out :=
  scalarUnit 4 [{ fd := a.toNat, cnt := 2, pair := true }, { fd := b.toNat, cnt := 2, pair := true }] d.toNat 2 true s
    fun v => k (v.getD 0 0) (v.getD 1 0)

/-- A 64-bit shift, its count in one register (R139). -/
def scalarShift64 (d a b : BitVec 8) (s : State) (k : Nat → Nat → Nat) : Out :=
  scalarUnit 4 [{ fd := a.toNat, cnt := 2, pair := true }, { fd := b.toNat }] d.toNat 2 true s
    fun v => k (v.getD 0 0) (v.getD 1 0 % 64)

/-- 1 where a relation holds, else 0. -/
def truth (b : Bool) : Nat := if b then 1 else 0

/-- Leading zero bits of an `n`-bit number. -/
def clz : Nat → Nat → Nat
  | 0, _ => 0
  | n + 1, x => if x / 2 ^ n % 2 == 1 then 0 else 1 + clz n x

/-- Trailing zero bits of an `n`-bit number; `n` for zero. -/
def ctz : Nat → Nat → Nat
  | 0, _ => 0
  | n + 1, x => if x % 2 == 1 then 0 else 1 + ctz n (x / 2)

/-- Rotation left of a `w`-bit number. -/
def rotl (w x k : Nat) : Nat := (x * 2 ^ (k % w) + x / 2 ^ (w - k % w)) % 2 ^ w

/-- Arithmetic shift right of a `w`-bit number. -/
def sra (w x k : Nat) : Nat := wrap w (signed w x / (2 ^ k : Nat))

/-- Bit-field extraction (R137). -/
def bfe (a b : Nat) : Nat :=
  let off := b % 32
  let w := min (bitsOf b 13 8) (32 - off)
  let d := a / 2 ^ off % 2 ^ w
  if bitsOf b 16 16 == 1 && 0 < w then wrap 32 (signed w d) else d

/-- Bit-field insertion (R137). -/
def bfi (d a b : Nat) : Nat :=
  let off := b % 32
  let w := min (bitsOf b 13 8) (32 - off)
  if w == 0 then d else setBits d (off + w - 1) off a

/-- `sadd` (R135). -/
def execSadd (d a b : BitVec 8) (s : State) : Out :=
  scalar3 d a b s fun a b => a + b

/-- `ssub` (R135). -/
def execSsub (d a b : BitVec 8) (s : State) : Out :=
  scalar3 d a b s fun a b => a + (2 ^ 32 - b)

/-- `smul` (R135). -/
def execSmul (d a b : BitVec 8) (s : State) : Out :=
  scalar3 d a b s fun a b => a * b

/-- `smulh` (R135). -/
def execSmulh (d a b : BitVec 8) (s : State) : Out :=
  scalar3 d a b s fun a b => wrap 32 (signed 32 a * signed 32 b / (2 ^ 32 : Nat))

/-- `smulhu` (R135). -/
def execSmulhu (d a b : BitVec 8) (s : State) : Out :=
  scalar3 d a b s fun a b => a * b / 2 ^ 32

/-- `sand` (R135). -/
def execSand (d a b : BitVec 8) (s : State) : Out :=
  scalar3 d a b s fun a b => a &&& b

/-- `sor` (R135). -/
def execSor (d a b : BitVec 8) (s : State) : Out :=
  scalar3 d a b s fun a b => a ||| b

/-- `sxor` (R135). -/
def execSxor (d a b : BitVec 8) (s : State) : Out :=
  scalar3 d a b s fun a b => a ^^^ b

/-- `sandn` (R135). -/
def execSandn (d a b : BitVec 8) (s : State) : Out :=
  scalar3 d a b s fun a b => a &&& (2 ^ 32 - 1 - b)

/-- `sshl` (R135). -/
def execSshl (d a b : BitVec 8) (s : State) : Out :=
  scalar3 d a b s fun a b => a * 2 ^ (b % 32)

/-- `sshr` (R135). -/
def execSshr (d a b : BitVec 8) (s : State) : Out :=
  scalar3 d a b s fun a b => a / 2 ^ (b % 32)

/-- `ssra` (R135). -/
def execSsra (d a b : BitVec 8) (s : State) : Out :=
  scalar3 d a b s fun a b => sra 32 a (b % 32)

/-- `srot` (R135). -/
def execSrot (d a b : BitVec 8) (s : State) : Out :=
  scalar3 d a b s fun a b => rotl 32 a (b % 32)

/-- `smin` (R135). -/
def execSmin (d a b : BitVec 8) (s : State) : Out :=
  scalar3 d a b s fun a b => if signed 32 a ≤ signed 32 b then a else b

/-- `smax` (R135). -/
def execSmax (d a b : BitVec 8) (s : State) : Out :=
  scalar3 d a b s fun a b => if signed 32 a ≤ signed 32 b then b else a

/-- `sminu` (R135). -/
def execSminu (d a b : BitVec 8) (s : State) : Out :=
  scalar3 d a b s fun a b => min a b

/-- `smaxu` (R135). -/
def execSmaxu (d a b : BitVec 8) (s : State) : Out :=
  scalar3 d a b s fun a b => max a b

/-- `scmp.eq` (R135). -/
def execScmpEq (d a b : BitVec 8) (s : State) : Out :=
  scalar3 d a b s fun a b => truth (a == b)

/-- `scmp.ne` (R135). -/
def execScmpNe (d a b : BitVec 8) (s : State) : Out :=
  scalar3 d a b s fun a b => truth (a != b)

/-- `scmp.lt`, signed (R135). -/
def execScmpLt (d a b : BitVec 8) (s : State) : Out :=
  scalar3 d a b s fun a b => truth (signed 32 a < signed 32 b)

/-- `scmp.le`, signed (R135). -/
def execScmpLe (d a b : BitVec 8) (s : State) : Out :=
  scalar3 d a b s fun a b => truth (signed 32 a ≤ signed 32 b)

/-- `scmp.ltu` (R135). -/
def execScmpLtu (d a b : BitVec 8) (s : State) : Out :=
  scalar3 d a b s fun a b => truth (a < b)

/-- `scmp.leu` (R135). -/
def execScmpLeu (d a b : BitVec 8) (s : State) : Out :=
  scalar3 d a b s fun a b => truth (a ≤ b)

/-- `ssel`: d is the condition (R136). -/
def execSsel (d a b : BitVec 8) (s : State) : Out :=
  scalarUnit 4 [{ fd := a.toNat }, { fd := b.toNat }, { fd := d.toNat }] d.toNat 1 false s fun v =>
    if v.getD 2 0 == 0 then v.getD 1 0 else v.getD 0 0

/-- `sbfe` (R137). -/
def execSbfe (d a b : BitVec 8) (s : State) : Out :=
  scalar3 d a b s bfe

/-- `sbfi` reads d (R137). -/
def execSbfi (d a b : BitVec 8) (s : State) : Out :=
  scalarUnit 4 [{ fd := a.toNat }, { fd := b.toNat }, { fd := d.toNat }] d.toNat 1 false s fun v =>
    bfi (v.getD 2 0) (v.getD 0 0) (v.getD 1 0)

/-- `smov` (R138). -/
def execSmov (d a : BitVec 8) (s : State) : Out :=
  scalar1 d a s fun a => a

/-- `sabs` (R138). -/
def execSabs (d a : BitVec 8) (s : State) : Out :=
  scalar1 d a s fun a => wrap 32 (signed 32 a).natAbs

/-- `spopc` (R138). -/
def execSpopc (d a : BitVec 8) (s : State) : Out :=
  scalar1 d a s fun a => popc 32 a

/-- `sclz` (R138). -/
def execSclz (d a : BitVec 8) (s : State) : Out :=
  scalar1 d a s fun a => clz 32 a

/-- `sctz` (R138). -/
def execSctz (d a : BitVec 8) (s : State) : Out :=
  scalar1 d a s fun a => ctz 32 a

/-- `sffs` (R138). -/
def execSffs (d a : BitVec 8) (s : State) : Out :=
  scalar1 d a s fun a => if a == 0 then 0 else 1 + ctz 32 a

/-- `sadd64` (R139). -/
def execSadd64 (d a b : BitVec 8) (s : State) : Out :=
  scalar64 d a b s fun a b => a + b

/-- `ssub64` (R139). -/
def execSsub64 (d a b : BitVec 8) (s : State) : Out :=
  scalar64 d a b s fun a b => a + (2 ^ 64 - b)

/-- `smul64` (R139). -/
def execSmul64 (d a b : BitVec 8) (s : State) : Out :=
  scalar64 d a b s fun a b => a * b

/-- `sshl64` (R139). -/
def execSshl64 (d a b : BitVec 8) (s : State) : Out :=
  scalarShift64 d a b s fun a n => a * 2 ^ n

/-- `sshr64` (R139). -/
def execSshr64 (d a b : BitVec 8) (s : State) : Out :=
  scalarShift64 d a b s fun a n => a / 2 ^ n

/-- `sli`: the immediate, or under an IMM unit IMM_HI above it (R140). -/
def execSli (x : Ext) (d : BitVec 8) (i : BitVec 16) (s : State) : Out :=
  scalarUnit (extSize x) [] d.toNat 1 false s fun _ =>
    match x with
    | .imm hi => hi.toNat * 2 ^ 16 + i.toNat
    | _ => i.toNat

/-- `slih`: the high half of d; d is read (R140). -/
def execSlih (d : BitVec 8) (i : BitVec 16) (s : State) : Out :=
  issueUnit 4 true s fun s wid _ w f => do
    let g ← getOpnds s wid w f { sd := some (d.toNat, 1, false) }
    .ok (s.setWave wid (w.setS g.sd (setFld (w.sreg g.sd) 31 16 i.toNat)))

end Sys2Proof.Machine
end

