-- ==== Sys2Proof/Machine/VecInt.lean ====
section
/-! DEFINITION. Integer vector arithmetic, moves, selection and integer comparison (R106, R163 to R173). -/

namespace Sys2Proof.Machine

open Sys2Proof

/-- A V-layout instruction on single registers, operation on the lane's a and b (R167). -/
def vec3 (size : Nat) (d a b : Nat) (fa fb : Bool) (s : State) (k : Nat → Nat → Nat) : Out :=
  vecUnit size { v := [{ fd := a, tie := fa }, { fd := b, tie := fb }], vd := some (d, 1, false) } s fun _ v _ =>
    ([BitVec.ofNat 32 (k (v.getD 0 0) (v.getD 1 0))], 0)

/-- A V-layout instruction that also reads d. -/
def vec3d (d a b : BitVec 7) (fa fb : Bool) (s : State) (k : Nat → Nat → Nat → Nat) : Out :=
  vecUnit 4 { v := [{ fd := a.toNat, tie := fa }, { fd := b.toNat, tie := fb }, { fd := d.toNat }],
              vd := some (d.toNat, 1, false) } s fun _ v _ =>
    ([BitVec.ofNat 32 (k (v.getD 0 0) (v.getD 1 0) (v.getD 2 0))], 0)

/-- A unit that is no instruction in this form: ILLEGAL_OP (R123). -/
def illegalUnit (size : Nat) (s : State) : Out := issueUnit size true s fun _ _ _ _ _ => trap illegalOp

/-- The exact value clamped to 32 bits (R167). -/
def clamp32 (sg : Bool) (x : Int) : Nat :=
  let lo : Int := if sg then -(2 ^ 31 : Nat) else 0
  let hi : Int := if sg then (2 ^ 31 : Nat) - 1 else (2 ^ 32 : Nat) - 1
  wrap 32 (if x < lo then lo else if hi < x then hi else x)


/-- `vadd.i32` (R167). -/
def execVaddI32 (d a b : BitVec 7) (fa fb : Bool) (s : State) : Out :=
  vec3 4 d.toNat a.toNat b.toNat fa fb s fun a b => a + b

/-- `vsub.i32` (R167). -/
def execVsubI32 (d a b : BitVec 7) (fa fb : Bool) (s : State) : Out :=
  vec3 4 d.toNat a.toNat b.toNat fa fb s fun a b => a + (2 ^ 32 - b)

/-- `vmul.i32` (R167). -/
def execVmulI32 (d a b : BitVec 7) (fa fb : Bool) (s : State) : Out :=
  vec3 4 d.toNat a.toNat b.toNat fa fb s fun a b => a * b

/-- `vmulh.i32` (R167). -/
def execVmulhI32 (d a b : BitVec 7) (fa fb : Bool) (s : State) : Out :=
  vec3 4 d.toNat a.toNat b.toNat fa fb s fun a b => wrap 32 (signed 32 a * signed 32 b / (2 ^ 32 : Nat))

/-- `vmulh.ui32` (R167). -/
def execVmulhUi32 (d a b : BitVec 7) (fa fb : Bool) (s : State) : Out :=
  vec3 4 d.toNat a.toNat b.toNat fa fb s fun a b => a * b / 2 ^ 32

/-- `vaddsat.i32` (R167). -/
def execVaddsatI32 (d a b : BitVec 7) (fa fb : Bool) (s : State) : Out :=
  vec3 4 d.toNat a.toNat b.toNat fa fb s fun a b => clamp32 true (signed 32 a + signed 32 b)

/-- `vaddsat.ui32` (R167). -/
def execVaddsatUi32 (d a b : BitVec 7) (fa fb : Bool) (s : State) : Out :=
  vec3 4 d.toNat a.toNat b.toNat fa fb s fun a b => clamp32 false (a + b)

/-- `vsubsat.i32` (R167). -/
def execVsubsatI32 (d a b : BitVec 7) (fa fb : Bool) (s : State) : Out :=
  vec3 4 d.toNat a.toNat b.toNat fa fb s fun a b => clamp32 true (signed 32 a - signed 32 b)

/-- `vsubsat.ui32` (R167). -/
def execVsubsatUi32 (d a b : BitVec 7) (fa fb : Bool) (s : State) : Out :=
  vec3 4 d.toNat a.toNat b.toNat fa fb s fun a b => clamp32 false ((a : Int) - b)

/-- `vmin.i32` (R167). -/
def execVminI32 (d a b : BitVec 7) (fa fb : Bool) (s : State) : Out :=
  vec3 4 d.toNat a.toNat b.toNat fa fb s fun a b => if signed 32 a ≤ signed 32 b then a else b

/-- `vmin.ui32` (R167). -/
def execVminUi32 (d a b : BitVec 7) (fa fb : Bool) (s : State) : Out :=
  vec3 4 d.toNat a.toNat b.toNat fa fb s fun a b => min a b

/-- `vmax.i32` (R167). -/
def execVmaxI32 (d a b : BitVec 7) (fa fb : Bool) (s : State) : Out :=
  vec3 4 d.toNat a.toNat b.toNat fa fb s fun a b => if signed 32 a ≤ signed 32 b then b else a

/-- `vmax.ui32` (R167). -/
def execVmaxUi32 (d a b : BitVec 7) (fa fb : Bool) (s : State) : Out :=
  vec3 4 d.toNat a.toNat b.toNat fa fb s fun a b => max a b

/-- `vand` (R167). -/
def execVand (d a b : BitVec 7) (fa fb : Bool) (s : State) : Out :=
  vec3 4 d.toNat a.toNat b.toNat fa fb s fun a b => a &&& b

/-- `vor` (R167). -/
def execVor (d a b : BitVec 7) (fa fb : Bool) (s : State) : Out :=
  vec3 4 d.toNat a.toNat b.toNat fa fb s fun a b => a ||| b

/-- `vxor` (R167). -/
def execVxor (d a b : BitVec 7) (fa fb : Bool) (s : State) : Out :=
  vec3 4 d.toNat a.toNat b.toNat fa fb s fun a b => a ^^^ b

/-- `vandn` (R167). -/
def execVandn (d a b : BitVec 7) (fa fb : Bool) (s : State) : Out :=
  vec3 4 d.toNat a.toNat b.toNat fa fb s fun a b => a &&& (2 ^ 32 - 1 - b)

/-- `vshl` (R167). -/
def execVshl (d a b : BitVec 7) (fa fb : Bool) (s : State) : Out :=
  vec3 4 d.toNat a.toNat b.toNat fa fb s fun a b => a * 2 ^ (b % 32)

/-- `vrot` (R167). -/
def execVrot (d a b : BitVec 7) (fa fb : Bool) (s : State) : Out :=
  vec3 4 d.toNat a.toNat b.toNat fa fb s fun a b => rotl 32 a (b % 32)

/-- `vshr` (R167). -/
def execVshr (d a b : BitVec 7) (fa fb : Bool) (s : State) : Out :=
  vec3 4 d.toNat a.toNat b.toNat fa fb s fun a b => a / 2 ^ (b % 32)

/-- `vsra` (R167). -/
def execVsra (d a b : BitVec 7) (fa fb : Bool) (s : State) : Out :=
  vec3 4 d.toNat a.toNat b.toNat fa fb s fun a b => sra 32 a (b % 32)

/-- `vmad.i32` (R167). -/
def execVmadI32 (d a b : BitVec 7) (fa fb : Bool) (s : State) : Out :=
  vec3d d a b fa fb s fun a b d => a * b + d

/-- `vbfe.ui32` (R168). -/
def execVbfeUi32 (d a b : BitVec 7) (fa fb : Bool) (s : State) : Out :=
  vec3 4 d.toNat a.toNat b.toNat fa fb s fun a b => bfe a (setBits b 16 16 0)

/-- `vbfe.i32` (R168). -/
def execVbfeI32 (d a b : BitVec 7) (fa fb : Bool) (s : State) : Out :=
  vec3 4 d.toNat a.toNat b.toNat fa fb s fun a b => bfe a (setBits b 16 16 1)

/-- `vbfi` (R168). -/
def execVbfi (d a b : BitVec 7) (fa fb : Bool) (s : State) : Out :=
  vec3d d a b fa fb s fun a b d => bfi d a b

/-! ## 16-bit forms (R106): d is the first source and the destination -/

/-- `vaddi32`, 16-bit (R106). -/
def execVaddI32Short (d : BitVec 6) (b : BitVec 5) (s : State) : Out :=
  vec3 2 d.toNat d.toNat b.toNat false false s fun a b => a + b

/-- `vsubi32`, 16-bit (R106). -/
def execVsubI32Short (d : BitVec 6) (b : BitVec 5) (s : State) : Out :=
  vec3 2 d.toNat d.toNat b.toNat false false s fun a b => a + (2 ^ 32 - b)

/-- `vmuli32`, 16-bit (R106). -/
def execVmulI32Short (d : BitVec 6) (b : BitVec 5) (s : State) : Out :=
  vec3 2 d.toNat d.toNat b.toNat false false s fun a b => a * b

/-- `vand`, 16-bit (R106). -/
def execVandShort (d : BitVec 6) (b : BitVec 5) (s : State) : Out :=
  vec3 2 d.toNat d.toNat b.toNat false false s fun a b => a &&& b

/-- `vor`, 16-bit (R106). -/
def execVorShort (d : BitVec 6) (b : BitVec 5) (s : State) : Out :=
  vec3 2 d.toNat d.toNat b.toNat false false s fun a b => a ||| b

/-- `vxor`, 16-bit (R106). -/
def execVxorShort (d : BitVec 6) (b : BitVec 5) (s : State) : Out :=
  vec3 2 d.toNat d.toNat b.toNat false false s fun a b => a ^^^ b

/-- `vandn`, 16-bit (R106). -/
def execVandnShort (d : BitVec 6) (b : BitVec 5) (s : State) : Out :=
  vec3 2 d.toNat d.toNat b.toNat false false s fun a b => a &&& (2 ^ 32 - 1 - b)

/-- `vshl`, 16-bit (R106). -/
def execVshlShort (d : BitVec 6) (b : BitVec 5) (s : State) : Out :=
  vec3 2 d.toNat d.toNat b.toNat false false s fun a b => a * 2 ^ (b % 32)

/-- `vshr`, 16-bit (R106). -/
def execVshrShort (d : BitVec 6) (b : BitVec 5) (s : State) : Out :=
  vec3 2 d.toNat d.toNat b.toNat false false s fun a b => a / 2 ^ (b % 32)

/-- `vsra`, 16-bit (R106). -/
def execVsraShort (d : BitVec 6) (b : BitVec 5) (s : State) : Out :=
  vec3 2 d.toNat d.toNat b.toNat false false s fun a b => sra 32 a (b % 32)

/-- `vmov`, 16-bit: copies b (R106). -/
def execVmovShort (d : BitVec 6) (b : BitVec 5) (s : State) : Out :=
  vecUnit 2 { v := [{ fd := b.toNat }], vd := some (d.toNat, 1, false) } s fun _ v _ =>
    ([BitVec.ofNat 32 (v.getD 0 0)], 0)

/-! ## Element types (R115, R169) -/

/-- Width and signedness of a VIX type code. -/
def vixType (t : Nat) : Nat × Bool :=
  if t == 0 then (8, true) else if t == 1 then (8, false) else if t == 2 then (16, true) else if t == 3 then (16, false)
  else if t == 4 then (32, true) else if t == 5 then (32, false) else (64, true)

/-- Applies an operation to `n` elements of width `w`. -/
def mapElems (w : Nat) : Nat → (Nat → Nat → Nat) → Nat → Nat → Nat
  | 0, _, _, _ => 0
  | n + 1, k, x, y => k (x % 2 ^ w) (y % 2 ^ w) % 2 ^ w + 2 ^ w * mapElems w n k (x / 2 ^ w) (y / 2 ^ w)

/-- Registers of a VIX operand. -/
def vixCnt (t : Nat) : Nat := if t == 6 then 2 else 1

/-- A unary VIX function on the types listed (R169). -/
def vixUnary (types : List Nat) (d a : BitVec 7) (fa : Bool) (t : BitVec 3) (s : State) (k : Nat → Nat → Nat) : Out :=
  let n := vixCnt t.toNat
  let w := (vixType t.toNat).1
  if types.contains t.toNat then
    vecUnit 4 { v := [{ fd := a.toNat, cnt := n, pair := n == 2, tie := fa }], vd := some (d.toNat, n, n == 2) } s fun _ v _ =>
      (wordsOf n (mapElems w (32 * n / w) (fun x _ => k w x) (v.getD 0 0) 0), 0)
  else illegalUnit 4 s

/-- A binary VIX function: d is the first source (R119, R169). -/
def vixBinary (types : List Nat) (d a : BitVec 7) (fa : Bool) (t : BitVec 3) (s : State)
    (k : Nat → Bool → Nat → Nat → Nat) : Out :=
  let n := vixCnt t.toNat
  let (w, sg) := vixType t.toNat
  if types.contains t.toNat then
    vecUnit 4 { v := [{ fd := d.toNat, cnt := n, pair := n == 2 }, { fd := a.toNat, cnt := n, pair := n == 2, tie := fa }],
                vd := some (d.toNat, n, n == 2) } s fun _ v _ =>
      (wordsOf n (mapElems w (32 * n / w) (k w sg) (v.getD 0 0) (v.getD 1 0)), 0)
  else illegalUnit 4 s

/-- An element as an integer of its type. -/
def elemInt (w : Nat) (sg : Bool) (x : Nat) : Int := if sg then signed w x else (x : Int)

/-- An exact result clamped to the element type. -/
def clampElem (w : Nat) (sg : Bool) (x : Int) : Nat :=
  let lo : Int := if sg then -(2 ^ (w - 1) : Nat) else 0
  let hi : Int := if sg then (2 ^ (w - 1) : Nat) - 1 else (2 ^ w : Nat) - 1
  wrap w (if x < lo then lo else if hi < x then hi else x)

/-- Bits of a `w`-bit number in reverse order. -/
def brev : Nat → Nat → Nat
  | 0, _ => 0
  | n + 1, x => (x % 2) * 2 ^ n + brev n (x / 2)

/-- VIX `vmov` (R169). -/
def execVixVmov (d a : BitVec 7) (fa : Bool) (t : BitVec 3) (s : State) : Out :=
  vixUnary [4, 6] d a fa t s fun _ x => x

/-- VIX `vabs` (R169). -/
def execVixVabs (d a : BitVec 7) (fa : Bool) (t : BitVec 3) (s : State) : Out :=
  vixUnary [0, 2, 4, 6] d a fa t s fun w x => (signed w x).natAbs

/-- VIX `vneg` (R169). -/
def execVixVneg (d a : BitVec 7) (fa : Bool) (t : BitVec 3) (s : State) : Out :=
  vixUnary [0, 2, 4, 6] d a fa t s fun w x => 2 ^ w - x

/-- VIX `vnot` (R169). -/
def execVixVnot (d a : BitVec 7) (fa : Bool) (t : BitVec 3) (s : State) : Out :=
  vixUnary [4, 6] d a fa t s fun w x => 2 ^ w - 1 - x

/-- VIX `vpopc` (R169). -/
def execVixVpopc (d a : BitVec 7) (fa : Bool) (t : BitVec 3) (s : State) : Out :=
  vixUnary [4, 6] d a fa t s fun w x => popc w x

/-- VIX `vclz` (R169). -/
def execVixVclz (d a : BitVec 7) (fa : Bool) (t : BitVec 3) (s : State) : Out :=
  vixUnary [4, 6] d a fa t s fun w x => clz w x

/-- VIX `vbrev` (R169). -/
def execVixVbrev (d a : BitVec 7) (fa : Bool) (t : BitVec 3) (s : State) : Out :=
  vixUnary [4, 6] d a fa t s fun w x => brev w x

/-- VIX `vadd` (R169). -/
def execVixVadd (d a : BitVec 7) (fa : Bool) (t : BitVec 3) (s : State) : Out :=
  vixBinary [0, 1, 2, 3, 6] d a fa t s fun _ _ x y => x + y

/-- VIX `vsub` (R169). -/
def execVixVsub (d a : BitVec 7) (fa : Bool) (t : BitVec 3) (s : State) : Out :=
  vixBinary [0, 1, 2, 3, 6] d a fa t s fun w _ x y => x + (2 ^ w - y)

/-- VIX `vmul` (R169). -/
def execVixVmul (d a : BitVec 7) (fa : Bool) (t : BitVec 3) (s : State) : Out :=
  vixBinary [0, 1, 2, 3, 6] d a fa t s fun _ _ x y => x * y

/-- VIX `vmulh` (R169). -/
def execVixVmulh (d a : BitVec 7) (fa : Bool) (t : BitVec 3) (s : State) : Out :=
  vixBinary [0, 1, 2, 3] d a fa t s fun w sg x y => wrap w (elemInt w sg x * elemInt w sg y / (2 ^ w : Nat))

/-- VIX `vaddsat` (R169). -/
def execVixVaddsat (d a : BitVec 7) (fa : Bool) (t : BitVec 3) (s : State) : Out :=
  vixBinary [0, 1, 2, 3] d a fa t s fun w sg x y => clampElem w sg (elemInt w sg x + elemInt w sg y)

/-- VIX `vsubsat` (R169). -/
def execVixVsubsat (d a : BitVec 7) (fa : Bool) (t : BitVec 3) (s : State) : Out :=
  vixBinary [0, 1, 2, 3] d a fa t s fun w sg x y => clampElem w sg (elemInt w sg x - elemInt w sg y)

/-- VIX `vmin` (R169). -/
def execVixVmin (d a : BitVec 7) (fa : Bool) (t : BitVec 3) (s : State) : Out :=
  vixBinary [0, 1, 2, 3, 6] d a fa t s fun w sg x y => if elemInt w sg x ≤ elemInt w sg y then x else y

/-- VIX `vmax` (R169). -/
def execVixVmax (d a : BitVec 7) (fa : Bool) (t : BitVec 3) (s : State) : Out :=
  vixBinary [0, 1, 2, 3, 6] d a fa t s fun w sg x y => if elemInt w sg x ≤ elemInt w sg y then y else x

/-- VIX `vshl` (R169). -/
def execVixVshl (d a : BitVec 7) (fa : Bool) (t : BitVec 3) (s : State) : Out :=
  vixBinary [0, 1, 2, 3, 6] d a fa t s fun w _ x y => x * 2 ^ (y % w)

/-- VIX `vshr` (R169). -/
def execVixVshr (d a : BitVec 7) (fa : Bool) (t : BitVec 3) (s : State) : Out :=
  vixBinary [0, 1, 2, 3, 6] d a fa t s fun w _ x y => x / 2 ^ (y % w)

/-- VIX `vsra` (R169). -/
def execVixVsra (d a : BitVec 7) (fa : Bool) (t : BitVec 3) (s : State) : Out :=
  vixBinary [0, 1, 2, 3, 6] d a fa t s fun w _ x y => sra w x (y % w)

/-- VIX `vrot` (R169). -/
def execVixVrot (d a : BitVec 7) (fa : Bool) (t : BitVec 3) (s : State) : Out :=
  vixBinary [0, 1, 2, 3, 6] d a fa t s fun w _ x y => rotl w x (y % w)

/-! ## Moves, selection and comparison (R170 to R173) -/

/-- `vli`: the d field names any register directly (R170). -/
def execVli (x : Ext) (d : BitVec 8) (i : BitVec 16) (s : State) : Out :=
  issueUnit (extSize x) true s fun s wid _ w f => do
    noControl w
    trapIf (w.nvreg ≤ d.toNat) regBound
    trapIf (saveRefuses w && 2 ≤ d.toNat) illegalOp
    fullV s w [d.toNat]
    let v : Word := match x with
      | .imm hi => hi ++ i
      | _ => i.signExtend 32
    .ok (writeV s wid d.toNat 1 f.active fun _ => [v])

/-- `vmovs` (R171). -/
def execVmovs (d : BitVec 7) (x : BitVec 8) (s : State) : Out :=
  vecUnit 4 { s := [{ fd := x.toNat }], vd := some (d.toNat, 1, false) } s fun _ _ c => ([BitVec.ofNat 32 (c.getD 0 0)], 0)

/-- `vsel` writes the lanes whose mask bit is set (R171). -/
def execVsel (d a : BitVec 7) (x : BitVec 8) (fa : Bool) (s : State) : Out :=
  issueUnit 4 true s fun s wid _ w f => do
    noControl w
    let g ← getOpnds s wid w f { v := [{ fd := a.toNat, tie := fa }, { fd := d.toNat }], s := [{ fd := x.toNat }],
                                 vd := some (d.toNat, 1, false) }
    let m := BitVec.ofNat 32 (g.s.getD 0 0)
    .ok (writeV s wid g.vd 1 (f.active &&& m) fun l => [w.vreg (g.v.getD 0 0) l])

/-- A comparison: a mask over the lanes of `Active` to a 7-bit scalar field, with flags (R173). `cnt` registers per
operand. -/
def cmpUnit (cnt : Nat) (d a b : BitVec 7) (fa fb : Bool) (s : State) (k : Nat → Nat → Bool × Nat) : Out :=
  issueUnit 4 true s fun s wid _ w f => do
    noControl w
    let g ← getOpnds s wid w f
      { v := [{ fd := a.toNat, cnt := cnt, pair := cnt == 2, tie := fa }, { fd := b.toNat, cnt := cnt, pair := cnt == 2, tie := fb }],
        sd := some (d.toNat, 1, false) }
    let r := (List.range 32).map fun l =>
      if f.active.getLsbD l then k (vecVal w (g.v.getD 0 0) cnt l) (vecVal w (g.v.getD 1 0) cnt l) else (false, 0)
    let m := (r.zipIdx).foldl (fun m (x, l) => if x.1 then m ||| laneBit l else m) (0 : Word)
    let s := s.setWave wid (w.setS g.sd m)
    .ok (raiseFlags s wid f.active fun l => (r.getD l (false, 0)).2)

/-- `vcmp` EqI32 (R173). -/
def execVcmpEqI32 (d a b : BitVec 7) (fa fb : Bool) (s : State) : Out :=
  cmpUnit 1 d a b fa fb s fun a b => (a == b, 0)

/-- `vcmp` NeI32 (R173). -/
def execVcmpNeI32 (d a b : BitVec 7) (fa fb : Bool) (s : State) : Out :=
  cmpUnit 1 d a b fa fb s fun a b => (a != b, 0)

/-- `vcmp` LtI32 (R173). -/
def execVcmpLtI32 (d a b : BitVec 7) (fa fb : Bool) (s : State) : Out :=
  cmpUnit 1 d a b fa fb s fun a b => (signed 32 a < signed 32 b, 0)

/-- `vcmp` LtUi32 (R173). -/
def execVcmpLtUi32 (d a b : BitVec 7) (fa fb : Bool) (s : State) : Out :=
  cmpUnit 1 d a b fa fb s fun a b => (a < b, 0)

/-- `vcmp` LeI32 (R173). -/
def execVcmpLeI32 (d a b : BitVec 7) (fa fb : Bool) (s : State) : Out :=
  cmpUnit 1 d a b fa fb s fun a b => (signed 32 a ≤ signed 32 b, 0)

/-- `vcmp` LeUi32 (R173). -/
def execVcmpLeUi32 (d a b : BitVec 7) (fa fb : Bool) (s : State) : Out :=
  cmpUnit 1 d a b fa fb s fun a b => (a ≤ b, 0)

end Sys2Proof.Machine
end

