-- ==== Sys2Proof/Machine/VecFp.lean ====
section
/-! DEFINITION. Floating-point vector arithmetic, conversions and dot products (R68 to R93, R173 to R181). -/

namespace Sys2Proof.Machine

open Sys2Proof

/-- RND and SAT of a fragment's `fmt` (R75). -/
def rndOf (fmt : Word) : Nat := fld fmt 1 0
def satOf (fmt : Word) : Bool := fmt.getLsbD 2

/-- Registers of a value of a format. -/
def fmtCnt (F : Fmt) : Nat := if F.width == 64 then 2 else 1

/-- A V-layout floating-point instruction on one element per lane (R174). `k` gets RND and the operands. -/
def vecFp (size : Nat) (F : Fmt) (d a b : Nat) (fa fb : Bool) (s : State) (k : Nat → Nat → Nat → Nat × Nat) : Out :=
  let n := fmtCnt F
  vecUnit size { v := [{ fd := a, cnt := n, pair := n == 2, tie := fa }, { fd := b, cnt := n, pair := n == 2, tie := fb }],
                 vd := some (d, n, n == 2) } s fun f v _ =>
    let (x, fl) := k (rndOf f.fmt) (v.getD 0 0) (v.getD 1 0)
    (wordsOf n x, fl)

/-- A fused multiply-add: d is the addend. -/
def vecFma (F : Fmt) (d a b : BitVec 7) (fa fb : Bool) (s : State) (k : Nat → Nat → Nat → Nat → Nat × Nat) : Out :=
  let n := fmtCnt F
  vecUnit 4 { v := [{ fd := a.toNat, cnt := n, pair := n == 2, tie := fa },
                    { fd := b.toNat, cnt := n, pair := n == 2, tie := fb }, { fd := d.toNat, cnt := n, pair := n == 2 }],
              vd := some (d.toNat, n, n == 2) } s fun f v _ =>
    let (x, fl) := k (rndOf f.fmt) (v.getD 0 0) (v.getD 1 0) (v.getD 2 0)
    (wordsOf n x, fl)

/-- Two 16-bit elements, each by itself; flags combine by OR (R174). -/
def packed2 (k : Nat → Nat → Nat → Nat × Nat) (x y z : Nat) : Nat × Nat :=
  let (l, fl) := k (x % 2 ^ 16) (y % 2 ^ 16) (z % 2 ^ 16)
  let (h, fh) := k (x / 2 ^ 16 % 2 ^ 16) (y / 2 ^ 16 % 2 ^ 16) (z / 2 ^ 16 % 2 ^ 16)
  (l + 2 ^ 16 * h, orFlags fl fh)

/-- A packed instruction on two sources. -/
def vecPacked (d a b : BitVec 7) (fa fb : Bool) (s : State) (k : Nat → Nat → Nat → Nat × Nat) : Out :=
  vecFp 4 FP32 d.toNat a.toNat b.toNat fa fb s fun r x y => packed2 (fun x y _ => k r x y) x y 0

/-- `vadd.f32` (R174). -/
def execVaddF32 (d a b : BitVec 7) (fa fb : Bool) (s : State) : Out :=
  vecFp 4 FP32 d.toNat a.toNat b.toNat fa fb s (fadd FP32)

/-- `vsub.f32` (R174). -/
def execVsubF32 (d a b : BitVec 7) (fa fb : Bool) (s : State) : Out :=
  vecFp 4 FP32 d.toNat a.toNat b.toNat fa fb s (fsub FP32)

/-- `vmul.f32` (R174). -/
def execVmulF32 (d a b : BitVec 7) (fa fb : Bool) (s : State) : Out :=
  vecFp 4 FP32 d.toNat a.toNat b.toNat fa fb s (fmul FP32)

/-- `vdiv.f32` (R174). -/
def execVdivF32 (d a b : BitVec 7) (fa fb : Bool) (s : State) : Out :=
  vecFp 4 FP32 d.toNat a.toNat b.toNat fa fb s (fdiv FP32)

/-- `vfma.f32` (R174). -/
def execVfmaF32 (d a b : BitVec 7) (fa fb : Bool) (s : State) : Out :=
  vecFma FP32 d a b fa fb s (ffma FP32)

/-- `vadd.f64` (R174). -/
def execVaddF64 (d a b : BitVec 7) (fa fb : Bool) (s : State) : Out :=
  vecFp 4 FP64 d.toNat a.toNat b.toNat fa fb s (fadd FP64)

/-- `vsub.f64` (R174). -/
def execVsubF64 (d a b : BitVec 7) (fa fb : Bool) (s : State) : Out :=
  vecFp 4 FP64 d.toNat a.toNat b.toNat fa fb s (fsub FP64)

/-- `vmul.f64` (R174). -/
def execVmulF64 (d a b : BitVec 7) (fa fb : Bool) (s : State) : Out :=
  vecFp 4 FP64 d.toNat a.toNat b.toNat fa fb s (fmul FP64)

/-- `vdiv.f64` (R174). -/
def execVdivF64 (d a b : BitVec 7) (fa fb : Bool) (s : State) : Out :=
  vecFp 4 FP64 d.toNat a.toNat b.toNat fa fb s (fdiv FP64)

/-- `vfma.f64` (R174). -/
def execVfmaF64 (d a b : BitVec 7) (fa fb : Bool) (s : State) : Out :=
  vecFma FP64 d a b fa fb s (ffma FP64)

/-- `vmin.f32` (R74, R174). -/
def execVminF32 (d a b : BitVec 7) (fa fb : Bool) (s : State) : Out :=
  vecFp 4 FP32 d.toNat a.toNat b.toNat fa fb s fun _ a b => minMaxNum FP32 false a b

/-- `vmax.f32` (R74, R174). -/
def execVmaxF32 (d a b : BitVec 7) (fa fb : Bool) (s : State) : Out :=
  vecFp 4 FP32 d.toNat a.toNat b.toNat fa fb s fun _ a b => minMaxNum FP32 true a b

/-- `vadd.f32`, 16-bit (R106). -/
def execVaddF32Short (d : BitVec 6) (b : BitVec 5) (s : State) : Out :=
  vecFp 2 FP32 d.toNat d.toNat b.toNat false false s (fadd FP32)

/-- `vsub.f32`, 16-bit (R106). -/
def execVsubF32Short (d : BitVec 6) (b : BitVec 5) (s : State) : Out :=
  vecFp 2 FP32 d.toNat d.toNat b.toNat false false s (fsub FP32)

/-- `vmul.f32`, 16-bit (R106). -/
def execVmulF32Short (d : BitVec 6) (b : BitVec 5) (s : State) : Out :=
  vecFp 2 FP32 d.toNat d.toNat b.toNat false false s (fmul FP32)

/-- `vmin.f32`, 16-bit (R106). -/
def execVminF32Short (d : BitVec 6) (b : BitVec 5) (s : State) : Out :=
  vecFp 2 FP32 d.toNat d.toNat b.toNat false false s (fun _ a b => minMaxNum FP32 false a b)

/-- `vmax.f32`, 16-bit (R106). -/
def execVmaxF32Short (d : BitVec 6) (b : BitVec 5) (s : State) : Out :=
  vecFp 2 FP32 d.toNat d.toNat b.toNat false false s (fun _ a b => minMaxNum FP32 true a b)

/-- `vadd.f16x2` (R174). -/
def execVaddF16x2 (d a b : BitVec 7) (fa fb : Bool) (s : State) : Out :=
  vecPacked d a b fa fb s (fadd FP16)

/-- `vmul.f16x2` (R174). -/
def execVmulF16x2 (d a b : BitVec 7) (fa fb : Bool) (s : State) : Out :=
  vecPacked d a b fa fb s (fmul FP16)

/-- `vfma.f16x2` (R174). -/
def execVfmaF16x2 (d a b : BitVec 7) (fa fb : Bool) (s : State) : Out :=
  vecFma FP32 d a b fa fb s fun r x y z => packed2 (ffma FP16 r) x y z

/-- `vmin.f16x2` (R74, R174). -/
def execVminF16x2 (d a b : BitVec 7) (fa fb : Bool) (s : State) : Out :=
  vecPacked d a b fa fb s fun _ x y => minMaxNum FP16 false x y

/-- `vmax.f16x2` (R74, R174). -/
def execVmaxF16x2 (d a b : BitVec 7) (fa fb : Bool) (s : State) : Out :=
  vecPacked d a b fa fb s fun _ x y => minMaxNum FP16 true x y

/-- `vadd.bf16x2` (R174). -/
def execVaddBf16x2 (d a b : BitVec 7) (fa fb : Bool) (s : State) : Out :=
  vecPacked d a b fa fb s (fadd BF16)

/-- `vmul.bf16x2` (R174). -/
def execVmulBf16x2 (d a b : BitVec 7) (fa fb : Bool) (s : State) : Out :=
  vecPacked d a b fa fb s (fmul BF16)

/-- `vfma.bf16x2` (R174). -/
def execVfmaBf16x2 (d a b : BitVec 7) (fa fb : Bool) (s : State) : Out :=
  vecFma FP32 d a b fa fb s fun r x y z => packed2 (ffma BF16 r) x y z

/-- `vmin.bf16x2` (R74, R174). -/
def execVminBf16x2 (d a b : BitVec 7) (fa fb : Bool) (s : State) : Out :=
  vecPacked d a b fa fb s fun _ x y => minMaxNum BF16 false x y

/-- `vmax.bf16x2` (R74, R174). -/
def execVmaxBf16x2 (d a b : BitVec 7) (fa fb : Bool) (s : State) : Out :=
  vecPacked d a b fa fb s fun _ x y => minMaxNum BF16 true x y

/-- `vcmp.eq.f32` (R173). -/
def execVcmpEqF32 (d a b : BitVec 7) (fa fb : Bool) (s : State) : Out :=
  cmpUnit 1 d a b fa fb s (fcompare FP32 0)

/-- `vcmp.eq.f64` (R173). -/
def execVcmpEqF64 (d a b : BitVec 7) (fa fb : Bool) (s : State) : Out :=
  cmpUnit 2 d a b fa fb s (fcompare FP64 0)

/-- `vcmp.ne.f32` (R173). -/
def execVcmpNeF32 (d a b : BitVec 7) (fa fb : Bool) (s : State) : Out :=
  cmpUnit 1 d a b fa fb s (fcompare FP32 1)

/-- `vcmp.ne.f64` (R173). -/
def execVcmpNeF64 (d a b : BitVec 7) (fa fb : Bool) (s : State) : Out :=
  cmpUnit 2 d a b fa fb s (fcompare FP64 1)

/-- `vcmp.lt.f32` (R173). -/
def execVcmpLtF32 (d a b : BitVec 7) (fa fb : Bool) (s : State) : Out :=
  cmpUnit 1 d a b fa fb s (fcompare FP32 2)

/-- `vcmp.lt.f64` (R173). -/
def execVcmpLtF64 (d a b : BitVec 7) (fa fb : Bool) (s : State) : Out :=
  cmpUnit 2 d a b fa fb s (fcompare FP64 2)

/-- `vcmp.le.f32` (R173). -/
def execVcmpLeF32 (d a b : BitVec 7) (fa fb : Bool) (s : State) : Out :=
  cmpUnit 1 d a b fa fb s (fcompare FP32 3)

/-- `vcmp.le.f64` (R173). -/
def execVcmpLeF64 (d a b : BitVec 7) (fa fb : Bool) (s : State) : Out :=
  cmpUnit 2 d a b fa fb s (fcompare FP64 3)

/-! ## VFX functions (R175 to R177) -/

/-- A VFX function on `.f32` or `.f64` (R115); `k` gets the format and RND. -/
def vfxPlain (types : List Nat) (d a : BitVec 7) (fa : Bool) (t : BitVec 3) (s : State)
    (k : Fmt → Nat → Nat → Nat × Nat) : Out :=
  let F := if t.toNat == 1 then FP64 else FP32
  let n := fmtCnt F
  if types.contains t.toNat then
    vecUnit 4 { v := [{ fd := a.toNat, cnt := n, pair := n == 2, tie := fa }], vd := some (d.toNat, n, n == 2) } s fun f v _ =>
      let (x, fl) := k F (rndOf f.fmt) (v.getD 0 0)
      (wordsOf n x, fl)
  else illegalUnit 4 s

/-- `vabs` and `vneg` on every type (R175). -/
def vfxSign (negate : Bool) (d a : BitVec 7) (fa : Bool) (t : BitVec 3) (s : State) : Out :=
  if t.toNat ≤ 1 then vfxPlain [0, 1] d a fa t s fun F _ x => (fsignop F negate x, 0)
  else if t.toNat ≤ 3 then
    let F := if t.toNat == 2 then FP16 else BF16
    vecUnit 4 { v := [{ fd := a.toNat, tie := fa }], vd := some (d.toNat, 1, false) } s fun _ v _ =>
      (wordsOf 1 (packed2 (fun x _ _ => (fsignop F negate x, 0)) (v.getD 0 0) 0 0).1, 0)
  else illegalUnit 4 s

/-- VFX `vabs` (R175). -/
def execVfxVabs (d a : BitVec 7) (fa : Bool) (t : BitVec 3) (s : State) : Out :=
  vfxSign false d a fa t s

/-- VFX `vneg` (R175). -/
def execVfxVneg (d a : BitVec 7) (fa : Bool) (t : BitVec 3) (s : State) : Out :=
  vfxSign true d a fa t s

/-- VFX `vrnd` (R175). -/
def execVfxVrnd (d a : BitVec 7) (fa : Bool) (t : BitVec 3) (s : State) : Out :=
  vfxPlain [0, 1] d a fa t s fround

/-- VFX `vfrac` (R175). -/
def execVfxVfrac (d a : BitVec 7) (fa : Bool) (t : BitVec 3) (s : State) : Out :=
  vfxPlain [0] d a fa t s fun _ r x => ffrac r x

/-- VFX `vclass` (R176). -/
def execVfxVclass (d a : BitVec 7) (fa : Bool) (t : BitVec 3) (s : State) : Out :=
  vfxPlain [0, 1] d a fa t s fun F _ x => (fclass F x, 0)

/-- VFX `vsqrt` (R175). -/
def execVfxVsqrt (d a : BitVec 7) (fa : Bool) (t : BitVec 3) (s : State) : Out :=
  vfxPlain [0, 1] d a fa t s fsqrt

/-- VFX `vrcp` (R177). -/
def execVfxVrcp (d a : BitVec 7) (fa : Bool) (t : BitVec 3) (s : State) : Out :=
  vfxPlain [0] d a fa t s fun _ _ x => approxFn 6 x

/-- VFX `vrsq` (R177). -/
def execVfxVrsq (d a : BitVec 7) (fa : Bool) (t : BitVec 3) (s : State) : Out :=
  vfxPlain [0] d a fa t s fun _ _ x => approxFn 7 x

/-- VFX `vexp2` (R177). -/
def execVfxVexp2 (d a : BitVec 7) (fa : Bool) (t : BitVec 3) (s : State) : Out :=
  vfxPlain [0] d a fa t s fun _ _ x => approxFn 8 x

/-- VFX `vlog2` (R177). -/
def execVfxVlog2 (d a : BitVec 7) (fa : Bool) (t : BitVec 3) (s : State) : Out :=
  vfxPlain [0] d a fa t s fun _ _ x => approxFn 9 x

/-- VFX `vsin` (R177). -/
def execVfxVsin (d a : BitVec 7) (fa : Bool) (t : BitVec 3) (s : State) : Out :=
  vfxPlain [0] d a fa t s fun _ _ x => approxFn 10 x

/-- VFX `vcos` (R177). -/
def execVfxVcos (d a : BitVec 7) (fa : Bool) (t : BitVec 3) (s : State) : Out :=
  vfxPlain [0] d a fa t s fun _ _ x => approxFn 11 x

/-- VFX `vtanh` (R177). -/
def execVfxVtanh (d a : BitVec 7) (fa : Bool) (t : BitVec 3) (s : State) : Out :=
  vfxPlain [0] d a fa t s fun _ _ x => approxFn 12 x

/-! ## Conversions (R121, R178, R179) -/

/-- A float code of VCVT. -/
def floatCode (c : Nat) : Option Fmt :=
  if c == 0 then some FP64 else if c == 1 then some FP32 else if c == 2 then some FP16 else if c == 3 then some BF16
  else if c == 4 then some E4M3 else if c == 5 then some E5M2 else if c == 6 then some E2M1 else none

/-- An integer code of VCVT: width and signedness. -/
def intCode (c : Nat) : Option (Nat × Bool) := if c == 7 then none else some (vixType c)

/-- A conversion between values of `sn` and `dn` bits, each alone in its register or pair. -/
def cvtUnit (sn dn : Nat) (d a : BitVec 7) (fa : Bool) (s : State) (k : Word → Nat → Nat × Nat) : Out :=
  let sc := if sn == 64 then 2 else 1
  let dc := if dn == 64 then 2 else 1
  vecUnit 4 { v := [{ fd := a.toNat, cnt := sc, pair := sc == 2, tie := fa }], vd := some (d.toNat, dc, dc == 2) } s
    fun f v _ =>
      let (x, fl) := k f.fmt (v.getD 0 0 % 2 ^ sn)
      (wordsOf dc x, fl)

/-- Float from float; x is the destination code, y the source code (R121, R178). -/
def execVcvtFloatFromFloat (d a : BitVec 7) (y x : BitVec 3) (fa : Bool) (s : State) : Out :=
  match floatCode x.toNat, floatCode y.toNat with
  | some D, some S =>
    if x == y then illegalUnit 4 s
    else cvtUnit S.width D.width d a fa s fun fmt v => cvtFF D S (rndOf fmt) (satOf fmt) v
  | _, _ => illegalUnit 4 s

/-- Float from integer (R178). -/
def execVcvtFloatFromInteger (d a : BitVec 7) (y x : BitVec 3) (fa : Bool) (s : State) : Out :=
  match floatCode x.toNat, intCode y.toNat with
  | some D, some (n, sg) => cvtUnit n D.width d a fa s fun fmt v => cvtFI D (rndOf fmt) (elemInt n sg v)
  | _, _ => illegalUnit 4 s

/-- Integer from float (R81, R83, R178). -/
def execVcvtIntegerFromFloat (d a : BitVec 7) (y x : BitVec 3) (fa : Bool) (s : State) : Out :=
  match intCode x.toNat, floatCode y.toNat with
  | some (n, sg), some S => cvtUnit S.width n d a fa s fun fmt v => cvtIF n sg S (rndOf fmt) v
  | _, _ => illegalUnit 4 s

/-- Integer from integer: the value clamped to the destination (R178). -/
def execVcvtIntegerFromInteger (d a : BitVec 7) (y x : BitVec 3) (fa : Bool) (s : State) : Out :=
  match intCode x.toNat, intCode y.toNat with
  | some (n, sg), some (m, sg') =>
    if x == y then illegalUnit 4 s
    else cvtUnit m n d a fa s fun _ v => (wrap n (clampInt n sg (elemInt m sg' v)).1, 0)
  | _, _ => illegalUnit 4 s

/-- Formats of a packing form: wide code 1 to 3, narrow code 4 to 6 (R121). -/
def packFmts (w n : Nat) : Option (Fmt × Fmt) :=
  if 1 ≤ w && w ≤ 3 && 4 ≤ n then (floatCode w).bind fun W => (floatCode n).map fun N => (W, N) else none

/-- Elements of a packing form. -/
def packCnt (N : Fmt) : Nat := if N.width == 4 then 8 else 4

/-- `vpack` (R179). -/
def execVpack (d a : BitVec 7) (n w : BitVec 3) (fa : Bool) (s : State) : Out := match packFmts w.toNat n.toNat with
  | some (W, N) =>
    let k := packCnt N
    vecUnit 4 { v := [{ fd := a.toNat, cnt := k, tie := fa }], vd := some (d.toNat, 1, false) } s fun f v _ =>
      let r := (List.range k).map fun i => cvtFF N W (rndOf f.fmt) (satOf f.fmt) (v.getD 0 0 / 2 ^ (32 * i) % 2 ^ W.width)
      (wordsOf 1 ((r.zipIdx).foldl (fun acc (x, i) => acc + x.1 * 2 ^ (N.width * i)) 0), r.foldl (fun fl x => orFlags fl x.2) 0)
  | none => illegalUnit 4 s

/-- `vunpack` (R179). -/
def execVunpack (d a : BitVec 7) (n w : BitVec 3) (fa : Bool) (s : State) : Out := match packFmts w.toNat n.toNat with
  | some (W, N) =>
    let k := packCnt N
    vecUnit 4 { v := [{ fd := a.toNat, tie := fa }], vd := some (d.toNat, k, false) } s fun f v _ =>
      let r := (List.range k).map fun i => cvtFF W N (rndOf f.fmt) false (v.getD 0 0 / 2 ^ (N.width * i) % 2 ^ N.width)
      (r.map fun x => BitVec.ofNat 32 x.1, r.foldl (fun fl x => orFlags fl x.2) 0)
  | none => illegalUnit 4 s

/-! ## Dot products (R86, R89, R90, R180, R181) -/

/-- Element `i` of width `w`. -/
def elem (w x i : Nat) : Nat := x / 2 ^ (w * i) % 2 ^ w

/-- Products of the elements of two operands, and whether one was invalid. -/
def products (A B : Fmt) (x y n : Nat) : List FV × Bool :=
  let ps := (List.range n).map fun i => fmulX (unpack A (elem A.width x i)) (unpack B (elem B.width y i))
  (ps.map (·.1), ps.any (·.2))

/-- `vdot.i8x4` (R180). -/
def execVdotI8x4 (d a b : BitVec 7) (fa fb : Bool) (s : State) : Out :=
  vec3d d a b fa fb s fun a b d => wrap 32 ((List.range 4).foldl
    (fun acc i => acc + signed 8 (elem 8 a i) * signed 8 (elem 8 b i)) (d : Int))

/-- A floating-point dot product with the addend d, rounded once. -/
def fdot (F : Fmt) (n r a b d : Nat) : Nat × Nat :=
  let (ps, nv) := products F F a b n
  let (x, nv') := sumX r (unpack FP32 d :: ps)
  roundX FP32 r (x, nv || nv')

/-- `vdot.e4m3x4` (R180). -/
def execVdotE4m3x4 (d a b : BitVec 7) (fa fb : Bool) (s : State) : Out := vecFma FP32 d a b fa fb s (fdot E4M3 4)

/-- `vdot.bf16x2` (R180). -/
def execVdotBf16x2 (d a b : BitVec 7) (fa fb : Bool) (s : State) : Out := vecFma FP32 d a b fa fb s (fdot BF16 2)

/-- An exact product of two values, and whether it or one of them was invalid. -/
def mulF (x y : FV × Bool) : FV × Bool :=
  let z := fmulX x.1 y.1
  (z.1, x.2 || y.2 || z.2)

/-- A chain of exact products, from the left (R88, R181). -/
def prodX (x : FV × Bool) (ys : List (FV × Bool)) : FV × Bool := ys.foldl mulF x

/-- The promoted value of one block of eight with its scales, and the accumulation (R88, R181). -/
def fdotBlock (r a b d : Nat) : Nat × Nat :=
  let (ps, nv) := products E2M1 E2M1 a b 8
  let (x, nv') := sumX r ps
  let sc := fun (F : Fmt) (v : Nat) => (unpack F v, false)
  let hi := fun (v : Nat) => v / 2 ^ 32
  let t := mulF (sc BF16 (hi a / 2 ^ 16 % 2 ^ 16)) (sc BF16 (hi b / 2 ^ 16 % 2 ^ 16))
  let (p, nv'') := mulF (prodX (x, nv || nv') [sc E5M2 (hi a % 2 ^ 8), sc E5M2 (hi b % 2 ^ 8)]) t
  let (q, fl) := roundX FP32 r (p, nv'')
  let (y, fl') := roundX FP32 r (sumX r [unpack FP32 d, unpack FP32 q])
  (y, orFlags fl fl')

/-- `vdot.e2m1b` (R181). -/
def execVdotE2m1b (d a b : BitVec 7) (fa fb : Bool) (s : State) : Out :=
  vecUnit 4 { v := [{ fd := a.toNat, cnt := 2, pair := true, tie := fa }, { fd := b.toNat, cnt := 2, pair := true, tie := fb },
                    { fd := d.toNat }], vd := some (d.toNat, 1, false) } s fun f v _ =>
    let (x, fl) := fdotBlock (rndOf f.fmt) (v.getD 0 0) (v.getD 1 0) (v.getD 2 0)
    (wordsOf 1 x, fl)

end Sys2Proof.Machine
end

