-- ==== Sys2Proof/Machine/Cross.lean ====
section
/-! DEFINITION. Cross-lane instructions, the crossbar and the decoder (R164, R172, R182 to R196). -/

namespace Sys2Proof.Machine

open Sys2Proof

/-- A unit that gives each active lane a word from the whole of its sources. -/
def crossUnit (o : Opnds) (s : State) (k : Wave → Frag → Got → Nat → Word) : Out :=
  issueUnit 4 true s fun s wid _ w f => do
    noControl w
    let g ← getOpnds s wid w f o
    .ok (writeV s wid g.vd 1 f.active fun l => [k w f g l])

/-- A unit that writes one scalar from the lanes of a vector register, with flags by lane. -/
def toScalar (d a : BitVec 7) (fa : Bool) (srcs : List SSrc) (s : State)
    (k : Frag → (Nat → Word) → List Nat → Word × (Nat → Nat)) : Out :=
  issueUnit 4 true s fun s wid _ w f => do
    noControl w
    let g ← getOpnds s wid w f { v := [{ fd := a.toNat, tie := fa }], s := srcs, sd := some (d.toNat, 1, false) }
    let (v, fl) := k f (fun l => w.vreg (g.v.getD 0 0) l) g.s
    let s := s.setWave wid (w.setS g.sd v)
    .ok (raiseFlags s wid f.active fl)

/-! ## Moves between lanes (R172, R182) -/

/-- `vlane` (R172). -/
def execVlane (d a : BitVec 7) (l : BitVec 8) (fa : Bool) (s : State) : Out :=
  toScalar d a fa [{ fd := l.toNat }] s fun _ v g => (v (g.getD 0 0 % 32), fun _ => 0)

/-- `vbcast` (R172). -/
def execVbcast (d a : BitVec 7) (l : BitVec 8) (fa : Bool) (s : State) : Out :=
  crossUnit { v := [{ fd := a.toNat, tie := fa }], s := [{ fd := l.toNat }], vd := some (d.toNat, 1, false) } s
    fun w _ g _ => w.vreg (g.v.getD 0 0) (g.s.getD 0 0 % 32)

/-- The value a shuffle takes: lane j, or the lane itself where there is no lane j (R182). -/
def shflVal (w : Wave) (r lane : Nat) (j : Int) : Word := if 0 ≤ j ∧ j ≤ 31 then w.vreg r j.toNat else w.vreg r lane

/-- A shuffle with an immediate. -/
def shflImm (d a : BitVec 7) (fa : Bool) (s : State) (j : Nat → Int) : Out :=
  crossUnit { v := [{ fd := a.toNat, tie := fa }], vd := some (d.toNat, 1, false) } s
    fun w _ g l => shflVal w (g.v.getD 0 0) l (j l)

/-- `vshfl.xor` (R182). -/
def execVshflXor (d a : BitVec 7) (n : BitVec 5) (fa : Bool) (s : State) : Out :=
  shflImm d a fa s fun l => ((l ^^^ n.toNat : Nat) : Int)

/-- `vshfl.up` (R182). -/
def execVshflUp (d a : BitVec 7) (n : BitVec 5) (fa : Bool) (s : State) : Out := shflImm d a fa s fun l => (l : Int) - n.toNat

/-- `vshfl.down` (R182). -/
def execVshflDown (d a : BitVec 7) (n : BitVec 5) (fa : Bool) (s : State) : Out := shflImm d a fa s fun l => (l : Int) + n.toNat

/-- `vshfl.idx`: the lane number stands in d (R182). -/
def execVshflIdx (d a : BitVec 7) (fa : Bool) (s : State) : Out :=
  crossUnit { v := [{ fd := a.toNat, tie := fa }, { fd := d.toNat }], vd := some (d.toNat, 1, false) } s
    fun w _ g l => shflVal w (g.v.getD 0 0) l ((w.vreg (g.v.getD 1 0) l).toNat % 32 : Nat)

/-! ## Scans and reductions (R183, R184) -/

/-- Operators of the table of R183. -/
inductive RedOp where
  | add | min | max | and | or
  deriving DecidableEq, Repr

/-- Types 0 i32, 1 ui32, 2 f32. Combine of two words, and the flags it raises. -/
def combine (op : RedOp) (t rnd x y : Nat) : Nat × Nat := match op with
  | .add => if t == 2 then fadd FP32 rnd x y else ((x + y) % 2 ^ 32, 0)
  | .min => if t == 2 then minMaxNum FP32 false x y
    else if t == 0 then (if signed 32 x ≤ signed 32 y then x else y, 0) else (min x y, 0)
  | .max => if t == 2 then minMaxNum FP32 true x y
    else if t == 0 then (if signed 32 x ≤ signed 32 y then y else x, 0) else (max x y, 0)
  | .and => (x &&& y, 0)
  | .or => (x ||| y, 0)

/-- Identity of an operator. -/
def redIdentity (op : RedOp) (t : Nat) : Nat := match op with
  | .add => 0
  | .min => if t == 2 then 0x7F800000 else if t == 0 then 0x7FFFFFFF else 0xFFFFFFFF
  | .max => if t == 2 then 0xFF800000 else if t == 0 then 0x80000000 else 0
  | .and => 0xFFFFFFFF
  | .or => 0

/-- A NaN delivered is canonical (R72, R183). -/
def canonF32 (t x : Nat) : Nat := if t == 2 && (unpack FP32 x).isNan then FP32.nan else x

/-- NV for a signalling NaN. -/
def sigFlag (t x : Nat) : Nat := if t == 2 && (unpack FP32 x).isSig then flNV else 0

/-- The scan of R183 over the listed lanes: per lane its value and flags. -/
def scanFrom (op : RedOp) (t rnd : Nat) (excl : Bool) (v : Nat → Nat) : Option Nat → List Nat → List (Nat × Nat × Nat)
  | _, [] => []
  | acc, l :: ls =>
    let (next, fl) := match acc with
      | none => (v l, 0)
      | some x => combine op t rnd x (v l)
    let out := if excl then (match acc with
      | none => redIdentity op t
      | some x => x) else next
    (l, canonF32 t out, fl ||| sigFlag t (v l)) :: scanFrom op t rnd excl v (some next) ls

/-- The entry of a lane in a scan. -/
def scanAt (r : List (Nat × Nat × Nat)) (l : Nat) : Nat × Nat := match r.find? fun x => x.1 == l with
  | some x => x.2
  | none => (0, 0)

/-- `vscan` (R183). `or` with `.f32` is no function (R122). -/
def execVscan (d a : BitVec 7) (e t : BitVec 1) (o : BitVec 2) (fa : Bool) (s : State) : Out :=
  let op : RedOp := if o == 0 then .add else if o == 1 then .min else if o == 2 then .max else .or
  let ty := if t == 1 then 2 else 0
  if o == 3 && t == 1 then illegalUnit 4 s
  else issueUnit 4 true s fun s wid _ w f => do
    noControl w
    let g ← getOpnds s wid w f { v := [{ fd := a.toNat, tie := fa }], vd := some (d.toNat, 1, false) }
    let r := scanFrom op ty (rndOf f.fmt) (e == 1) (fun l => (w.vreg (g.v.getD 0 0) l).toNat) none (lanesOf f.active)
    let s := writeV s wid g.vd 1 f.active fun l => [BitVec.ofNat 32 (scanAt r l).1]
    .ok (raiseFlags s wid f.active fun l => (scanAt r l).2)

/-- A node of the tree: its value, and the lowest active lane under it. -/
abbrev Node := Option (Nat × Nat)

/-- Join of R184, with the lane that raises its flags. -/
def joinNode (k : Nat → Nat → Nat × Nat) (x y : Node) : Node × List (Nat × Nat) := match x, y with
  | some (v, l), some (v', l') =>
    let (r, fl) := k v v'
    (some (r, min l l'), if fl == 0 then [] else [(min l l', fl)])
  | some a, none => (some a, [])
  | none, b => (b, [])

/-- One level of the tree: neighbours join. -/
def joinLevel (k : Nat → Nat → Nat × Nat) : List Node → List Node × List (Nat × Nat)
  | x :: y :: t =>
    let (n, fl) := joinNode k x y
    let (ns, fls) := joinLevel k t
    (n :: ns, fl ++ fls)
  | t => (t, [])

/-- The pairwise tree of R184 and R264 over 2^depth leaves. -/
def treeJoin (k : Nat → Nat → Nat × Nat) : Nat → List Node → Node × List (Nat × Nat)
  | 0, ns => (ns.headD none, [])
  | n + 1, ns =>
    let (ns, fl) := joinLevel k ns
    let (r, fl') := treeJoin k n ns
    (r, fl ++ fl')

/-- The result of a reduction of the lanes of a mask, and the flags each lane raises (R184). -/
def reduce (op : RedOp) (t rnd : Nat) (m : Word) (v : Nat → Word) : Word × (Nat → Nat) :=
  let leaves : List Node := (List.range 32).map fun l => if m.getLsbD l then some ((v l).toNat, l) else none
  let (r, fls) := treeJoin (combine op t rnd) 5 leaves
  let out := match r with
    | none => redIdentity op t
    | some (x, _) => canonF32 t x
  let lone := match r with
    | some (x, l) => if popc 32 m.toNat == 1 then [(l, sigFlag t x)] else []
    | none => []
  (BitVec.ofNat 32 out, fun l => ((fls ++ lone).filter fun x => x.1 == l).foldl (fun a x => a ||| x.2) 0)

/-- A reduction of the active lanes (R184). -/
def redUnit (op : RedOp) (t : Nat) (d a : BitVec 7) (fa : Bool) (s : State) : Out :=
  toScalar d a fa [] s fun f v _ => reduce op t (rndOf f.fmt) f.active v

/-- `vred.add`: types i32 and f32 (R122, R184). -/
def execVredAdd (d a : BitVec 7) (fa : Bool) (t : BitVec 3) (s : State) : Out :=
  if t == 0 || t == 2 then redUnit .add t.toNat d a fa s else illegalUnit 4 s

/-- `vred.min`: types i32, ui32 and f32 (R184). -/
def execVredMin (d a : BitVec 7) (fa : Bool) (t : BitVec 3) (s : State) : Out :=
  if t.toNat ≤ 2 then redUnit .min t.toNat d a fa s else illegalUnit 4 s

/-- `vred.max`: types i32, ui32 and f32 (R184). -/
def execVredMax (d a : BitVec 7) (fa : Bool) (t : BitVec 3) (s : State) : Out :=
  if t.toNat ≤ 2 then redUnit .max t.toNat d a fa s else illegalUnit 4 s

/-- `vred.and` (R184). -/
def execVredAnd (d a : BitVec 7) (fa : Bool) (s : State) : Out := redUnit .and 0 d a fa s

/-- `vred.or` (R184). -/
def execVredOr (d a : BitVec 7) (fa : Bool) (s : State) : Out := redUnit .or 0 d a fa s

/-! ## Ballot, match and compact (R185) -/

/-- `vballot` (R185). -/
def execVballot (d a : BitVec 7) (fa : Bool) (s : State) : Out :=
  toScalar d a fa [] s fun f v _ =>
    ((lanesOf f.active).foldl (fun m l => if v l == 0 then m else m ||| laneBit l) 0, fun _ => 0)

/-- `vmatch` (R185). -/
def execVmatch (d a : BitVec 7) (fa : Bool) (s : State) : Out :=
  crossUnit { v := [{ fd := a.toNat, tie := fa }], vd := some (d.toNat, 1, false) } s fun w f g l =>
    (lanesOf f.active).foldl (fun m k =>
      if w.vreg (g.v.getD 0 0) k == w.vreg (g.v.getD 0 0) l then m ||| laneBit k else m) 0

/-- `vcompact` (R185). -/
def execVcompact (d a : BitVec 7) (fa : Bool) (s : State) : Out :=
  crossUnit { v := [{ fd := a.toNat, tie := fa }], vd := some (d.toNat, 1, false) } s fun w f g l =>
    let act := lanesOf f.active
    let p := act.filter fun k => w.vreg (g.v.getD 0 0) k != 0
    BitVec.ofNat 32 (p.getD (act.idxOf l) 0xFFFFFFFF)

/-! ## Crossbar (R186 to R189) -/

/-- Entry `i` of a pattern table. -/
def Pattern.entry (p : Pattern) (i : Nat) : Nat := (p.data.extractLsb' (16 * i) 16).toNat

/-- `xbload`: waits for the wave's earlier scratch stores, then loads the table as one action (R188). -/
def execXbload (t : BitVec 4) (a : BitVec 8) (s : State) : Out :=
  issueUnit 4 true s fun s wid _ w f => do
    noControl w
    let g ← getOpnds s wid w f { s := [{ fd := a.toNat }] }
    let ad := g.s.getD 0 0
    scrCheck s w ad 256 128 false
    if scrStoresOut s wid s.nextId then .error (.hold .scratchBank s)
    else
      let p : Pattern := { owner := some (w.glade, w.ctx), data := BitVec.ofNat 2048 (scrGet s w.blk (partOf ad) (offOf ad) 256) }
      .ok (s.updCore w.core fun c => { c with tables := Tab.put c.tables t.toNat p })

/-- Byte j of a lane of `vxbar`. -/
def xbarByte (w : Wave) (p : Pattern) (a cnt lane j : Nat) : Nat :=
  let e := p.entry (4 * lane + j)
  if e / 2 ^ 15 == 1 || cnt ≤ bitsOf e 9 7 then 0
  else bitsOf (w.vreg (a + bitsOf e 9 7) (bitsOf e 6 2)).toNat (8 * bitsOf e 1 0 + 7) (8 * bitsOf e 1 0)

/-- `vxbar`: a table of no context, or of another, traps ILLEGAL_OP (R187, R189). -/
def execVxbar (d a : BitVec 7) (t : BitVec 4) (fa : Bool) (c : BitVec 3) (s : State) : Out :=
  let cnt := c.toNat + 1
  issueUnit 4 true s fun s wid _ w f => do
    noControl w
    let p := Tab.valD (s.coreSt w.core).tables t.toNat {}
    trapIf (p.owner != some (w.glade, w.ctx)) illegalOp
    let g ← getOpnds s wid w f { v := [{ fd := a.toNat, cnt := cnt, tie := fa }], vd := some (d.toNat, 1, false) }
    .ok (writeV s wid g.vd 1 f.active fun l =>
      [BitVec.ofNat 32 (ofBytes ((List.range 4).map fun j => BitVec.ofNat 8 (xbarByte w p (g.v.getD 0 0) cnt l j)))])

/-! ## The decoder (R191 to R196) -/

/-- The trap of a malformed block: its index and the reason (R195). -/
def badBlock {α : Type} (i reason : Nat) : Eff α := .error (.trap illegalOp (BitVec.ofNat 32 (i + 16 * reason)) 0)

/-- Lane values of ZRL tokens over literal words (R193). -/
def zrlVals (lit : Nat → Nat) : List Nat → Nat → List Nat
  | [], _ => []
  | t :: ts, k =>
    let n := t % 32 + 1
    if t / 128 == 1 then (range k n).map lit ++ zrlVals lit ts (k + n)
    else List.replicate n 0 ++ zrlVals lit ts k

/-- Lane values of SPX from lane `l` on (R193). -/
def spxVals (lit : Nat → Nat) (bm : Nat) : Nat → Nat → Nat → List Nat
  | 0, _, _ => []
  | n + 1, l, k => if bm / 2 ^ l % 2 == 1 then lit k :: spxVals lit bm n (l + 1) (k + 1) else 0 :: spxVals lit bm n (l + 1) k

/-- Checks block `i` of a stream at `a` and decodes it: its length and the 32 lane values (R192 to R195). Of several reasons the
first of these checks is reported, and the scratch check of a byte comes before its contents' (notes/assumptions 130). -/
def decodeBlock (s : State) (w : Wave) (i a : Nat) : Eff (Nat × List Nat) := do
  let rd := fun x n => scrGet s w.blk (partOf x) (offOf x) n
  scrCheck s w a 4 4 false
  let h := rd a 4
  let mode := bitsOf h 31 29
  let len := bitsOf h 26 16
  let param := bitsOf h 15 0
  let word := fun k => rd (a + 4 * k) 4
  let fin := fun (want : Nat) (vals : List Nat) => do
    if len != want then badBlock i 3
    else if mode != 0 && 132 ≤ want then badBlock i 4
    else
      scrCheck s w a want 4 false
      .ok (want, vals)
  if 4 ≤ mode then badBlock i 0
  else if bitsOf h 28 27 != 0 then badBlock i 1
  else if mode == 0 then
    if param != 0 then badBlock i 1
    else fin 132 ((List.range 32).map fun l => word (1 + l))
  else if mode == 1 then
    if bitsOf param 9 4 != 0 then badBlock i 1
    else
      let n := param % 16 + 1
      let bits := rd (a + 8) (4 * n)
      let val := fun l =>
        let x := bitsOf bits (n * l + n - 1) (n * l)
        let x := if bitsOf param 10 10 == 1 then wrap 32 (signed n x) else x
        (x * 2 ^ bitsOf param 15 11 + word 1) % 2 ^ 32
      fin (8 + 4 * n) ((List.range 32).map val)
  else if mode == 2 then
    if bitsOf param 15 6 != 0 then badBlock i 1
    else
      let nt := bitsOf param 5 0
      let pad := 4 * ((nt + 3) / 4)
      scrCheck s w a (4 + pad) 4 false
      let toks := (List.range pad).map fun k => rd (a + 4 + k) 1
      let used := toks.take nt
      if (used.any fun t => bitsOf t 6 5 != 0) || (toks.drop nt).any (· != 0) then badBlock i 1
      else if nt == 0 || (used.foldl (fun n t => n + t % 32 + 1) 0) != 32 then badBlock i 2
      else
        let lits := used.foldl (fun n t => if t / 128 == 1 then n + t % 32 + 1 else n) 0
        fin (4 + pad + 4 * lits) (zrlVals (fun k => rd (a + 4 + pad + 4 * k) 4) used 0)
  else if param != 0 then badBlock i 1
  else
    scrCheck s w a 8 4 false
    let bm := word 1
    fin (8 + 4 * popc 32 bm) (spxVals (fun k => word (2 + k)) bm 32 0 0)

/-- Decodes `n` consecutive blocks from index `i`. -/
def decodeStream (s : State) (w : Wave) : Nat → Nat → Nat → Eff (List (List Nat))
  | 0, _, _ => .ok []
  | n + 1, i, a => do
    let (len, vals) ← decodeBlock s w i a
    let rest ← decodeStream s w n (i + 1) (a + len)
    .ok (vals :: rest)

/-- The check of a `vdec` has ended: its operation delivers the blocks, or a malformed block's trap leaves the destinations as they
were before issue (R195, R196). -/
def endCheck (s : State) (wid eid : Nat) (w : Wave) (f : Frag) (dst n ad : Nat) : Eff State :=
  match decodeStream s w n 0 ad with
  | .error (.trap c a x) =>
    if f.held.isNone then .error (.trap c a x)
    else .error (.ended (takeTrap (s.updWave wid fun w => w.markFullV (range dst n)) wid eid c a x 0))
  | .error e => .error e
  | .ok vals => do
    let accs := vals.map fun ws => ({ data := ws.foldr (fun x acc => x + 2 ^ 32 * acc) 0 } : Acc)
    let (_, s) ← addOp s { mkOp wid eid w f .vdec none with accs := accs, dst := range dst n, scr := true }
    .ok (s.updWave wid fun w => w.markEmptyV (range dst n))

/-- `vdec`: it issues, its destinations become empty, and the stream is read and checked once the wave's earlier scratch stores have
reached their array; the destinations stay empty until VDEC_COMPLETE (R98, R191, R195, R196). -/
def execVdec (d : BitVec 7) (a : BitVec 8) (s : State) : Out :=
  issueUnit 4 true s fun s wid eid w f => do
    noControl w
    let h ← match f.held with
      | some h => .ok h
      | none => do
        let g ← getOpnds s wid w f { s := [{ fd := a.toNat }] }
        .ok { heldOr s f .none 10 (g.s.getD 0 0) 0 with b := s.nextId }
    let n := bitsOf h.a 26 24 + 1
    let ad := bitsOf h.a 23 0
    trapIf (ad % 4 != 0) misalign
    let r ← vecDst w f d.toNat n false
    if f.held.isNone then fullV s w (range r n) else pure ()
    if scrStoresOut s wid h.b then
      .error (.hold .decodeBusy ((s.updWave wid fun w => w.markEmptyV (range r n)).updFrag wid eid fun f => { f with held := some h }))
    else endCheck s wid eid w f r n ad

/-- VDEC_COMPLETE: the destinations receive their blocks in the lanes active at issue and become full (R196). -/
def execVdecComplete (op : Nat) (s : State) : Out := runEvent s do
  let o ← need (s.op? op) "VDEC_COMPLETE"
  require (o.kind == .vdec) "VDEC_COMPLETE"
  let val := fun i l => BitVec.ofNat 32 (((o.accs.getD i {}).data) / 2 ^ (32 * l))
  let s := completeLanes s op o val
  .ok (takeHalts s o.wid)

end Sys2Proof.Machine
end

