-- ==== Sys2Proof/WellFormed.lean ====
section
/-! DEFINITION. Which instructions can stand in memory: the EXT unit's fields are legal (R111) and the instruction
accepts its kind (R112). Every other illegal operand is a field value that the device decodes and then traps on, so
it is no matter of well-formedness but of the meanings. -/

namespace Sys2Proof

/-- Field values R111 allows in an EXT unit. -/
def Ext.legal (x : Ext) : Bool := match x with
  | .none => true
  | .imm _ => true
  | .ofs _ => true
  | .mem _ _ scope wit => scope != 3#2 && (wit == 0xFF#8 || (wit.toNat % 2 == 0 && wit.toNat <= 190))
  | .atom aop au scope _ => scope != 3#2 && aop.toNat <= 11 && (!au || aop == 2#4 || aop == 3#4)
  | .timeout _ => true

/-- How an instruction uses EXT units (R112, R242). -/
inductive ExtUse where
  /-- `sli`, `vli`. -/
  | imm
  /-- Global loads. -/
  | ld
  /-- Global stores: no WIT. -/
  | st
  /-- Scratch loads and stores: of MEM only the defaults. -/
  | ls
  /-- Copies and `pref`: MEM without WIT. -/
  | cpy
  /-- Atomics; the missing ATOM unit is trapped by the meaning. -/
  | atom
  /-- Waits. -/
  | to
  deriving DecidableEq, Repr

/-- Whether an instruction of use `k` accepts the EXT unit `x`, or none. -/
def ExtUse.accepts (k : ExtUse) (x : Ext) : Bool := match k, x with
  | _, .none => true
  | .imm, .imm _ => true
  | .ld, .ofs _ => true
  | .ld, .mem _ _ _ _ => true
  | .st, .ofs _ => true
  | .st, .mem _ _ _ wit => wit == 0xFF#8
  | .ls, .ofs _ => true
  | .ls, .mem rc pol scope wit => rc == 0#4 && pol == 0#2 && scope == 1#2 && wit == 0xFF#8
  | .cpy, .mem _ _ _ wit => wit == 0xFF#8
  | .atom, .atom _ _ _ _ => true
  | .to, .timeout _ => true
  | _, _ => false

/-- The EXT use and unit of an instruction that accepts one. -/
def Instr.ext? (i : Instr) : Option (ExtUse × Ext) := match i with
  | .sli x _ _ | .vli x _ _ => some (.imm, x)
  | .sldW x _ _ _ | .sldD x _ _ _ | .vldB x _ _ _ _ | .vldH x _ _ _ _ | .vldW x _ _ _ _ | .vldD x _ _ _ _
  | .vldQ x _ _ _ _ => some (.ld, x)
  | .sstW x _ _ _ | .sstD x _ _ _ | .vstB x _ _ _ _ | .vstH x _ _ _ _ | .vstW x _ _ _ _ | .vstD x _ _ _ _
  | .vstQ x _ _ _ _ => some (.st, x)
  | .satom x _ _ _ | .vatom x _ _ _ _ | .vatomRtn x _ _ _ _ => some (.atom, x)
  | .waitW x _ | .waitBar x _ _ | .waitGbar x _ _ | .waitRing x _ _ | .waitMon x _ _ | .tbar x _ | .tredAdd x _ _ _ _
  | .tredMin x _ _ _ _ | .tredMax x _ _ _ _ | .tredAnd x _ _ _ | .tredOr x _ _ _ | .tqpop x _ _ => some (.to, x)
  | .pref x _ _ | .vcopy4G2s x _ _ _ _ | .vcopy8G2s x _ _ _ _ | .vcopy16G2s x _ _ _ _ | .vcopy4S2g x _ _ _ _
  | .vcopy8S2g x _ _ _ _ | .vcopy16S2g x _ _ _ _ | .vcopy4G2g x _ _ _ _ | .vcopy8G2g x _ _ _ _ | .vcopy16G2g x _ _ _ _ => some (.cpy, x)
  | .vldsB x _ _ _ _ | .vldsH x _ _ _ _ | .vldsW x _ _ _ _ | .vldsD x _ _ _ _ | .vldsQ x _ _ _ _ | .vstsB x _ _ _ _
  | .vstsH x _ _ _ _ | .vstsW x _ _ _ _ | .vstsD x _ _ _ _ | .vstsQ x _ _ _ _ => some (.ls, x)
  | _ => none

/-- Rows of the opcode table that words encode; the constructors of the events follow theirs, from `hdoneSave` on. -/
def encodedRows : Nat := 305

/-- Whether a row is an event, which no words encode. -/
def Instr.isEvent (i : Instr) : Bool := decide (encodedRows ≤ i.ctorIdx)

/-- An instruction that stands in memory as words. -/
def Instr.wf (i : Instr) : Bool :=
  !i.isEvent && (match i.ext? with
    | none => true
    | some (k, x) => x.legal && k.accepts x)

end Sys2Proof
end

