-- ==== Sys2Proof/Decode.lean ====
section
/-! DEFINITION. Decoding units of bytes into instructions, total and refusing by name (R105 to R123), and the encoder
written from the same tables. The match arms follow the majors and functions of R113 to R122.
The decoders are marked noncomputable because Lean's compiler supports at most 245 constructors with fields; its kernel
evaluates them. -/

namespace Sys2Proof

/-- Why bytes are not an instruction (R110, R123). Every one of them makes the unit trap ILLEGAL_OP. -/
inductive DecErr where
  /-- Fewer bytes than the unit needs. -/
  | short
  /-- Major 0x37. -/
  | unassignedMajor
  /-- A function, type group, modifier or must-be-zero field that R106 to R122 do not assign. -/
  | unassigned
  /-- An EXT kind, reserved bit or field value that R111 does not allow. -/
  | badExt
  /-- An EXT unit before a 16-bit instruction, another EXT, or an instruction that does not accept its kind (R110). -/
  | extMisplaced
  deriving DecidableEq, Repr

/-! ## Layouts of R107 -/

/-- A trap-if-empty bit as a bit. -/
def bit (b : Bool) : BitVec 1 := if b then 1#1 else 0#1

def packV (maj : BitVec 7) (m fb fa : BitVec 1) (b a d : BitVec 7) : BitVec 32 := m ++ fb ++ fa ++ b ++ a ++ d ++ maj ++ 1#1
def packVS (maj : BitVec 7) (m fa : BitVec 1) (s : BitVec 8) (a d : BitVec 7) : BitVec 32 := m ++ fa ++ s ++ a ++ d ++ maj ++ 1#1
def packVF (maj : BitVec 7) (mod : BitVec 3) (fa : BitVec 1) (fn : BitVec 6) (a d : BitVec 7) : BitVec 32 :=
  mod ++ fa ++ fn ++ a ++ d ++ maj ++ 1#1
def packS (maj : BitVec 7) (b a d : BitVec 8) : BitVec 32 := b ++ a ++ d ++ maj ++ 1#1
def packSI (maj : BitVec 7) (i : BitVec 16) (d : BitVec 8) : BitVec 32 := i ++ d ++ maj ++ 1#1
def packJ (maj : BitVec 7) (o : BitVec 24) : BitVec 32 := o ++ maj ++ 1#1
def pack16 (op : BitVec 4) (b : BitVec 5) (d : BitVec 6) : BitVec 16 := b ++ d ++ op ++ 0#1

/-- The major opcode (R107). -/
def majorOf (w : BitVec 32) : BitVec 7 := w.extractLsb' 1 7

/-! ## EXT units (R110, R111) -/

/-- The word of an EXT unit. -/
def encodeExt (x : Ext) : BitVec 32 := match x with
  | .none => 0#32
  | .imm hi => packJ 0x7F#7 (0#4 ++ hi ++ 0#4)
  | .ofs o => packJ 0x7F#7 (o ++ 1#4)
  | .mem rc pol scope wit => packJ 0x7F#7 (rc ++ pol ++ scope ++ 0#4 ++ wit ++ 2#4)
  | .atom aop au scope o => packJ 0x7F#7 (aop ++ bit au ++ 0#1 ++ scope ++ o ++ 3#4)
  | .timeout n => packJ 0x7F#7 (n ++ 4#4)

/-- Reads an EXT payload. -/
def decodeExt (w : BitVec 32) : Except DecErr Ext :=
  let p := w.extractLsb' 8 24
  let x : Option Ext :=
    if p.extractLsb' 0 4 == 0#4 then
      if p.extractLsb' 20 4 == 0#4 then some (.imm (p.extractLsb' 4 16)) else none
    else if p.extractLsb' 0 4 == 1#4 then some (.ofs (p.extractLsb' 4 20))
    else if p.extractLsb' 0 4 == 2#4 then
      if p.extractLsb' 12 4 == 0#4 then
        some (.mem (p.extractLsb' 20 4) (p.extractLsb' 18 2) (p.extractLsb' 16 2) (p.extractLsb' 4 8)) else none
    else if p.extractLsb' 0 4 == 3#4 then
      if p.extractLsb' 18 1 == 0#1 then
        some (.atom (p.extractLsb' 20 4) (p.extractLsb' 19 1 == 1#1) (p.extractLsb' 16 2) (p.extractLsb' 4 12)) else none
    else if p.extractLsb' 0 4 == 4#4 then some (.timeout (p.extractLsb' 4 20))
    else none
  match x with
  | some x => if x.legal then .ok x else .error .badExt
  | none => .error .badExt

/-- An instruction that accepts no EXT unit. -/
def noExt (x : Ext) (i : Instr) : Except DecErr Instr := if x = .none then .ok i else .error .extMisplaced

/-- An instruction that accepts the kinds of `k`. -/
def withExt (k : ExtUse) (x : Ext) (i : Instr) : Except DecErr Instr :=
  if k.accepts x then .ok i else .error .extMisplaced

/-! ## 32-bit instructions, by major (R113) -/

/-- Major 0x00. -/
def dec00 (x0 : Ext) (b : BitVec 8) (a : BitVec 8) (d : BitVec 8) : Except DecErr Instr :=
  noExt x0 (.sadd d a b)

/-- Major 0x01. -/
def dec01 (x0 : Ext) (b : BitVec 8) (a : BitVec 8) (d : BitVec 8) : Except DecErr Instr :=
  noExt x0 (.ssub d a b)

/-- Major 0x02. -/
def dec02 (x0 : Ext) (b : BitVec 8) (a : BitVec 8) (d : BitVec 8) : Except DecErr Instr :=
  noExt x0 (.smul d a b)

/-- Major 0x03. -/
def dec03 (x0 : Ext) (b : BitVec 8) (a : BitVec 8) (d : BitVec 8) : Except DecErr Instr :=
  noExt x0 (.smulh d a b)

/-- Major 0x04. -/
def dec04 (x0 : Ext) (b : BitVec 8) (a : BitVec 8) (d : BitVec 8) : Except DecErr Instr :=
  noExt x0 (.smulhu d a b)

/-- Major 0x05. -/
def dec05 (x0 : Ext) (b : BitVec 8) (a : BitVec 8) (d : BitVec 8) : Except DecErr Instr :=
  noExt x0 (.sand d a b)

/-- Major 0x06. -/
def dec06 (x0 : Ext) (b : BitVec 8) (a : BitVec 8) (d : BitVec 8) : Except DecErr Instr :=
  noExt x0 (.sor d a b)

/-- Major 0x07. -/
def dec07 (x0 : Ext) (b : BitVec 8) (a : BitVec 8) (d : BitVec 8) : Except DecErr Instr :=
  noExt x0 (.sxor d a b)

/-- Major 0x08. -/
def dec08 (x0 : Ext) (b : BitVec 8) (a : BitVec 8) (d : BitVec 8) : Except DecErr Instr :=
  noExt x0 (.sandn d a b)

/-- Major 0x09. -/
def dec09 (x0 : Ext) (b : BitVec 8) (a : BitVec 8) (d : BitVec 8) : Except DecErr Instr :=
  noExt x0 (.sshl d a b)

/-- Major 0x0A. -/
def dec0A (x0 : Ext) (b : BitVec 8) (a : BitVec 8) (d : BitVec 8) : Except DecErr Instr :=
  noExt x0 (.sshr d a b)

/-- Major 0x0B. -/
def dec0B (x0 : Ext) (b : BitVec 8) (a : BitVec 8) (d : BitVec 8) : Except DecErr Instr :=
  noExt x0 (.ssra d a b)

/-- Major 0x0C. -/
def dec0C (x0 : Ext) (b : BitVec 8) (a : BitVec 8) (d : BitVec 8) : Except DecErr Instr :=
  noExt x0 (.srot d a b)

/-- Major 0x0D. -/
def dec0D (x0 : Ext) (b : BitVec 8) (a : BitVec 8) (d : BitVec 8) : Except DecErr Instr :=
  noExt x0 (.smin d a b)

/-- Major 0x0E. -/
def dec0E (x0 : Ext) (b : BitVec 8) (a : BitVec 8) (d : BitVec 8) : Except DecErr Instr :=
  noExt x0 (.smax d a b)

/-- Major 0x0F. -/
def dec0F (x0 : Ext) (b : BitVec 8) (a : BitVec 8) (d : BitVec 8) : Except DecErr Instr :=
  noExt x0 (.sminu d a b)

/-- Major 0x10. -/
def dec10 (x0 : Ext) (b : BitVec 8) (a : BitVec 8) (d : BitVec 8) : Except DecErr Instr :=
  noExt x0 (.smaxu d a b)

/-- Major 0x11. -/
def dec11 (x0 : Ext) (b : BitVec 8) (a : BitVec 8) (d : BitVec 8) : Except DecErr Instr :=
  noExt x0 (.scmpEq d a b)

/-- Major 0x12. -/
def dec12 (x0 : Ext) (b : BitVec 8) (a : BitVec 8) (d : BitVec 8) : Except DecErr Instr :=
  noExt x0 (.scmpNe d a b)

/-- Major 0x13. -/
def dec13 (x0 : Ext) (b : BitVec 8) (a : BitVec 8) (d : BitVec 8) : Except DecErr Instr :=
  noExt x0 (.scmpLt d a b)

/-- Major 0x14. -/
def dec14 (x0 : Ext) (b : BitVec 8) (a : BitVec 8) (d : BitVec 8) : Except DecErr Instr :=
  noExt x0 (.scmpLe d a b)

/-- Major 0x15. -/
def dec15 (x0 : Ext) (b : BitVec 8) (a : BitVec 8) (d : BitVec 8) : Except DecErr Instr :=
  noExt x0 (.scmpLtu d a b)

/-- Major 0x16. -/
def dec16 (x0 : Ext) (b : BitVec 8) (a : BitVec 8) (d : BitVec 8) : Except DecErr Instr :=
  noExt x0 (.scmpLeu d a b)

/-- Major 0x17. -/
def dec17 (x0 : Ext) (b : BitVec 8) (a : BitVec 8) (d : BitVec 8) : Except DecErr Instr :=
  noExt x0 (.ssel d a b)

/-- Major 0x18. -/
def dec18 (x0 : Ext) (b : BitVec 8) (a : BitVec 8) (d : BitVec 8) : Except DecErr Instr :=
  noExt x0 (.sbfe d a b)

/-- Major 0x19. -/
def dec19 (x0 : Ext) (b : BitVec 8) (a : BitVec 8) (d : BitVec 8) : Except DecErr Instr :=
  noExt x0 (.sbfi d a b)

/-- Major 0x1A. -/
def dec1A (x0 : Ext) (b : BitVec 8) (a : BitVec 8) (d : BitVec 8) : Except DecErr Instr :=
  noExt x0 (.sadd64 d a b)

/-- Major 0x1B. -/
def dec1B (x0 : Ext) (b : BitVec 8) (a : BitVec 8) (d : BitVec 8) : Except DecErr Instr :=
  noExt x0 (.ssub64 d a b)

/-- Major 0x1C. -/
def dec1C (x0 : Ext) (b : BitVec 8) (a : BitVec 8) (d : BitVec 8) : Except DecErr Instr :=
  noExt x0 (.sshl64 d a b)

/-- Major 0x1D. -/
def dec1D (x0 : Ext) (b : BitVec 8) (a : BitVec 8) (d : BitVec 8) : Except DecErr Instr :=
  noExt x0 (.sshr64 d a b)

/-- Major 0x1E. -/
def dec1E (x0 : Ext) (b : BitVec 8) (a : BitVec 8) (d : BitVec 8) : Except DecErr Instr :=
  noExt x0 (.smul64 d a b)

/-- Major 0x1F. -/
def dec1F (x0 : Ext) (b : BitVec 8) (a : BitVec 8) (d : BitVec 8) : Except DecErr Instr :=
  if b == 0#8 then noExt x0 (.smov d a)
  else if b == 1#8 then noExt x0 (.sabs d a)
  else if b == 2#8 then noExt x0 (.spopc d a)
  else if b == 3#8 then noExt x0 (.sclz d a)
  else if b == 4#8 then noExt x0 (.sctz d a)
  else if b == 5#8 then noExt x0 (.sffs d a)
  else if b == 8#8 && d == 0#8 then noExt x0 (.sfmt a)
  else if b == 9#8 && a == 0#8 then noExt x0 (.sfmtr d)
  else if b == 10#8 && a == 0#8 then noExt x0 (.sflags d)
  else if b == 11#8 && a == 0#8 then noExt x0 (.smrd d)
  else if b == 12#8 && d == 0#8 then noExt x0 (.smwr a)
  else if b == 16#8 && (d.extractLsb' 1 7) == 0#7 then noExt x0 (.sxset (d.extractLsb' 0 1) a)
  else if b == 17#8 && (d.extractLsb' 1 7) == 0#7 then noExt x0 (.sxadd (d.extractLsb' 0 1) a)
  else .error .unassigned

/-- Major 0x20. -/
def dec20 (x0 : Ext) (i : BitVec 16) (d : BitVec 8) : Except DecErr Instr :=
  withExt .imm x0 (.sli x0 d i)

/-- Major 0x21. -/
def dec21 (x0 : Ext) (i : BitVec 16) (d : BitVec 8) : Except DecErr Instr :=
  noExt x0 (.slih d i)

/-- Major 0x22. -/
def dec22 (x0 : Ext) (o : BitVec 24) : Except DecErr Instr :=
  noExt x0 (.jmp o)

/-- Major 0x23. -/
def dec23 (x0 : Ext) (o : BitVec 24) : Except DecErr Instr :=
  noExt x0 (.call o)

/-- Major 0x24. -/
def dec24 (x0 : Ext) (o : BitVec 24) : Except DecErr Instr :=
  noExt x0 (.rjset o)

/-- Major 0x25. -/
def dec25 (x0 : Ext) (i : BitVec 16) (d : BitVec 8) : Except DecErr Instr :=
  noExt x0 (.bz d i)

/-- Major 0x26. -/
def dec26 (x0 : Ext) (i : BitVec 16) (d : BitVec 8) : Except DecErr Instr :=
  noExt x0 (.bnz d i)

/-- Major 0x27. -/
def dec27 (x0 : Ext) (i : BitVec 16) (d : BitVec 8) : Except DecErr Instr :=
  noExt x0 (.vbr d i)

/-- Major 0x28. -/
def dec28 (x0 : Ext) (i : BitVec 16) (d : BitVec 8) : Except DecErr Instr :=
  noExt x0 (.vbrall d i)

/-- Major 0x29. -/
def dec29 (x0 : Ext) (i : BitVec 16) (d : BitVec 8) : Except DecErr Instr :=
  noExt x0 (.vbrany d i)

/-- Major 0x2A. -/
def dec2A (x0 : Ext) (b : BitVec 8) (a : BitVec 8) (d : BitVec 8) : Except DecErr Instr :=
  if b == 0#8 && a == 0#8 && d == 0#8 then noExt x0 (.nop)
  else if b == 1#8 && a == 0#8 && d == 0#8 then noExt x0 (.exit)
  else if b == 2#8 && a == 0#8 && d == 0#8 then noExt x0 (.yield)
  else if b == 3#8 && d == 0#8 then noExt x0 (.sleep a)
  else if b == 4#8 && d == 0#8 then noExt x0 (.jr a)
  else if b == 5#8 && d == 0#8 then noExt x0 (.ret a)
  else if b == 6#8 && d == 0#8 then noExt x0 (.trap a)
  else if b == 7#8 && a == 0#8 && d == 0#8 then noExt x0 (.rett)
  else if b == 8#8 && a == 0#8 then noExt x0 (.clock d)
  else if b == 16#8 then noExt x0 (.sysrd d a)
  else if b == 17#8 then noExt x0 (.syswr d a)
  else if b == 18#8 then noExt x0 (.hidrd d a)
  else if b == 19#8 then noExt x0 (.hidwr d a)
  else if b == 32#8 then noExt x0 (.launch d a)
  else if b == 33#8 then noExt x0 (.pass d a)
  else .error .unassigned

/-- Major 0x2B. -/
def dec2B (x0 : Ext) (b : BitVec 8) (a : BitVec 8) (d : BitVec 8) : Except DecErr Instr :=
  noExt x0 (.wmerge d a b)

/-- Major 0x2C. -/
def dec2C (x0 : Ext) (b : BitVec 8) (a : BitVec 8) (d : BitVec 8) : Except DecErr Instr :=
  withExt .ld x0 (.sldW x0 d a b)

/-- Major 0x2D. -/
def dec2D (x0 : Ext) (b : BitVec 8) (a : BitVec 8) (d : BitVec 8) : Except DecErr Instr :=
  withExt .ld x0 (.sldD x0 d a b)

/-- Major 0x2E. -/
def dec2E (x0 : Ext) (b : BitVec 8) (a : BitVec 8) (d : BitVec 8) : Except DecErr Instr :=
  withExt .st x0 (.sstW x0 d a b)

/-- Major 0x2F. -/
def dec2F (x0 : Ext) (b : BitVec 8) (a : BitVec 8) (d : BitVec 8) : Except DecErr Instr :=
  withExt .st x0 (.sstD x0 d a b)

/-- Major 0x30. -/
def dec30 (x0 : Ext) (b : BitVec 8) (a : BitVec 8) (d : BitVec 8) : Except DecErr Instr :=
  withExt .atom x0 (.satom x0 d a b)

/-- Major 0x31. -/
def dec31 (x0 : Ext) (b : BitVec 8) (a : BitVec 8) (d : BitVec 8) : Except DecErr Instr :=
  if b == 0#8 && a == 0#8 then noExt x0 (.wnull d)
  else if b == 1#8 && a == 0#8 then noExt x0 (.wcur d)
  else if b == 2#8 then noExt x0 (.wtest d a)
  else if b == 3#8 && d == 0#8 then withExt .to x0 (.waitW x0 a)
  else if b == 4#8 then withExt .to x0 (.waitBar x0 d a)
  else if b == 5#8 then withExt .to x0 (.waitGbar x0 d a)
  else if b == 6#8 then withExt .to x0 (.waitRing x0 d a)
  else if b == 7#8 then withExt .to x0 (.waitMon x0 d a)
  else if b == 8#8 && (a.extractLsb' 6 2) == 0#2 && (d.extractLsb' 3 5) == 0#5 then noExt x0 (.waitcnt (d.extractLsb' 0 3) (a.extractLsb' 0 6))
  else if b == 16#8 then noExt x0 (.barinit d a)
  else if b == 17#8 && d == 0#8 then noExt x0 (.barrive a)
  else if b == 18#8 then noExt x0 (.barexpect d a)
  else if b == 19#8 && d == 0#8 then noExt x0 (.gbarrive a)
  else if b == 24#8 then noExt x0 (.ringinit d a)
  else if b == 25#8 then noExt x0 (.rrel d a)
  else if b == 32#8 && (a.extractLsb' 2 6) == 0#6 && d == 0#8 then withExt .to x0 (.tbar x0 (a.extractLsb' 0 2))
  else if b == 33#8 then withExt .to x0 (.tredAdd x0 d (a.extractLsb' 0 2) (a.extractLsb' 2 3) (a.extractLsb' 5 3))
  else if b == 34#8 then withExt .to x0 (.tredMin x0 d (a.extractLsb' 0 2) (a.extractLsb' 2 3) (a.extractLsb' 5 3))
  else if b == 35#8 then withExt .to x0 (.tredMax x0 d (a.extractLsb' 0 2) (a.extractLsb' 2 3) (a.extractLsb' 5 3))
  else if b == 36#8 && (a.extractLsb' 5 3) == 0#3 then withExt .to x0 (.tredAnd x0 d (a.extractLsb' 0 2) (a.extractLsb' 2 3))
  else if b == 37#8 && (a.extractLsb' 5 3) == 0#3 then withExt .to x0 (.tredOr x0 d (a.extractLsb' 0 2) (a.extractLsb' 2 3))
  else if b == 48#8 then noExt x0 (.tqinit d a)
  else if b == 49#8 then noExt x0 (.tqpush d a)
  else if b == 50#8 then withExt .to x0 (.tqpop x0 d a)
  else if b == 56#8 then noExt x0 (.cinv d a)
  else if b == 57#8 then noExt x0 (.cwb d a)
  else if b == 58#8 then withExt .cpy x0 (.pref x0 d a)
  else .error .unassigned

/-- Major 0x32. -/
def dec32 (x0 : Ext) (b : BitVec 8) (a : BitVec 8) (d : BitVec 8) : Except DecErr Instr :=
  if b == 0#8 then noExt x0 (.wdesc d a)
  else if b == 1#8 && d == 0#8 then noExt x0 (.wload a)
  else if b == 2#8 && d == 0#8 then noExt x0 (.wfree a)
  else if b == 8#8 && (d.extractLsb' 4 4) == 0#4 then noExt x0 (.accst (d.extractLsb' 0 4) a)
  else .error .unassigned

/-- Major 0x33. -/
def dec33 (x0 : Ext) (b : BitVec 8) (a : BitVec 8) (d : BitVec 8) : Except DecErr Instr :=
  if b == 0#8 && d == 0#8 then noExt x0 (.scabort a)
  else if b == 1#8 then noExt x0 (.scinval d a)
  else if b == 2#8 && d == 0#8 then noExt x0 (.scframe a)
  else if b == 3#8 then noExt x0 (.scstat d a)
  else .error .unassigned

/-- Major 0x34. -/
def dec34 (x0 : Ext) (b : BitVec 8) (a : BitVec 8) (d : BitVec 8) : Except DecErr Instr :=
  if b == 0#8 && (d.extractLsb' 4 4) == 0#4 then noExt x0 (.wpset (d.extractLsb' 0 4) a)
  else if b == 1#8 && (a.extractLsb' 4 4) == 0#4 then noExt x0 (.wpget d (a.extractLsb' 0 4))
  else if b == 2#8 && d == 0#8 then noExt x0 (.dhalt a)
  else if b == 3#8 && d == 0#8 then noExt x0 (.dresume a)
  else if b == 4#8 && d == 0#8 then noExt x0 (.dstep a)
  else if b == 5#8 then noExt x0 (.dlist d a)
  else if b == 6#8 then noExt x0 (.drdv d a)
  else if b == 7#8 then noExt x0 (.dwrv d a)
  else if b == 8#8 then noExt x0 (.drds d a)
  else if b == 9#8 then noExt x0 (.dwrs d a)
  else .error .unassigned

/-- Major 0x35. -/
def dec35 (x0 : Ext) (i : BitVec 16) (d : BitVec 8) : Except DecErr Instr :=
  withExt .imm x0 (.vli x0 d i)

/-- Major 0x36. -/
def dec36 (x0 : Ext) (m : BitVec 1) (fa : BitVec 1) (s : BitVec 8) (a : BitVec 7) (d : BitVec 7) : Except DecErr Instr :=
  if m == 0#1 then noExt x0 (.trace d a s (fa == 1#1))
  else .error .unassigned

/-- Major 0x38. -/
def dec38 (x0 : Ext) (m : BitVec 1) (fb : BitVec 1) (fa : BitVec 1) (b : BitVec 7) (a : BitVec 7) (d : BitVec 7) : Except DecErr Instr :=
  if m == 0#1 then noExt x0 (.vaddI32 d a b (fa == 1#1) (fb == 1#1))
  else if m == 1#1 then noExt x0 (.vsubI32 d a b (fa == 1#1) (fb == 1#1))
  else .error .unassigned

/-- Major 0x39. -/
def dec39 (x0 : Ext) (m : BitVec 1) (fb : BitVec 1) (fa : BitVec 1) (b : BitVec 7) (a : BitVec 7) (d : BitVec 7) : Except DecErr Instr :=
  if m == 0#1 then noExt x0 (.vmulI32 d a b (fa == 1#1) (fb == 1#1))
  else .error .unassigned

/-- Major 0x3A. -/
def dec3A (x0 : Ext) (m : BitVec 1) (fb : BitVec 1) (fa : BitVec 1) (b : BitVec 7) (a : BitVec 7) (d : BitVec 7) : Except DecErr Instr :=
  if m == 0#1 then noExt x0 (.vmulhI32 d a b (fa == 1#1) (fb == 1#1))
  else if m == 1#1 then noExt x0 (.vmulhUi32 d a b (fa == 1#1) (fb == 1#1))
  else .error .unassigned

/-- Major 0x3B. -/
def dec3B (x0 : Ext) (m : BitVec 1) (fb : BitVec 1) (fa : BitVec 1) (b : BitVec 7) (a : BitVec 7) (d : BitVec 7) : Except DecErr Instr :=
  if m == 0#1 then noExt x0 (.vmadI32 d a b (fa == 1#1) (fb == 1#1))
  else .error .unassigned

/-- Major 0x3C. -/
def dec3C (x0 : Ext) (m : BitVec 1) (fb : BitVec 1) (fa : BitVec 1) (b : BitVec 7) (a : BitVec 7) (d : BitVec 7) : Except DecErr Instr :=
  if m == 0#1 then noExt x0 (.vaddsatI32 d a b (fa == 1#1) (fb == 1#1))
  else if m == 1#1 then noExt x0 (.vaddsatUi32 d a b (fa == 1#1) (fb == 1#1))
  else .error .unassigned

/-- Major 0x3D. -/
def dec3D (x0 : Ext) (m : BitVec 1) (fb : BitVec 1) (fa : BitVec 1) (b : BitVec 7) (a : BitVec 7) (d : BitVec 7) : Except DecErr Instr :=
  if m == 0#1 then noExt x0 (.vsubsatI32 d a b (fa == 1#1) (fb == 1#1))
  else if m == 1#1 then noExt x0 (.vsubsatUi32 d a b (fa == 1#1) (fb == 1#1))
  else .error .unassigned

/-- Major 0x3E. -/
def dec3E (x0 : Ext) (m : BitVec 1) (fb : BitVec 1) (fa : BitVec 1) (b : BitVec 7) (a : BitVec 7) (d : BitVec 7) : Except DecErr Instr :=
  if m == 0#1 then noExt x0 (.vminI32 d a b (fa == 1#1) (fb == 1#1))
  else if m == 1#1 then noExt x0 (.vminUi32 d a b (fa == 1#1) (fb == 1#1))
  else .error .unassigned

/-- Major 0x3F. -/
def dec3F (x0 : Ext) (m : BitVec 1) (fb : BitVec 1) (fa : BitVec 1) (b : BitVec 7) (a : BitVec 7) (d : BitVec 7) : Except DecErr Instr :=
  if m == 0#1 then noExt x0 (.vmaxI32 d a b (fa == 1#1) (fb == 1#1))
  else if m == 1#1 then noExt x0 (.vmaxUi32 d a b (fa == 1#1) (fb == 1#1))
  else .error .unassigned

/-- Major 0x40. -/
def dec40 (x0 : Ext) (m : BitVec 1) (fb : BitVec 1) (fa : BitVec 1) (b : BitVec 7) (a : BitVec 7) (d : BitVec 7) : Except DecErr Instr :=
  if m == 0#1 then noExt x0 (.vand d a b (fa == 1#1) (fb == 1#1))
  else if m == 1#1 then noExt x0 (.vor d a b (fa == 1#1) (fb == 1#1))
  else .error .unassigned

/-- Major 0x41. -/
def dec41 (x0 : Ext) (m : BitVec 1) (fb : BitVec 1) (fa : BitVec 1) (b : BitVec 7) (a : BitVec 7) (d : BitVec 7) : Except DecErr Instr :=
  if m == 0#1 then noExt x0 (.vxor d a b (fa == 1#1) (fb == 1#1))
  else if m == 1#1 then noExt x0 (.vandn d a b (fa == 1#1) (fb == 1#1))
  else .error .unassigned

/-- Major 0x42. -/
def dec42 (x0 : Ext) (m : BitVec 1) (fb : BitVec 1) (fa : BitVec 1) (b : BitVec 7) (a : BitVec 7) (d : BitVec 7) : Except DecErr Instr :=
  if m == 0#1 then noExt x0 (.vshl d a b (fa == 1#1) (fb == 1#1))
  else if m == 1#1 then noExt x0 (.vrot d a b (fa == 1#1) (fb == 1#1))
  else .error .unassigned

/-- Major 0x43. -/
def dec43 (x0 : Ext) (m : BitVec 1) (fb : BitVec 1) (fa : BitVec 1) (b : BitVec 7) (a : BitVec 7) (d : BitVec 7) : Except DecErr Instr :=
  if m == 0#1 then noExt x0 (.vshr d a b (fa == 1#1) (fb == 1#1))
  else if m == 1#1 then noExt x0 (.vsra d a b (fa == 1#1) (fb == 1#1))
  else .error .unassigned

/-- Major 0x44. -/
def dec44 (x0 : Ext) (m : BitVec 1) (fb : BitVec 1) (fa : BitVec 1) (b : BitVec 7) (a : BitVec 7) (d : BitVec 7) : Except DecErr Instr :=
  if m == 0#1 then noExt x0 (.vbfeUi32 d a b (fa == 1#1) (fb == 1#1))
  else if m == 1#1 then noExt x0 (.vbfeI32 d a b (fa == 1#1) (fb == 1#1))
  else .error .unassigned

/-- Major 0x45. -/
def dec45 (x0 : Ext) (m : BitVec 1) (fb : BitVec 1) (fa : BitVec 1) (b : BitVec 7) (a : BitVec 7) (d : BitVec 7) : Except DecErr Instr :=
  if m == 0#1 then noExt x0 (.vbfi d a b (fa == 1#1) (fb == 1#1))
  else .error .unassigned

/-- Major 0x46. -/
def dec46 (x0 : Ext) (m : BitVec 1) (fb : BitVec 1) (fa : BitVec 1) (b : BitVec 7) (a : BitVec 7) (d : BitVec 7) : Except DecErr Instr :=
  if m == 0#1 then noExt x0 (.vaddF32 d a b (fa == 1#1) (fb == 1#1))
  else if m == 1#1 then noExt x0 (.vsubF32 d a b (fa == 1#1) (fb == 1#1))
  else .error .unassigned

/-- Major 0x47. -/
def dec47 (x0 : Ext) (m : BitVec 1) (fb : BitVec 1) (fa : BitVec 1) (b : BitVec 7) (a : BitVec 7) (d : BitVec 7) : Except DecErr Instr :=
  if m == 0#1 then noExt x0 (.vaddF64 d a b (fa == 1#1) (fb == 1#1))
  else if m == 1#1 then noExt x0 (.vsubF64 d a b (fa == 1#1) (fb == 1#1))
  else .error .unassigned

/-- Major 0x48. -/
def dec48 (x0 : Ext) (m : BitVec 1) (fb : BitVec 1) (fa : BitVec 1) (b : BitVec 7) (a : BitVec 7) (d : BitVec 7) : Except DecErr Instr :=
  if m == 0#1 then noExt x0 (.vmulF32 d a b (fa == 1#1) (fb == 1#1))
  else if m == 1#1 then noExt x0 (.vmulF64 d a b (fa == 1#1) (fb == 1#1))
  else .error .unassigned

/-- Major 0x49. -/
def dec49 (x0 : Ext) (m : BitVec 1) (fb : BitVec 1) (fa : BitVec 1) (b : BitVec 7) (a : BitVec 7) (d : BitVec 7) : Except DecErr Instr :=
  if m == 0#1 then noExt x0 (.vfmaF32 d a b (fa == 1#1) (fb == 1#1))
  else if m == 1#1 then noExt x0 (.vfmaF64 d a b (fa == 1#1) (fb == 1#1))
  else .error .unassigned

/-- Major 0x4A. -/
def dec4A (x0 : Ext) (m : BitVec 1) (fb : BitVec 1) (fa : BitVec 1) (b : BitVec 7) (a : BitVec 7) (d : BitVec 7) : Except DecErr Instr :=
  if m == 0#1 then noExt x0 (.vminF32 d a b (fa == 1#1) (fb == 1#1))
  else if m == 1#1 then noExt x0 (.vmaxF32 d a b (fa == 1#1) (fb == 1#1))
  else .error .unassigned

/-- Major 0x4B. -/
def dec4B (x0 : Ext) (m : BitVec 1) (fb : BitVec 1) (fa : BitVec 1) (b : BitVec 7) (a : BitVec 7) (d : BitVec 7) : Except DecErr Instr :=
  if m == 0#1 then noExt x0 (.vdivF32 d a b (fa == 1#1) (fb == 1#1))
  else if m == 1#1 then noExt x0 (.vdivF64 d a b (fa == 1#1) (fb == 1#1))
  else .error .unassigned

/-- Major 0x4C. -/
def dec4C (x0 : Ext) (m : BitVec 1) (fb : BitVec 1) (fa : BitVec 1) (b : BitVec 7) (a : BitVec 7) (d : BitVec 7) : Except DecErr Instr :=
  if m == 0#1 then noExt x0 (.vaddF16x2 d a b (fa == 1#1) (fb == 1#1))
  else if m == 1#1 then noExt x0 (.vaddBf16x2 d a b (fa == 1#1) (fb == 1#1))
  else .error .unassigned

/-- Major 0x4D. -/
def dec4D (x0 : Ext) (m : BitVec 1) (fb : BitVec 1) (fa : BitVec 1) (b : BitVec 7) (a : BitVec 7) (d : BitVec 7) : Except DecErr Instr :=
  if m == 0#1 then noExt x0 (.vmulF16x2 d a b (fa == 1#1) (fb == 1#1))
  else if m == 1#1 then noExt x0 (.vmulBf16x2 d a b (fa == 1#1) (fb == 1#1))
  else .error .unassigned

/-- Major 0x4E. -/
def dec4E (x0 : Ext) (m : BitVec 1) (fb : BitVec 1) (fa : BitVec 1) (b : BitVec 7) (a : BitVec 7) (d : BitVec 7) : Except DecErr Instr :=
  if m == 0#1 then noExt x0 (.vfmaF16x2 d a b (fa == 1#1) (fb == 1#1))
  else if m == 1#1 then noExt x0 (.vfmaBf16x2 d a b (fa == 1#1) (fb == 1#1))
  else .error .unassigned

/-- Major 0x4F. -/
def dec4F (x0 : Ext) (m : BitVec 1) (fb : BitVec 1) (fa : BitVec 1) (b : BitVec 7) (a : BitVec 7) (d : BitVec 7) : Except DecErr Instr :=
  if m == 0#1 then noExt x0 (.vminF16x2 d a b (fa == 1#1) (fb == 1#1))
  else if m == 1#1 then noExt x0 (.vminBf16x2 d a b (fa == 1#1) (fb == 1#1))
  else .error .unassigned

/-- Major 0x50. -/
def dec50 (x0 : Ext) (m : BitVec 1) (fb : BitVec 1) (fa : BitVec 1) (b : BitVec 7) (a : BitVec 7) (d : BitVec 7) : Except DecErr Instr :=
  if m == 0#1 then noExt x0 (.vmaxF16x2 d a b (fa == 1#1) (fb == 1#1))
  else if m == 1#1 then noExt x0 (.vmaxBf16x2 d a b (fa == 1#1) (fb == 1#1))
  else .error .unassigned

/-- Major 0x51. -/
def dec51 (x0 : Ext) (m : BitVec 1) (fb : BitVec 1) (fa : BitVec 1) (b : BitVec 7) (a : BitVec 7) (d : BitVec 7) : Except DecErr Instr :=
  if m == 0#1 then noExt x0 (.vcmpEqI32 d a b (fa == 1#1) (fb == 1#1))
  else if m == 1#1 then noExt x0 (.vcmpNeI32 d a b (fa == 1#1) (fb == 1#1))
  else .error .unassigned

/-- Major 0x52. -/
def dec52 (x0 : Ext) (m : BitVec 1) (fb : BitVec 1) (fa : BitVec 1) (b : BitVec 7) (a : BitVec 7) (d : BitVec 7) : Except DecErr Instr :=
  if m == 0#1 then noExt x0 (.vcmpLtI32 d a b (fa == 1#1) (fb == 1#1))
  else if m == 1#1 then noExt x0 (.vcmpLtUi32 d a b (fa == 1#1) (fb == 1#1))
  else .error .unassigned

/-- Major 0x53. -/
def dec53 (x0 : Ext) (m : BitVec 1) (fb : BitVec 1) (fa : BitVec 1) (b : BitVec 7) (a : BitVec 7) (d : BitVec 7) : Except DecErr Instr :=
  if m == 0#1 then noExt x0 (.vcmpLeI32 d a b (fa == 1#1) (fb == 1#1))
  else if m == 1#1 then noExt x0 (.vcmpLeUi32 d a b (fa == 1#1) (fb == 1#1))
  else .error .unassigned

/-- Major 0x54. -/
def dec54 (x0 : Ext) (m : BitVec 1) (fb : BitVec 1) (fa : BitVec 1) (b : BitVec 7) (a : BitVec 7) (d : BitVec 7) : Except DecErr Instr :=
  if m == 0#1 then noExt x0 (.vcmpEqF32 d a b (fa == 1#1) (fb == 1#1))
  else if m == 1#1 then noExt x0 (.vcmpEqF64 d a b (fa == 1#1) (fb == 1#1))
  else .error .unassigned

/-- Major 0x55. -/
def dec55 (x0 : Ext) (m : BitVec 1) (fb : BitVec 1) (fa : BitVec 1) (b : BitVec 7) (a : BitVec 7) (d : BitVec 7) : Except DecErr Instr :=
  if m == 0#1 then noExt x0 (.vcmpNeF32 d a b (fa == 1#1) (fb == 1#1))
  else if m == 1#1 then noExt x0 (.vcmpNeF64 d a b (fa == 1#1) (fb == 1#1))
  else .error .unassigned

/-- Major 0x56. -/
def dec56 (x0 : Ext) (m : BitVec 1) (fb : BitVec 1) (fa : BitVec 1) (b : BitVec 7) (a : BitVec 7) (d : BitVec 7) : Except DecErr Instr :=
  if m == 0#1 then noExt x0 (.vcmpLtF32 d a b (fa == 1#1) (fb == 1#1))
  else if m == 1#1 then noExt x0 (.vcmpLtF64 d a b (fa == 1#1) (fb == 1#1))
  else .error .unassigned

/-- Major 0x57. -/
def dec57 (x0 : Ext) (m : BitVec 1) (fb : BitVec 1) (fa : BitVec 1) (b : BitVec 7) (a : BitVec 7) (d : BitVec 7) : Except DecErr Instr :=
  if m == 0#1 then noExt x0 (.vcmpLeF32 d a b (fa == 1#1) (fb == 1#1))
  else if m == 1#1 then noExt x0 (.vcmpLeF64 d a b (fa == 1#1) (fb == 1#1))
  else .error .unassigned

/-- Major 0x58. -/
def dec58 (x0 : Ext) (m : BitVec 1) (fb : BitVec 1) (fa : BitVec 1) (b : BitVec 7) (a : BitVec 7) (d : BitVec 7) : Except DecErr Instr :=
  if m == 0#1 then noExt x0 (.vdotI8x4 d a b (fa == 1#1) (fb == 1#1))
  else if m == 1#1 then noExt x0 (.vdotE4m3x4 d a b (fa == 1#1) (fb == 1#1))
  else .error .unassigned

/-- Major 0x59. -/
def dec59 (x0 : Ext) (m : BitVec 1) (fb : BitVec 1) (fa : BitVec 1) (b : BitVec 7) (a : BitVec 7) (d : BitVec 7) : Except DecErr Instr :=
  if m == 0#1 then noExt x0 (.vdotBf16x2 d a b (fa == 1#1) (fb == 1#1))
  else if m == 1#1 then noExt x0 (.vdotE2m1b d a b (fa == 1#1) (fb == 1#1))
  else .error .unassigned

/-- Major 0x5A. -/
def dec5A (x0 : Ext) (m : BitVec 1) (fa : BitVec 1) (s : BitVec 8) (a : BitVec 7) (d : BitVec 7) : Except DecErr Instr :=
  if m == 0#1 && fa == 0#1 && a == 0#7 then noExt x0 (.vmovs d s)
  else .error .unassigned

/-- Major 0x5B. -/
def dec5B (x0 : Ext) (m : BitVec 1) (fa : BitVec 1) (s : BitVec 8) (a : BitVec 7) (d : BitVec 7) : Except DecErr Instr :=
  if m == 0#1 then noExt x0 (.vsel d a s (fa == 1#1))
  else .error .unassigned

/-- Major 0x5C. -/
def dec5C (x0 : Ext) (m : BitVec 1) (fa : BitVec 1) (s : BitVec 8) (a : BitVec 7) (d : BitVec 7) : Except DecErr Instr :=
  if m == 0#1 then noExt x0 (.vlane d a s (fa == 1#1))
  else .error .unassigned

/-- Major 0x5D. -/
def dec5D (x0 : Ext) (m : BitVec 1) (fa : BitVec 1) (s : BitVec 8) (a : BitVec 7) (d : BitVec 7) : Except DecErr Instr :=
  if m == 0#1 then noExt x0 (.vbcast d a s (fa == 1#1))
  else .error .unassigned

/-- Major 0x5E. -/
def dec5E (x0 : Ext) (m : BitVec 1) (fa : BitVec 1) (s : BitVec 8) (a : BitVec 7) (d : BitVec 7) : Except DecErr Instr :=
  if m == 0#1 && fa == 0#1 && a == 0#7 && (d.extractLsb' 4 3) == 0#3 then noExt x0 (.xbload (d.extractLsb' 0 4) s)
  else .error .unassigned

/-- Major 0x5F. -/
def dec5F (x0 : Ext) (m : BitVec 1) (fa : BitVec 1) (s : BitVec 8) (a : BitVec 7) (d : BitVec 7) : Except DecErr Instr :=
  if m == 0#1 && fa == 0#1 && a == 0#7 then noExt x0 (.vdec d s)
  else .error .unassigned

/-- Major 0x60. -/
def dec60 (x0 : Ext) (m : BitVec 1) (fa : BitVec 1) (s : BitVec 8) (a : BitVec 7) (d : BitVec 7) : Except DecErr Instr :=
  if m == 0#1 && (s.extractLsb' 5 3) == 2#3 then noExt x0 (.vshflXor d a (s.extractLsb' 0 5) (fa == 1#1))
  else if m == 0#1 && (s.extractLsb' 5 3) == 4#3 then noExt x0 (.vshflUp d a (s.extractLsb' 0 5) (fa == 1#1))
  else if m == 0#1 && (s.extractLsb' 5 3) == 6#3 then noExt x0 (.vshflDown d a (s.extractLsb' 0 5) (fa == 1#1))
  else .error .unassigned

/-- Major 0x61. -/
def dec61 (x0 : Ext) (mod : BitVec 3) (fa : BitVec 1) (fn : BitVec 6) (a : BitVec 7) (d : BitVec 7) : Except DecErr Instr :=
  if fn == 0#6 then noExt x0 (.vixVmov d a (fa == 1#1) mod)
  else if fn == 1#6 then noExt x0 (.vixVabs d a (fa == 1#1) mod)
  else if fn == 2#6 then noExt x0 (.vixVneg d a (fa == 1#1) mod)
  else if fn == 3#6 then noExt x0 (.vixVnot d a (fa == 1#1) mod)
  else if fn == 4#6 then noExt x0 (.vixVpopc d a (fa == 1#1) mod)
  else if fn == 5#6 then noExt x0 (.vixVclz d a (fa == 1#1) mod)
  else if fn == 6#6 then noExt x0 (.vixVbrev d a (fa == 1#1) mod)
  else if fn == 16#6 then noExt x0 (.vixVadd d a (fa == 1#1) mod)
  else if fn == 17#6 then noExt x0 (.vixVsub d a (fa == 1#1) mod)
  else if fn == 18#6 then noExt x0 (.vixVmul d a (fa == 1#1) mod)
  else if fn == 19#6 then noExt x0 (.vixVmulh d a (fa == 1#1) mod)
  else if fn == 20#6 then noExt x0 (.vixVaddsat d a (fa == 1#1) mod)
  else if fn == 21#6 then noExt x0 (.vixVsubsat d a (fa == 1#1) mod)
  else if fn == 22#6 then noExt x0 (.vixVmin d a (fa == 1#1) mod)
  else if fn == 23#6 then noExt x0 (.vixVmax d a (fa == 1#1) mod)
  else if fn == 24#6 then noExt x0 (.vixVshl d a (fa == 1#1) mod)
  else if fn == 25#6 then noExt x0 (.vixVshr d a (fa == 1#1) mod)
  else if fn == 26#6 then noExt x0 (.vixVsra d a (fa == 1#1) mod)
  else if fn == 27#6 then noExt x0 (.vixVrot d a (fa == 1#1) mod)
  else .error .unassigned

/-- Major 0x62. -/
def dec62 (x0 : Ext) (mod : BitVec 3) (fa : BitVec 1) (fn : BitVec 6) (a : BitVec 7) (d : BitVec 7) : Except DecErr Instr :=
  if fn == 0#6 then noExt x0 (.vfxVabs d a (fa == 1#1) mod)
  else if fn == 1#6 then noExt x0 (.vfxVneg d a (fa == 1#1) mod)
  else if fn == 2#6 then noExt x0 (.vfxVrnd d a (fa == 1#1) mod)
  else if fn == 3#6 then noExt x0 (.vfxVfrac d a (fa == 1#1) mod)
  else if fn == 4#6 then noExt x0 (.vfxVclass d a (fa == 1#1) mod)
  else if fn == 5#6 then noExt x0 (.vfxVsqrt d a (fa == 1#1) mod)
  else if fn == 6#6 then noExt x0 (.vfxVrcp d a (fa == 1#1) mod)
  else if fn == 7#6 then noExt x0 (.vfxVrsq d a (fa == 1#1) mod)
  else if fn == 8#6 then noExt x0 (.vfxVexp2 d a (fa == 1#1) mod)
  else if fn == 9#6 then noExt x0 (.vfxVlog2 d a (fa == 1#1) mod)
  else if fn == 10#6 then noExt x0 (.vfxVsin d a (fa == 1#1) mod)
  else if fn == 11#6 then noExt x0 (.vfxVcos d a (fa == 1#1) mod)
  else if fn == 12#6 then noExt x0 (.vfxVtanh d a (fa == 1#1) mod)
  else .error .unassigned

/-- Major 0x63. -/
noncomputable def dec63 (x0 : Ext) (mod : BitVec 3) (fa : BitVec 1) (fn : BitVec 6) (a : BitVec 7) (d : BitVec 7) : Except DecErr Instr :=
  if mod == 0#3 then noExt x0 (.vcvtFloatFromFloat d a (fn.extractLsb' 0 3) (fn.extractLsb' 3 3) (fa == 1#1))
  else if mod == 1#3 then noExt x0 (.vcvtFloatFromInteger d a (fn.extractLsb' 0 3) (fn.extractLsb' 3 3) (fa == 1#1))
  else if mod == 2#3 then noExt x0 (.vcvtIntegerFromFloat d a (fn.extractLsb' 0 3) (fn.extractLsb' 3 3) (fa == 1#1))
  else if mod == 3#3 then noExt x0 (.vcvtIntegerFromInteger d a (fn.extractLsb' 0 3) (fn.extractLsb' 3 3) (fa == 1#1))
  else if mod == 4#3 then noExt x0 (.vpack d a (fn.extractLsb' 0 3) (fn.extractLsb' 3 3) (fa == 1#1))
  else if mod == 5#3 then noExt x0 (.vunpack d a (fn.extractLsb' 0 3) (fn.extractLsb' 3 3) (fa == 1#1))
  else .error .unassigned

/-- Major 0x64. -/
noncomputable def dec64 (x0 : Ext) (mod : BitVec 3) (fa : BitVec 1) (fn : BitVec 6) (a : BitVec 7) (d : BitVec 7) : Except DecErr Instr :=
  if mod == 0#3 && (fn.extractLsb' 4 2) == 0#2 then noExt x0 (.vscan d a (fn.extractLsb' 0 1) (fn.extractLsb' 1 1) (fn.extractLsb' 2 2) (fa == 1#1))
  else if fn == 16#6 then noExt x0 (.vredAdd d a (fa == 1#1) mod)
  else if fn == 17#6 then noExt x0 (.vredMin d a (fa == 1#1) mod)
  else if fn == 18#6 then noExt x0 (.vredMax d a (fa == 1#1) mod)
  else if mod == 0#3 && fn == 19#6 then noExt x0 (.vredAnd d a (fa == 1#1))
  else if mod == 0#3 && fn == 20#6 then noExt x0 (.vredOr d a (fa == 1#1))
  else if mod == 0#3 && fn == 24#6 then noExt x0 (.vballot d a (fa == 1#1))
  else if mod == 0#3 && fn == 25#6 then noExt x0 (.vmatch d a (fa == 1#1))
  else if mod == 0#3 && fn == 26#6 then noExt x0 (.vcompact d a (fa == 1#1))
  else if mod == 0#3 && fn == 27#6 then noExt x0 (.vshflIdx d a (fa == 1#1))
  else .error .unassigned

/-- Major 0x65. -/
noncomputable def dec65 (x0 : Ext) (mod : BitVec 3) (fa : BitVec 1) (fn : BitVec 6) (a : BitVec 7) (d : BitVec 7) : Except DecErr Instr :=
  if (fn.extractLsb' 4 2) == 0#2 then noExt x0 (.vxbar d a (fn.extractLsb' 0 4) (fa == 1#1) mod)
  else .error .unassigned

/-- Major 0x66. -/
noncomputable def dec66 (x0 : Ext) (m : BitVec 1) (fa : BitVec 1) (s : BitVec 8) (a : BitVec 7) (d : BitVec 7) : Except DecErr Instr :=
  if m == 0#1 then withExt .ld x0 (.vldB x0 d a s (fa == 1#1))
  else if m == 1#1 then withExt .ls x0 (.vldsB x0 d a s (fa == 1#1))
  else .error .unassigned

/-- Major 0x67. -/
noncomputable def dec67 (x0 : Ext) (m : BitVec 1) (fa : BitVec 1) (s : BitVec 8) (a : BitVec 7) (d : BitVec 7) : Except DecErr Instr :=
  if m == 0#1 then withExt .ld x0 (.vldH x0 d a s (fa == 1#1))
  else if m == 1#1 then withExt .ls x0 (.vldsH x0 d a s (fa == 1#1))
  else .error .unassigned

/-- Major 0x68. -/
noncomputable def dec68 (x0 : Ext) (m : BitVec 1) (fa : BitVec 1) (s : BitVec 8) (a : BitVec 7) (d : BitVec 7) : Except DecErr Instr :=
  if m == 0#1 then withExt .ld x0 (.vldW x0 d a s (fa == 1#1))
  else if m == 1#1 then withExt .ls x0 (.vldsW x0 d a s (fa == 1#1))
  else .error .unassigned

/-- Major 0x69. -/
noncomputable def dec69 (x0 : Ext) (m : BitVec 1) (fa : BitVec 1) (s : BitVec 8) (a : BitVec 7) (d : BitVec 7) : Except DecErr Instr :=
  if m == 0#1 then withExt .ld x0 (.vldD x0 d a s (fa == 1#1))
  else if m == 1#1 then withExt .ls x0 (.vldsD x0 d a s (fa == 1#1))
  else .error .unassigned

/-- Major 0x6A. -/
noncomputable def dec6A (x0 : Ext) (m : BitVec 1) (fa : BitVec 1) (s : BitVec 8) (a : BitVec 7) (d : BitVec 7) : Except DecErr Instr :=
  if m == 0#1 then withExt .ld x0 (.vldQ x0 d a s (fa == 1#1))
  else if m == 1#1 then withExt .ls x0 (.vldsQ x0 d a s (fa == 1#1))
  else .error .unassigned

/-- Major 0x6B. -/
noncomputable def dec6B (x0 : Ext) (m : BitVec 1) (fa : BitVec 1) (s : BitVec 8) (a : BitVec 7) (d : BitVec 7) : Except DecErr Instr :=
  if m == 0#1 then withExt .st x0 (.vstB x0 d a s (fa == 1#1))
  else if m == 1#1 then withExt .ls x0 (.vstsB x0 d a s (fa == 1#1))
  else .error .unassigned

/-- Major 0x6C. -/
noncomputable def dec6C (x0 : Ext) (m : BitVec 1) (fa : BitVec 1) (s : BitVec 8) (a : BitVec 7) (d : BitVec 7) : Except DecErr Instr :=
  if m == 0#1 then withExt .st x0 (.vstH x0 d a s (fa == 1#1))
  else if m == 1#1 then withExt .ls x0 (.vstsH x0 d a s (fa == 1#1))
  else .error .unassigned

/-- Major 0x6D. -/
noncomputable def dec6D (x0 : Ext) (m : BitVec 1) (fa : BitVec 1) (s : BitVec 8) (a : BitVec 7) (d : BitVec 7) : Except DecErr Instr :=
  if m == 0#1 then withExt .st x0 (.vstW x0 d a s (fa == 1#1))
  else if m == 1#1 then withExt .ls x0 (.vstsW x0 d a s (fa == 1#1))
  else .error .unassigned

/-- Major 0x6E. -/
noncomputable def dec6E (x0 : Ext) (m : BitVec 1) (fa : BitVec 1) (s : BitVec 8) (a : BitVec 7) (d : BitVec 7) : Except DecErr Instr :=
  if m == 0#1 then withExt .st x0 (.vstD x0 d a s (fa == 1#1))
  else if m == 1#1 then withExt .ls x0 (.vstsD x0 d a s (fa == 1#1))
  else .error .unassigned

/-- Major 0x6F. -/
noncomputable def dec6F (x0 : Ext) (m : BitVec 1) (fa : BitVec 1) (s : BitVec 8) (a : BitVec 7) (d : BitVec 7) : Except DecErr Instr :=
  if m == 0#1 then withExt .st x0 (.vstQ x0 d a s (fa == 1#1))
  else if m == 1#1 then withExt .ls x0 (.vstsQ x0 d a s (fa == 1#1))
  else .error .unassigned

/-- Major 0x70. -/
noncomputable def dec70 (x0 : Ext) (m : BitVec 1) (fa : BitVec 1) (s : BitVec 8) (a : BitVec 7) (d : BitVec 7) : Except DecErr Instr :=
  if m == 0#1 then withExt .atom x0 (.vatom x0 d a s (fa == 1#1))
  else if m == 1#1 then withExt .atom x0 (.vatomRtn x0 d a s (fa == 1#1))
  else .error .unassigned

/-- Major 0x71. -/
noncomputable def dec71 (x0 : Ext) (m : BitVec 1) (fa : BitVec 1) (s : BitVec 8) (a : BitVec 7) (d : BitVec 7) : Except DecErr Instr :=
  if m == 0#1 then withExt .cpy x0 (.vcopy4G2s x0 d a s (fa == 1#1))
  else .error .unassigned

/-- Major 0x72. -/
noncomputable def dec72 (x0 : Ext) (m : BitVec 1) (fa : BitVec 1) (s : BitVec 8) (a : BitVec 7) (d : BitVec 7) : Except DecErr Instr :=
  if m == 0#1 then withExt .cpy x0 (.vcopy8G2s x0 d a s (fa == 1#1))
  else .error .unassigned

/-- Major 0x73. -/
noncomputable def dec73 (x0 : Ext) (m : BitVec 1) (fa : BitVec 1) (s : BitVec 8) (a : BitVec 7) (d : BitVec 7) : Except DecErr Instr :=
  if m == 0#1 then withExt .cpy x0 (.vcopy16G2s x0 d a s (fa == 1#1))
  else .error .unassigned

/-- Major 0x74. -/
noncomputable def dec74 (x0 : Ext) (m : BitVec 1) (fa : BitVec 1) (s : BitVec 8) (a : BitVec 7) (d : BitVec 7) : Except DecErr Instr :=
  if m == 0#1 then withExt .cpy x0 (.vcopy4S2g x0 d a s (fa == 1#1))
  else .error .unassigned

/-- Major 0x75. -/
noncomputable def dec75 (x0 : Ext) (m : BitVec 1) (fa : BitVec 1) (s : BitVec 8) (a : BitVec 7) (d : BitVec 7) : Except DecErr Instr :=
  if m == 0#1 then withExt .cpy x0 (.vcopy8S2g x0 d a s (fa == 1#1))
  else .error .unassigned

/-- Major 0x76. -/
noncomputable def dec76 (x0 : Ext) (m : BitVec 1) (fa : BitVec 1) (s : BitVec 8) (a : BitVec 7) (d : BitVec 7) : Except DecErr Instr :=
  if m == 0#1 then withExt .cpy x0 (.vcopy16S2g x0 d a s (fa == 1#1))
  else .error .unassigned

/-- Major 0x77. -/
noncomputable def dec77 (x0 : Ext) (m : BitVec 1) (fa : BitVec 1) (s : BitVec 8) (a : BitVec 7) (d : BitVec 7) : Except DecErr Instr :=
  if m == 0#1 then withExt .cpy x0 (.vcopy4G2g x0 d a s (fa == 1#1))
  else .error .unassigned

/-- Major 0x78. -/
noncomputable def dec78 (x0 : Ext) (m : BitVec 1) (fa : BitVec 1) (s : BitVec 8) (a : BitVec 7) (d : BitVec 7) : Except DecErr Instr :=
  if m == 0#1 then withExt .cpy x0 (.vcopy8G2g x0 d a s (fa == 1#1))
  else .error .unassigned

/-- Major 0x79. -/
noncomputable def dec79 (x0 : Ext) (m : BitVec 1) (fa : BitVec 1) (s : BitVec 8) (a : BitVec 7) (d : BitVec 7) : Except DecErr Instr :=
  if m == 0#1 then withExt .cpy x0 (.vcopy16G2g x0 d a s (fa == 1#1))
  else .error .unassigned

/-- Major 0x7A. -/
noncomputable def dec7A (x0 : Ext) (m : BitVec 1) (fa : BitVec 1) (s : BitVec 8) (a : BitVec 7) (d : BitVec 7) : Except DecErr Instr :=
  if m == 0#1 && (d.extractLsb' 4 3) == 0#3 then noExt x0 (.mma (d.extractLsb' 0 4) a s (fa == 1#1))
  else if m == 1#1 && (d.extractLsb' 4 3) == 0#3 then noExt x0 (.mmaClr (d.extractLsb' 0 4) a s (fa == 1#1))
  else .error .unassigned

/-- Major 0x7B. -/
noncomputable def dec7B (x0 : Ext) (mod : BitVec 3) (fa : BitVec 1) (fn : BitVec 6) (a : BitVec 7) (d : BitVec 7) : Except DecErr Instr :=
  if mod == 0#3 && fa == 0#1 && fn == 0#6 && (a.extractLsb' 4 3) == 0#3 then noExt x0 (.accrd d (a.extractLsb' 0 4))
  else if mod == 0#3 && fn == 1#6 && (d.extractLsb' 4 3) == 0#3 then noExt x0 (.accwr (d.extractLsb' 0 4) a (fa == 1#1))
  else if mod == 0#3 && fa == 0#1 && fn == 2#6 && a == 0#7 && (d.extractLsb' 4 3) == 0#3 then noExt x0 (.accclr (d.extractLsb' 0 4))
  else .error .unassigned

/-- Major 0x7C. -/
noncomputable def dec7C (x0 : Ext) (m : BitVec 1) (fa : BitVec 1) (s : BitVec 8) (a : BitVec 7) (d : BitVec 7) : Except DecErr Instr :=
  if m == 0#1 then noExt x0 (.sclook d a s (fa == 1#1))
  else .error .unassigned

/-- Major 0x7D. -/
noncomputable def dec7D (x0 : Ext) (m : BitVec 1) (fa : BitVec 1) (s : BitVec 8) (a : BitVec 7) (d : BitVec 7) : Except DecErr Instr :=
  if m == 0#1 then noExt x0 (.scfill d a s (fa == 1#1))
  else .error .unassigned

/-- Major 0x7E. -/
noncomputable def dec7E (x0 : Ext) (mod : BitVec 3) (fa : BitVec 1) (fn : BitVec 6) (a : BitVec 7) (d : BitVec 7) : Except DecErr Instr :=
  if mod == 0#3 && fn == 0#6 && d == 0#7 then noExt x0 (.primemit a (fa == 1#1))
  else if mod == 0#3 && fa == 0#1 && fn == 1#6 && a == 0#7 && d == 0#7 then noExt x0 (.meshend)
  else if mod == 0#3 && fa == 0#1 && fn == 2#6 && a == 0#7 then noExt x0 (.rsget d)
  else if fn == 3#6 && d == 0#7 then noExt x0 (.rtwrite a (fa == 1#1) mod)
  else if fa == 0#1 && fn == 4#6 && a == 0#7 then noExt x0 (.rtread d mod)
  else if mod == 0#3 && fn == 5#6 then noExt x0 (.hitrd d a (fa == 1#1))
  else .error .unassigned

/-- Majors 0x00 to 0x0F. -/
def decGroup0 (x0 : Ext) (w : BitVec 32) (k : Nat) : Except DecErr Instr := match k with
  | 0 => dec00 x0 (w.extractLsb' 24 8) (w.extractLsb' 16 8) (w.extractLsb' 8 8)
  | 1 => dec01 x0 (w.extractLsb' 24 8) (w.extractLsb' 16 8) (w.extractLsb' 8 8)
  | 2 => dec02 x0 (w.extractLsb' 24 8) (w.extractLsb' 16 8) (w.extractLsb' 8 8)
  | 3 => dec03 x0 (w.extractLsb' 24 8) (w.extractLsb' 16 8) (w.extractLsb' 8 8)
  | 4 => dec04 x0 (w.extractLsb' 24 8) (w.extractLsb' 16 8) (w.extractLsb' 8 8)
  | 5 => dec05 x0 (w.extractLsb' 24 8) (w.extractLsb' 16 8) (w.extractLsb' 8 8)
  | 6 => dec06 x0 (w.extractLsb' 24 8) (w.extractLsb' 16 8) (w.extractLsb' 8 8)
  | 7 => dec07 x0 (w.extractLsb' 24 8) (w.extractLsb' 16 8) (w.extractLsb' 8 8)
  | 8 => dec08 x0 (w.extractLsb' 24 8) (w.extractLsb' 16 8) (w.extractLsb' 8 8)
  | 9 => dec09 x0 (w.extractLsb' 24 8) (w.extractLsb' 16 8) (w.extractLsb' 8 8)
  | 10 => dec0A x0 (w.extractLsb' 24 8) (w.extractLsb' 16 8) (w.extractLsb' 8 8)
  | 11 => dec0B x0 (w.extractLsb' 24 8) (w.extractLsb' 16 8) (w.extractLsb' 8 8)
  | 12 => dec0C x0 (w.extractLsb' 24 8) (w.extractLsb' 16 8) (w.extractLsb' 8 8)
  | 13 => dec0D x0 (w.extractLsb' 24 8) (w.extractLsb' 16 8) (w.extractLsb' 8 8)
  | 14 => dec0E x0 (w.extractLsb' 24 8) (w.extractLsb' 16 8) (w.extractLsb' 8 8)
  | _ => dec0F x0 (w.extractLsb' 24 8) (w.extractLsb' 16 8) (w.extractLsb' 8 8)

/-- Majors 0x10 to 0x1F. -/
def decGroup1 (x0 : Ext) (w : BitVec 32) (k : Nat) : Except DecErr Instr := match k with
  | 0 => dec10 x0 (w.extractLsb' 24 8) (w.extractLsb' 16 8) (w.extractLsb' 8 8)
  | 1 => dec11 x0 (w.extractLsb' 24 8) (w.extractLsb' 16 8) (w.extractLsb' 8 8)
  | 2 => dec12 x0 (w.extractLsb' 24 8) (w.extractLsb' 16 8) (w.extractLsb' 8 8)
  | 3 => dec13 x0 (w.extractLsb' 24 8) (w.extractLsb' 16 8) (w.extractLsb' 8 8)
  | 4 => dec14 x0 (w.extractLsb' 24 8) (w.extractLsb' 16 8) (w.extractLsb' 8 8)
  | 5 => dec15 x0 (w.extractLsb' 24 8) (w.extractLsb' 16 8) (w.extractLsb' 8 8)
  | 6 => dec16 x0 (w.extractLsb' 24 8) (w.extractLsb' 16 8) (w.extractLsb' 8 8)
  | 7 => dec17 x0 (w.extractLsb' 24 8) (w.extractLsb' 16 8) (w.extractLsb' 8 8)
  | 8 => dec18 x0 (w.extractLsb' 24 8) (w.extractLsb' 16 8) (w.extractLsb' 8 8)
  | 9 => dec19 x0 (w.extractLsb' 24 8) (w.extractLsb' 16 8) (w.extractLsb' 8 8)
  | 10 => dec1A x0 (w.extractLsb' 24 8) (w.extractLsb' 16 8) (w.extractLsb' 8 8)
  | 11 => dec1B x0 (w.extractLsb' 24 8) (w.extractLsb' 16 8) (w.extractLsb' 8 8)
  | 12 => dec1C x0 (w.extractLsb' 24 8) (w.extractLsb' 16 8) (w.extractLsb' 8 8)
  | 13 => dec1D x0 (w.extractLsb' 24 8) (w.extractLsb' 16 8) (w.extractLsb' 8 8)
  | 14 => dec1E x0 (w.extractLsb' 24 8) (w.extractLsb' 16 8) (w.extractLsb' 8 8)
  | _ => dec1F x0 (w.extractLsb' 24 8) (w.extractLsb' 16 8) (w.extractLsb' 8 8)

/-- Majors 0x20 to 0x2F. -/
def decGroup2 (x0 : Ext) (w : BitVec 32) (k : Nat) : Except DecErr Instr := match k with
  | 0 => dec20 x0 (w.extractLsb' 16 16) (w.extractLsb' 8 8)
  | 1 => dec21 x0 (w.extractLsb' 16 16) (w.extractLsb' 8 8)
  | 2 => dec22 x0 (w.extractLsb' 8 24)
  | 3 => dec23 x0 (w.extractLsb' 8 24)
  | 4 => dec24 x0 (w.extractLsb' 8 24)
  | 5 => dec25 x0 (w.extractLsb' 16 16) (w.extractLsb' 8 8)
  | 6 => dec26 x0 (w.extractLsb' 16 16) (w.extractLsb' 8 8)
  | 7 => dec27 x0 (w.extractLsb' 16 16) (w.extractLsb' 8 8)
  | 8 => dec28 x0 (w.extractLsb' 16 16) (w.extractLsb' 8 8)
  | 9 => dec29 x0 (w.extractLsb' 16 16) (w.extractLsb' 8 8)
  | 10 => dec2A x0 (w.extractLsb' 24 8) (w.extractLsb' 16 8) (w.extractLsb' 8 8)
  | 11 => dec2B x0 (w.extractLsb' 24 8) (w.extractLsb' 16 8) (w.extractLsb' 8 8)
  | 12 => dec2C x0 (w.extractLsb' 24 8) (w.extractLsb' 16 8) (w.extractLsb' 8 8)
  | 13 => dec2D x0 (w.extractLsb' 24 8) (w.extractLsb' 16 8) (w.extractLsb' 8 8)
  | 14 => dec2E x0 (w.extractLsb' 24 8) (w.extractLsb' 16 8) (w.extractLsb' 8 8)
  | _ => dec2F x0 (w.extractLsb' 24 8) (w.extractLsb' 16 8) (w.extractLsb' 8 8)

/-- Majors 0x30 to 0x3F. -/
def decGroup3 (x0 : Ext) (w : BitVec 32) (k : Nat) : Except DecErr Instr := match k with
  | 0 => dec30 x0 (w.extractLsb' 24 8) (w.extractLsb' 16 8) (w.extractLsb' 8 8)
  | 1 => dec31 x0 (w.extractLsb' 24 8) (w.extractLsb' 16 8) (w.extractLsb' 8 8)
  | 2 => dec32 x0 (w.extractLsb' 24 8) (w.extractLsb' 16 8) (w.extractLsb' 8 8)
  | 3 => dec33 x0 (w.extractLsb' 24 8) (w.extractLsb' 16 8) (w.extractLsb' 8 8)
  | 4 => dec34 x0 (w.extractLsb' 24 8) (w.extractLsb' 16 8) (w.extractLsb' 8 8)
  | 5 => dec35 x0 (w.extractLsb' 16 16) (w.extractLsb' 8 8)
  | 6 => dec36 x0 (w.extractLsb' 31 1) (w.extractLsb' 30 1) (w.extractLsb' 22 8) (w.extractLsb' 15 7) (w.extractLsb' 8 7)
  | 7 => .error .unassignedMajor
  | 8 => dec38 x0 (w.extractLsb' 31 1) (w.extractLsb' 30 1) (w.extractLsb' 29 1) (w.extractLsb' 22 7) (w.extractLsb' 15 7) (w.extractLsb' 8 7)
  | 9 => dec39 x0 (w.extractLsb' 31 1) (w.extractLsb' 30 1) (w.extractLsb' 29 1) (w.extractLsb' 22 7) (w.extractLsb' 15 7) (w.extractLsb' 8 7)
  | 10 => dec3A x0 (w.extractLsb' 31 1) (w.extractLsb' 30 1) (w.extractLsb' 29 1) (w.extractLsb' 22 7) (w.extractLsb' 15 7) (w.extractLsb' 8 7)
  | 11 => dec3B x0 (w.extractLsb' 31 1) (w.extractLsb' 30 1) (w.extractLsb' 29 1) (w.extractLsb' 22 7) (w.extractLsb' 15 7) (w.extractLsb' 8 7)
  | 12 => dec3C x0 (w.extractLsb' 31 1) (w.extractLsb' 30 1) (w.extractLsb' 29 1) (w.extractLsb' 22 7) (w.extractLsb' 15 7) (w.extractLsb' 8 7)
  | 13 => dec3D x0 (w.extractLsb' 31 1) (w.extractLsb' 30 1) (w.extractLsb' 29 1) (w.extractLsb' 22 7) (w.extractLsb' 15 7) (w.extractLsb' 8 7)
  | 14 => dec3E x0 (w.extractLsb' 31 1) (w.extractLsb' 30 1) (w.extractLsb' 29 1) (w.extractLsb' 22 7) (w.extractLsb' 15 7) (w.extractLsb' 8 7)
  | _ => dec3F x0 (w.extractLsb' 31 1) (w.extractLsb' 30 1) (w.extractLsb' 29 1) (w.extractLsb' 22 7) (w.extractLsb' 15 7) (w.extractLsb' 8 7)

/-- Majors 0x40 to 0x4F. -/
def decGroup4 (x0 : Ext) (w : BitVec 32) (k : Nat) : Except DecErr Instr := match k with
  | 0 => dec40 x0 (w.extractLsb' 31 1) (w.extractLsb' 30 1) (w.extractLsb' 29 1) (w.extractLsb' 22 7) (w.extractLsb' 15 7) (w.extractLsb' 8 7)
  | 1 => dec41 x0 (w.extractLsb' 31 1) (w.extractLsb' 30 1) (w.extractLsb' 29 1) (w.extractLsb' 22 7) (w.extractLsb' 15 7) (w.extractLsb' 8 7)
  | 2 => dec42 x0 (w.extractLsb' 31 1) (w.extractLsb' 30 1) (w.extractLsb' 29 1) (w.extractLsb' 22 7) (w.extractLsb' 15 7) (w.extractLsb' 8 7)
  | 3 => dec43 x0 (w.extractLsb' 31 1) (w.extractLsb' 30 1) (w.extractLsb' 29 1) (w.extractLsb' 22 7) (w.extractLsb' 15 7) (w.extractLsb' 8 7)
  | 4 => dec44 x0 (w.extractLsb' 31 1) (w.extractLsb' 30 1) (w.extractLsb' 29 1) (w.extractLsb' 22 7) (w.extractLsb' 15 7) (w.extractLsb' 8 7)
  | 5 => dec45 x0 (w.extractLsb' 31 1) (w.extractLsb' 30 1) (w.extractLsb' 29 1) (w.extractLsb' 22 7) (w.extractLsb' 15 7) (w.extractLsb' 8 7)
  | 6 => dec46 x0 (w.extractLsb' 31 1) (w.extractLsb' 30 1) (w.extractLsb' 29 1) (w.extractLsb' 22 7) (w.extractLsb' 15 7) (w.extractLsb' 8 7)
  | 7 => dec47 x0 (w.extractLsb' 31 1) (w.extractLsb' 30 1) (w.extractLsb' 29 1) (w.extractLsb' 22 7) (w.extractLsb' 15 7) (w.extractLsb' 8 7)
  | 8 => dec48 x0 (w.extractLsb' 31 1) (w.extractLsb' 30 1) (w.extractLsb' 29 1) (w.extractLsb' 22 7) (w.extractLsb' 15 7) (w.extractLsb' 8 7)
  | 9 => dec49 x0 (w.extractLsb' 31 1) (w.extractLsb' 30 1) (w.extractLsb' 29 1) (w.extractLsb' 22 7) (w.extractLsb' 15 7) (w.extractLsb' 8 7)
  | 10 => dec4A x0 (w.extractLsb' 31 1) (w.extractLsb' 30 1) (w.extractLsb' 29 1) (w.extractLsb' 22 7) (w.extractLsb' 15 7) (w.extractLsb' 8 7)
  | 11 => dec4B x0 (w.extractLsb' 31 1) (w.extractLsb' 30 1) (w.extractLsb' 29 1) (w.extractLsb' 22 7) (w.extractLsb' 15 7) (w.extractLsb' 8 7)
  | 12 => dec4C x0 (w.extractLsb' 31 1) (w.extractLsb' 30 1) (w.extractLsb' 29 1) (w.extractLsb' 22 7) (w.extractLsb' 15 7) (w.extractLsb' 8 7)
  | 13 => dec4D x0 (w.extractLsb' 31 1) (w.extractLsb' 30 1) (w.extractLsb' 29 1) (w.extractLsb' 22 7) (w.extractLsb' 15 7) (w.extractLsb' 8 7)
  | 14 => dec4E x0 (w.extractLsb' 31 1) (w.extractLsb' 30 1) (w.extractLsb' 29 1) (w.extractLsb' 22 7) (w.extractLsb' 15 7) (w.extractLsb' 8 7)
  | _ => dec4F x0 (w.extractLsb' 31 1) (w.extractLsb' 30 1) (w.extractLsb' 29 1) (w.extractLsb' 22 7) (w.extractLsb' 15 7) (w.extractLsb' 8 7)

/-- Majors 0x50 to 0x5F. -/
def decGroup5 (x0 : Ext) (w : BitVec 32) (k : Nat) : Except DecErr Instr := match k with
  | 0 => dec50 x0 (w.extractLsb' 31 1) (w.extractLsb' 30 1) (w.extractLsb' 29 1) (w.extractLsb' 22 7) (w.extractLsb' 15 7) (w.extractLsb' 8 7)
  | 1 => dec51 x0 (w.extractLsb' 31 1) (w.extractLsb' 30 1) (w.extractLsb' 29 1) (w.extractLsb' 22 7) (w.extractLsb' 15 7) (w.extractLsb' 8 7)
  | 2 => dec52 x0 (w.extractLsb' 31 1) (w.extractLsb' 30 1) (w.extractLsb' 29 1) (w.extractLsb' 22 7) (w.extractLsb' 15 7) (w.extractLsb' 8 7)
  | 3 => dec53 x0 (w.extractLsb' 31 1) (w.extractLsb' 30 1) (w.extractLsb' 29 1) (w.extractLsb' 22 7) (w.extractLsb' 15 7) (w.extractLsb' 8 7)
  | 4 => dec54 x0 (w.extractLsb' 31 1) (w.extractLsb' 30 1) (w.extractLsb' 29 1) (w.extractLsb' 22 7) (w.extractLsb' 15 7) (w.extractLsb' 8 7)
  | 5 => dec55 x0 (w.extractLsb' 31 1) (w.extractLsb' 30 1) (w.extractLsb' 29 1) (w.extractLsb' 22 7) (w.extractLsb' 15 7) (w.extractLsb' 8 7)
  | 6 => dec56 x0 (w.extractLsb' 31 1) (w.extractLsb' 30 1) (w.extractLsb' 29 1) (w.extractLsb' 22 7) (w.extractLsb' 15 7) (w.extractLsb' 8 7)
  | 7 => dec57 x0 (w.extractLsb' 31 1) (w.extractLsb' 30 1) (w.extractLsb' 29 1) (w.extractLsb' 22 7) (w.extractLsb' 15 7) (w.extractLsb' 8 7)
  | 8 => dec58 x0 (w.extractLsb' 31 1) (w.extractLsb' 30 1) (w.extractLsb' 29 1) (w.extractLsb' 22 7) (w.extractLsb' 15 7) (w.extractLsb' 8 7)
  | 9 => dec59 x0 (w.extractLsb' 31 1) (w.extractLsb' 30 1) (w.extractLsb' 29 1) (w.extractLsb' 22 7) (w.extractLsb' 15 7) (w.extractLsb' 8 7)
  | 10 => dec5A x0 (w.extractLsb' 31 1) (w.extractLsb' 30 1) (w.extractLsb' 22 8) (w.extractLsb' 15 7) (w.extractLsb' 8 7)
  | 11 => dec5B x0 (w.extractLsb' 31 1) (w.extractLsb' 30 1) (w.extractLsb' 22 8) (w.extractLsb' 15 7) (w.extractLsb' 8 7)
  | 12 => dec5C x0 (w.extractLsb' 31 1) (w.extractLsb' 30 1) (w.extractLsb' 22 8) (w.extractLsb' 15 7) (w.extractLsb' 8 7)
  | 13 => dec5D x0 (w.extractLsb' 31 1) (w.extractLsb' 30 1) (w.extractLsb' 22 8) (w.extractLsb' 15 7) (w.extractLsb' 8 7)
  | 14 => dec5E x0 (w.extractLsb' 31 1) (w.extractLsb' 30 1) (w.extractLsb' 22 8) (w.extractLsb' 15 7) (w.extractLsb' 8 7)
  | _ => dec5F x0 (w.extractLsb' 31 1) (w.extractLsb' 30 1) (w.extractLsb' 22 8) (w.extractLsb' 15 7) (w.extractLsb' 8 7)

/-- Majors 0x60 to 0x6F. -/
noncomputable def decGroup6 (x0 : Ext) (w : BitVec 32) (k : Nat) : Except DecErr Instr := match k with
  | 0 => dec60 x0 (w.extractLsb' 31 1) (w.extractLsb' 30 1) (w.extractLsb' 22 8) (w.extractLsb' 15 7) (w.extractLsb' 8 7)
  | 1 => dec61 x0 (w.extractLsb' 29 3) (w.extractLsb' 28 1) (w.extractLsb' 22 6) (w.extractLsb' 15 7) (w.extractLsb' 8 7)
  | 2 => dec62 x0 (w.extractLsb' 29 3) (w.extractLsb' 28 1) (w.extractLsb' 22 6) (w.extractLsb' 15 7) (w.extractLsb' 8 7)
  | 3 => dec63 x0 (w.extractLsb' 29 3) (w.extractLsb' 28 1) (w.extractLsb' 22 6) (w.extractLsb' 15 7) (w.extractLsb' 8 7)
  | 4 => dec64 x0 (w.extractLsb' 29 3) (w.extractLsb' 28 1) (w.extractLsb' 22 6) (w.extractLsb' 15 7) (w.extractLsb' 8 7)
  | 5 => dec65 x0 (w.extractLsb' 29 3) (w.extractLsb' 28 1) (w.extractLsb' 22 6) (w.extractLsb' 15 7) (w.extractLsb' 8 7)
  | 6 => dec66 x0 (w.extractLsb' 31 1) (w.extractLsb' 30 1) (w.extractLsb' 22 8) (w.extractLsb' 15 7) (w.extractLsb' 8 7)
  | 7 => dec67 x0 (w.extractLsb' 31 1) (w.extractLsb' 30 1) (w.extractLsb' 22 8) (w.extractLsb' 15 7) (w.extractLsb' 8 7)
  | 8 => dec68 x0 (w.extractLsb' 31 1) (w.extractLsb' 30 1) (w.extractLsb' 22 8) (w.extractLsb' 15 7) (w.extractLsb' 8 7)
  | 9 => dec69 x0 (w.extractLsb' 31 1) (w.extractLsb' 30 1) (w.extractLsb' 22 8) (w.extractLsb' 15 7) (w.extractLsb' 8 7)
  | 10 => dec6A x0 (w.extractLsb' 31 1) (w.extractLsb' 30 1) (w.extractLsb' 22 8) (w.extractLsb' 15 7) (w.extractLsb' 8 7)
  | 11 => dec6B x0 (w.extractLsb' 31 1) (w.extractLsb' 30 1) (w.extractLsb' 22 8) (w.extractLsb' 15 7) (w.extractLsb' 8 7)
  | 12 => dec6C x0 (w.extractLsb' 31 1) (w.extractLsb' 30 1) (w.extractLsb' 22 8) (w.extractLsb' 15 7) (w.extractLsb' 8 7)
  | 13 => dec6D x0 (w.extractLsb' 31 1) (w.extractLsb' 30 1) (w.extractLsb' 22 8) (w.extractLsb' 15 7) (w.extractLsb' 8 7)
  | 14 => dec6E x0 (w.extractLsb' 31 1) (w.extractLsb' 30 1) (w.extractLsb' 22 8) (w.extractLsb' 15 7) (w.extractLsb' 8 7)
  | _ => dec6F x0 (w.extractLsb' 31 1) (w.extractLsb' 30 1) (w.extractLsb' 22 8) (w.extractLsb' 15 7) (w.extractLsb' 8 7)

/-- Majors 0x70 to 0x7F. -/
noncomputable def decGroup7 (x0 : Ext) (w : BitVec 32) (k : Nat) : Except DecErr Instr := match k with
  | 0 => dec70 x0 (w.extractLsb' 31 1) (w.extractLsb' 30 1) (w.extractLsb' 22 8) (w.extractLsb' 15 7) (w.extractLsb' 8 7)
  | 1 => dec71 x0 (w.extractLsb' 31 1) (w.extractLsb' 30 1) (w.extractLsb' 22 8) (w.extractLsb' 15 7) (w.extractLsb' 8 7)
  | 2 => dec72 x0 (w.extractLsb' 31 1) (w.extractLsb' 30 1) (w.extractLsb' 22 8) (w.extractLsb' 15 7) (w.extractLsb' 8 7)
  | 3 => dec73 x0 (w.extractLsb' 31 1) (w.extractLsb' 30 1) (w.extractLsb' 22 8) (w.extractLsb' 15 7) (w.extractLsb' 8 7)
  | 4 => dec74 x0 (w.extractLsb' 31 1) (w.extractLsb' 30 1) (w.extractLsb' 22 8) (w.extractLsb' 15 7) (w.extractLsb' 8 7)
  | 5 => dec75 x0 (w.extractLsb' 31 1) (w.extractLsb' 30 1) (w.extractLsb' 22 8) (w.extractLsb' 15 7) (w.extractLsb' 8 7)
  | 6 => dec76 x0 (w.extractLsb' 31 1) (w.extractLsb' 30 1) (w.extractLsb' 22 8) (w.extractLsb' 15 7) (w.extractLsb' 8 7)
  | 7 => dec77 x0 (w.extractLsb' 31 1) (w.extractLsb' 30 1) (w.extractLsb' 22 8) (w.extractLsb' 15 7) (w.extractLsb' 8 7)
  | 8 => dec78 x0 (w.extractLsb' 31 1) (w.extractLsb' 30 1) (w.extractLsb' 22 8) (w.extractLsb' 15 7) (w.extractLsb' 8 7)
  | 9 => dec79 x0 (w.extractLsb' 31 1) (w.extractLsb' 30 1) (w.extractLsb' 22 8) (w.extractLsb' 15 7) (w.extractLsb' 8 7)
  | 10 => dec7A x0 (w.extractLsb' 31 1) (w.extractLsb' 30 1) (w.extractLsb' 22 8) (w.extractLsb' 15 7) (w.extractLsb' 8 7)
  | 11 => dec7B x0 (w.extractLsb' 29 3) (w.extractLsb' 28 1) (w.extractLsb' 22 6) (w.extractLsb' 15 7) (w.extractLsb' 8 7)
  | 12 => dec7C x0 (w.extractLsb' 31 1) (w.extractLsb' 30 1) (w.extractLsb' 22 8) (w.extractLsb' 15 7) (w.extractLsb' 8 7)
  | 13 => dec7D x0 (w.extractLsb' 31 1) (w.extractLsb' 30 1) (w.extractLsb' 22 8) (w.extractLsb' 15 7) (w.extractLsb' 8 7)
  | 14 => dec7E x0 (w.extractLsb' 29 3) (w.extractLsb' 28 1) (w.extractLsb' 22 6) (w.extractLsb' 15 7) (w.extractLsb' 8 7)
  | _ => .error .extMisplaced

/-- A 32-bit instruction by its major; `k` is the major's value. -/
noncomputable def decodeMajor (x0 : Ext) (w : BitVec 32) (k : Nat) : Except DecErr Instr := match k / 16 with
  | 0 => decGroup0 x0 w (k % 16)
  | 1 => decGroup1 x0 w (k % 16)
  | 2 => decGroup2 x0 w (k % 16)
  | 3 => decGroup3 x0 w (k % 16)
  | 4 => decGroup4 x0 w (k % 16)
  | 5 => decGroup5 x0 w (k % 16)
  | 6 => decGroup6 x0 w (k % 16)
  | _ => decGroup7 x0 w (k % 16)

/-- A 32-bit instruction after the EXT unit `x0`. -/
noncomputable def decode32 (x0 : Ext) (w : BitVec 32) : Except DecErr Instr := decodeMajor x0 w (majorOf w).toNat

/-- A 16-bit instruction (R106). -/
def decode16 (p : BitVec 16) : Instr :=
  let d := p.extractLsb' 5 6
  let b := p.extractLsb' 11 5
  match (p.extractLsb' 1 4).toNat with
  | 0 => .vmovShort d b
  | 1 => .vaddI32Short d b
  | 2 => .vsubI32Short d b
  | 3 => .vmulI32Short d b
  | 4 => .vandShort d b
  | 5 => .vorShort d b
  | 6 => .vxorShort d b
  | 7 => .vandnShort d b
  | 8 => .vshlShort d b
  | 9 => .vshrShort d b
  | 10 => .vsraShort d b
  | 11 => .vaddF32Short d b
  | 12 => .vsubF32Short d b
  | 13 => .vmulF32Short d b
  | 14 => .vminF32Short d b
  | _ => .vmaxF32Short d b

/-! ## Bytes -/

/-- The bytes of a parcel and of a word, lowest address first (R1). -/
def bytes16 (p : BitVec 16) : List Byte := [p.extractLsb' 0 8, p.extractLsb' 8 8]
def bytes32 (w : BitVec 32) : List Byte :=
  [w.extractLsb' 0 8, w.extractLsb' 8 8, w.extractLsb' 16 8, w.extractLsb' 24 8]

/-- The word of four bytes, lowest address first. -/
def word32 (b0 b1 b2 b3 : Byte) : BitVec 32 := b3 ++ b2 ++ b1 ++ b0

/-- Whether the first byte begins a 32-bit instruction (R105). -/
def isWide (b0 : Byte) : Bool := b0.extractLsb' 0 1 == 1#1

/-- Decodes the unit at the head of a list of bytes: the instruction and its length in bytes (R105, R110). -/
noncomputable def decodeUnit (bs : List Byte) : Except DecErr (Instr × Nat) := match bs with
  | b0 :: b1 :: r =>
    if isWide b0 then match r with
      | b2 :: b3 :: r =>
        if b0 == 0xFF#8 then
          match decodeExt (word32 b0 b1 b2 b3) with
          | .error e => .error e
          | .ok x => match r with
            | c0 :: _ :: r' =>
              if isWide c0 then
                if c0 == 0xFF#8 then .error .extMisplaced else
                match r, r' with
                | c0 :: c1 :: _, c2 :: c3 :: _ => (decode32 x (word32 c0 c1 c2 c3)).map fun i => (i, 8)
                | _, _ => .error .short
              else .error .extMisplaced
            | _ => .error .short
        else (decode32 .none (word32 b0 b1 b2 b3)).map fun i => (i, 4)
      | _ => .error .short
    else .ok (decode16 (b1 ++ b0), 2)
  | _ => .error .short

/-- How many bytes the unit that begins with `bs` needs, as far as `bs` shows (R105, R110). -/
def unitLen (bs : List Byte) : Nat := match bs with
  | [] => 2
  | b0 :: r =>
    if b0 == 0xFF#8 then
      match r with
      | _ :: _ :: _ :: c0 :: _ => if isWide c0 && !(c0 == 0xFF#8) then 8 else 6
      | _ => 6
    else if isWide b0 then 4 else 2

/-! ## The encoder -/

/-- The bytes of a 32-bit instruction behind its EXT unit. -/
def wide (x : Ext) (w : BitVec 32) : List Byte := match x with
  | .none => bytes32 w
  | x => bytes32 (encodeExt x) ++ bytes32 w

/-- The bytes of a 16-bit instruction. -/
def narrow (p : BitVec 16) : List Byte := bytes16 p

/-- The bytes of an instruction; events have none. -/
def encode (i : Instr) : List Byte := match i with
  | .sadd d a b => wide .none (packS 0#7 b a d)
  | .ssub d a b => wide .none (packS 1#7 b a d)
  | .smul d a b => wide .none (packS 2#7 b a d)
  | .smulh d a b => wide .none (packS 3#7 b a d)
  | .smulhu d a b => wide .none (packS 4#7 b a d)
  | .sand d a b => wide .none (packS 5#7 b a d)
  | .sor d a b => wide .none (packS 6#7 b a d)
  | .sxor d a b => wide .none (packS 7#7 b a d)
  | .sandn d a b => wide .none (packS 8#7 b a d)
  | .sshl d a b => wide .none (packS 9#7 b a d)
  | .sshr d a b => wide .none (packS 10#7 b a d)
  | .ssra d a b => wide .none (packS 11#7 b a d)
  | .srot d a b => wide .none (packS 12#7 b a d)
  | .smin d a b => wide .none (packS 13#7 b a d)
  | .smax d a b => wide .none (packS 14#7 b a d)
  | .sminu d a b => wide .none (packS 15#7 b a d)
  | .smaxu d a b => wide .none (packS 16#7 b a d)
  | .scmpEq d a b => wide .none (packS 17#7 b a d)
  | .scmpNe d a b => wide .none (packS 18#7 b a d)
  | .scmpLt d a b => wide .none (packS 19#7 b a d)
  | .scmpLe d a b => wide .none (packS 20#7 b a d)
  | .scmpLtu d a b => wide .none (packS 21#7 b a d)
  | .scmpLeu d a b => wide .none (packS 22#7 b a d)
  | .ssel d a b => wide .none (packS 23#7 b a d)
  | .sbfe d a b => wide .none (packS 24#7 b a d)
  | .sbfi d a b => wide .none (packS 25#7 b a d)
  | .sadd64 d a b => wide .none (packS 26#7 b a d)
  | .ssub64 d a b => wide .none (packS 27#7 b a d)
  | .sshl64 d a b => wide .none (packS 28#7 b a d)
  | .sshr64 d a b => wide .none (packS 29#7 b a d)
  | .smul64 d a b => wide .none (packS 30#7 b a d)
  | .smov d a => wide .none (packS 31#7 0#8 a d)
  | .sabs d a => wide .none (packS 31#7 1#8 a d)
  | .spopc d a => wide .none (packS 31#7 2#8 a d)
  | .sclz d a => wide .none (packS 31#7 3#8 a d)
  | .sctz d a => wide .none (packS 31#7 4#8 a d)
  | .sffs d a => wide .none (packS 31#7 5#8 a d)
  | .sfmt a => wide .none (packS 31#7 8#8 a 0#8)
  | .sfmtr d => wide .none (packS 31#7 9#8 0#8 d)
  | .sflags d => wide .none (packS 31#7 10#8 0#8 d)
  | .smrd d => wide .none (packS 31#7 11#8 0#8 d)
  | .smwr a => wide .none (packS 31#7 12#8 a 0#8)
  | .sxset x a => wide .none (packS 31#7 16#8 a (0#7 ++ x))
  | .sxadd x a => wide .none (packS 31#7 17#8 a (0#7 ++ x))
  | .sli x d i => wide x (packSI 32#7 i d)
  | .slih d i => wide .none (packSI 33#7 i d)
  | .jmp o => wide .none (packJ 34#7 o)
  | .call o => wide .none (packJ 35#7 o)
  | .rjset o => wide .none (packJ 36#7 o)
  | .bz s o => wide .none (packSI 37#7 o s)
  | .bnz s o => wide .none (packSI 38#7 o s)
  | .vbr s o => wide .none (packSI 39#7 o s)
  | .vbrall s o => wide .none (packSI 40#7 o s)
  | .vbrany s o => wide .none (packSI 41#7 o s)
  | .nop => wide .none (packS 42#7 0#8 0#8 0#8)
  | .exit => wide .none (packS 42#7 1#8 0#8 0#8)
  | .yield => wide .none (packS 42#7 2#8 0#8 0#8)
  | .sleep a => wide .none (packS 42#7 3#8 a 0#8)
  | .jr a => wide .none (packS 42#7 4#8 a 0#8)
  | .ret a => wide .none (packS 42#7 5#8 a 0#8)
  | .trap a => wide .none (packS 42#7 6#8 a 0#8)
  | .rett => wide .none (packS 42#7 7#8 0#8 0#8)
  | .clock d => wide .none (packS 42#7 8#8 0#8 d)
  | .sysrd d a => wide .none (packS 42#7 16#8 a d)
  | .syswr d a => wide .none (packS 42#7 17#8 a d)
  | .hidrd d a => wide .none (packS 42#7 18#8 a d)
  | .hidwr d a => wide .none (packS 42#7 19#8 a d)
  | .launch d a => wide .none (packS 42#7 32#8 a d)
  | .pass d a => wide .none (packS 42#7 33#8 a d)
  | .wmerge d a b => wide .none (packS 43#7 b a d)
  | .sldW x d a b => wide x (packS 44#7 b a d)
  | .sldD x d a b => wide x (packS 45#7 b a d)
  | .sstW x d a b => wide x (packS 46#7 b a d)
  | .sstD x d a b => wide x (packS 47#7 b a d)
  | .satom x d a b => wide x (packS 48#7 b a d)
  | .wnull d => wide .none (packS 49#7 0#8 0#8 d)
  | .wcur d => wide .none (packS 49#7 1#8 0#8 d)
  | .wtest d a => wide .none (packS 49#7 2#8 a d)
  | .waitW x a => wide x (packS 49#7 3#8 a 0#8)
  | .waitBar x d a => wide x (packS 49#7 4#8 a d)
  | .waitGbar x d a => wide x (packS 49#7 5#8 a d)
  | .waitRing x d a => wide x (packS 49#7 6#8 a d)
  | .waitMon x d a => wide x (packS 49#7 7#8 a d)
  | .waitcnt c t => wide .none (packS 49#7 8#8 (0#2 ++ t) (0#5 ++ c))
  | .barinit d a => wide .none (packS 49#7 16#8 a d)
  | .barrive a => wide .none (packS 49#7 17#8 a 0#8)
  | .barexpect d a => wide .none (packS 49#7 18#8 a d)
  | .gbarrive a => wide .none (packS 49#7 19#8 a 0#8)
  | .ringinit d a => wide .none (packS 49#7 24#8 a d)
  | .rrel d a => wide .none (packS 49#7 25#8 a d)
  | .tbar x k => wide x (packS 49#7 32#8 (0#6 ++ k) 0#8)
  | .tredAdd x d k c t => wide x (packS 49#7 33#8 (t ++ c ++ k) d)
  | .tredMin x d k c t => wide x (packS 49#7 34#8 (t ++ c ++ k) d)
  | .tredMax x d k c t => wide x (packS 49#7 35#8 (t ++ c ++ k) d)
  | .tredAnd x d k c => wide x (packS 49#7 36#8 (0#3 ++ c ++ k) d)
  | .tredOr x d k c => wide x (packS 49#7 37#8 (0#3 ++ c ++ k) d)
  | .tqinit d a => wide .none (packS 49#7 48#8 a d)
  | .tqpush d a => wide .none (packS 49#7 49#8 a d)
  | .tqpop x d a => wide x (packS 49#7 50#8 a d)
  | .cinv d a => wide .none (packS 49#7 56#8 a d)
  | .cwb d a => wide .none (packS 49#7 57#8 a d)
  | .pref x d a => wide x (packS 49#7 58#8 a d)
  | .wdesc d a => wide .none (packS 50#7 0#8 a d)
  | .wload a => wide .none (packS 50#7 1#8 a 0#8)
  | .wfree a => wide .none (packS 50#7 2#8 a 0#8)
  | .accst h a => wide .none (packS 50#7 8#8 a (0#4 ++ h))
  | .scabort a => wide .none (packS 51#7 0#8 a 0#8)
  | .scinval d a => wide .none (packS 51#7 1#8 a d)
  | .scframe a => wide .none (packS 51#7 2#8 a 0#8)
  | .scstat d a => wide .none (packS 51#7 3#8 a d)
  | .wpset n a => wide .none (packS 52#7 0#8 a (0#4 ++ n))
  | .wpget d n => wide .none (packS 52#7 1#8 (0#4 ++ n) d)
  | .dhalt a => wide .none (packS 52#7 2#8 a 0#8)
  | .dresume a => wide .none (packS 52#7 3#8 a 0#8)
  | .dstep a => wide .none (packS 52#7 4#8 a 0#8)
  | .dlist d a => wide .none (packS 52#7 5#8 a d)
  | .drdv d a => wide .none (packS 52#7 6#8 a d)
  | .dwrv d a => wide .none (packS 52#7 7#8 a d)
  | .drds d a => wide .none (packS 52#7 8#8 a d)
  | .dwrs d a => wide .none (packS 52#7 9#8 a d)
  | .vli x d i => wide x (packSI 53#7 i d)
  | .trace d a s fa => wide .none (packVS 54#7 0#1 (bit fa) s a d)
  | .vaddI32 d a b fa fb => wide .none (packV 56#7 0#1 (bit fb) (bit fa) b a d)
  | .vsubI32 d a b fa fb => wide .none (packV 56#7 1#1 (bit fb) (bit fa) b a d)
  | .vmulI32 d a b fa fb => wide .none (packV 57#7 0#1 (bit fb) (bit fa) b a d)
  | .vmulhI32 d a b fa fb => wide .none (packV 58#7 0#1 (bit fb) (bit fa) b a d)
  | .vmulhUi32 d a b fa fb => wide .none (packV 58#7 1#1 (bit fb) (bit fa) b a d)
  | .vmadI32 d a b fa fb => wide .none (packV 59#7 0#1 (bit fb) (bit fa) b a d)
  | .vaddsatI32 d a b fa fb => wide .none (packV 60#7 0#1 (bit fb) (bit fa) b a d)
  | .vaddsatUi32 d a b fa fb => wide .none (packV 60#7 1#1 (bit fb) (bit fa) b a d)
  | .vsubsatI32 d a b fa fb => wide .none (packV 61#7 0#1 (bit fb) (bit fa) b a d)
  | .vsubsatUi32 d a b fa fb => wide .none (packV 61#7 1#1 (bit fb) (bit fa) b a d)
  | .vminI32 d a b fa fb => wide .none (packV 62#7 0#1 (bit fb) (bit fa) b a d)
  | .vminUi32 d a b fa fb => wide .none (packV 62#7 1#1 (bit fb) (bit fa) b a d)
  | .vmaxI32 d a b fa fb => wide .none (packV 63#7 0#1 (bit fb) (bit fa) b a d)
  | .vmaxUi32 d a b fa fb => wide .none (packV 63#7 1#1 (bit fb) (bit fa) b a d)
  | .vand d a b fa fb => wide .none (packV 64#7 0#1 (bit fb) (bit fa) b a d)
  | .vor d a b fa fb => wide .none (packV 64#7 1#1 (bit fb) (bit fa) b a d)
  | .vxor d a b fa fb => wide .none (packV 65#7 0#1 (bit fb) (bit fa) b a d)
  | .vandn d a b fa fb => wide .none (packV 65#7 1#1 (bit fb) (bit fa) b a d)
  | .vshl d a b fa fb => wide .none (packV 66#7 0#1 (bit fb) (bit fa) b a d)
  | .vrot d a b fa fb => wide .none (packV 66#7 1#1 (bit fb) (bit fa) b a d)
  | .vshr d a b fa fb => wide .none (packV 67#7 0#1 (bit fb) (bit fa) b a d)
  | .vsra d a b fa fb => wide .none (packV 67#7 1#1 (bit fb) (bit fa) b a d)
  | .vbfeUi32 d a b fa fb => wide .none (packV 68#7 0#1 (bit fb) (bit fa) b a d)
  | .vbfeI32 d a b fa fb => wide .none (packV 68#7 1#1 (bit fb) (bit fa) b a d)
  | .vbfi d a b fa fb => wide .none (packV 69#7 0#1 (bit fb) (bit fa) b a d)
  | .vaddF32 d a b fa fb => wide .none (packV 70#7 0#1 (bit fb) (bit fa) b a d)
  | .vsubF32 d a b fa fb => wide .none (packV 70#7 1#1 (bit fb) (bit fa) b a d)
  | .vaddF64 d a b fa fb => wide .none (packV 71#7 0#1 (bit fb) (bit fa) b a d)
  | .vsubF64 d a b fa fb => wide .none (packV 71#7 1#1 (bit fb) (bit fa) b a d)
  | .vmulF32 d a b fa fb => wide .none (packV 72#7 0#1 (bit fb) (bit fa) b a d)
  | .vmulF64 d a b fa fb => wide .none (packV 72#7 1#1 (bit fb) (bit fa) b a d)
  | .vfmaF32 d a b fa fb => wide .none (packV 73#7 0#1 (bit fb) (bit fa) b a d)
  | .vfmaF64 d a b fa fb => wide .none (packV 73#7 1#1 (bit fb) (bit fa) b a d)
  | .vminF32 d a b fa fb => wide .none (packV 74#7 0#1 (bit fb) (bit fa) b a d)
  | .vmaxF32 d a b fa fb => wide .none (packV 74#7 1#1 (bit fb) (bit fa) b a d)
  | .vdivF32 d a b fa fb => wide .none (packV 75#7 0#1 (bit fb) (bit fa) b a d)
  | .vdivF64 d a b fa fb => wide .none (packV 75#7 1#1 (bit fb) (bit fa) b a d)
  | .vaddF16x2 d a b fa fb => wide .none (packV 76#7 0#1 (bit fb) (bit fa) b a d)
  | .vaddBf16x2 d a b fa fb => wide .none (packV 76#7 1#1 (bit fb) (bit fa) b a d)
  | .vmulF16x2 d a b fa fb => wide .none (packV 77#7 0#1 (bit fb) (bit fa) b a d)
  | .vmulBf16x2 d a b fa fb => wide .none (packV 77#7 1#1 (bit fb) (bit fa) b a d)
  | .vfmaF16x2 d a b fa fb => wide .none (packV 78#7 0#1 (bit fb) (bit fa) b a d)
  | .vfmaBf16x2 d a b fa fb => wide .none (packV 78#7 1#1 (bit fb) (bit fa) b a d)
  | .vminF16x2 d a b fa fb => wide .none (packV 79#7 0#1 (bit fb) (bit fa) b a d)
  | .vminBf16x2 d a b fa fb => wide .none (packV 79#7 1#1 (bit fb) (bit fa) b a d)
  | .vmaxF16x2 d a b fa fb => wide .none (packV 80#7 0#1 (bit fb) (bit fa) b a d)
  | .vmaxBf16x2 d a b fa fb => wide .none (packV 80#7 1#1 (bit fb) (bit fa) b a d)
  | .vcmpEqI32 d a b fa fb => wide .none (packV 81#7 0#1 (bit fb) (bit fa) b a d)
  | .vcmpNeI32 d a b fa fb => wide .none (packV 81#7 1#1 (bit fb) (bit fa) b a d)
  | .vcmpLtI32 d a b fa fb => wide .none (packV 82#7 0#1 (bit fb) (bit fa) b a d)
  | .vcmpLtUi32 d a b fa fb => wide .none (packV 82#7 1#1 (bit fb) (bit fa) b a d)
  | .vcmpLeI32 d a b fa fb => wide .none (packV 83#7 0#1 (bit fb) (bit fa) b a d)
  | .vcmpLeUi32 d a b fa fb => wide .none (packV 83#7 1#1 (bit fb) (bit fa) b a d)
  | .vcmpEqF32 d a b fa fb => wide .none (packV 84#7 0#1 (bit fb) (bit fa) b a d)
  | .vcmpEqF64 d a b fa fb => wide .none (packV 84#7 1#1 (bit fb) (bit fa) b a d)
  | .vcmpNeF32 d a b fa fb => wide .none (packV 85#7 0#1 (bit fb) (bit fa) b a d)
  | .vcmpNeF64 d a b fa fb => wide .none (packV 85#7 1#1 (bit fb) (bit fa) b a d)
  | .vcmpLtF32 d a b fa fb => wide .none (packV 86#7 0#1 (bit fb) (bit fa) b a d)
  | .vcmpLtF64 d a b fa fb => wide .none (packV 86#7 1#1 (bit fb) (bit fa) b a d)
  | .vcmpLeF32 d a b fa fb => wide .none (packV 87#7 0#1 (bit fb) (bit fa) b a d)
  | .vcmpLeF64 d a b fa fb => wide .none (packV 87#7 1#1 (bit fb) (bit fa) b a d)
  | .vdotI8x4 d a b fa fb => wide .none (packV 88#7 0#1 (bit fb) (bit fa) b a d)
  | .vdotE4m3x4 d a b fa fb => wide .none (packV 88#7 1#1 (bit fb) (bit fa) b a d)
  | .vdotBf16x2 d a b fa fb => wide .none (packV 89#7 0#1 (bit fb) (bit fa) b a d)
  | .vdotE2m1b d a b fa fb => wide .none (packV 89#7 1#1 (bit fb) (bit fa) b a d)
  | .vmovs d s => wide .none (packVS 90#7 0#1 0#1 s 0#7 d)
  | .vsel d a s fa => wide .none (packVS 91#7 0#1 (bit fa) s a d)
  | .vlane d a s fa => wide .none (packVS 92#7 0#1 (bit fa) s a d)
  | .vbcast d a s fa => wide .none (packVS 93#7 0#1 (bit fa) s a d)
  | .xbload t s => wide .none (packVS 94#7 0#1 0#1 s 0#7 (0#3 ++ t))
  | .vdec d s => wide .none (packVS 95#7 0#1 0#1 s 0#7 d)
  | .vshflXor d a n fa => wide .none (packVS 96#7 0#1 (bit fa) (2#3 ++ n) a d)
  | .vshflUp d a n fa => wide .none (packVS 96#7 0#1 (bit fa) (4#3 ++ n) a d)
  | .vshflDown d a n fa => wide .none (packVS 96#7 0#1 (bit fa) (6#3 ++ n) a d)
  | .vixVmov d a fa t => wide .none (packVF 97#7 t (bit fa) 0#6 a d)
  | .vixVabs d a fa t => wide .none (packVF 97#7 t (bit fa) 1#6 a d)
  | .vixVneg d a fa t => wide .none (packVF 97#7 t (bit fa) 2#6 a d)
  | .vixVnot d a fa t => wide .none (packVF 97#7 t (bit fa) 3#6 a d)
  | .vixVpopc d a fa t => wide .none (packVF 97#7 t (bit fa) 4#6 a d)
  | .vixVclz d a fa t => wide .none (packVF 97#7 t (bit fa) 5#6 a d)
  | .vixVbrev d a fa t => wide .none (packVF 97#7 t (bit fa) 6#6 a d)
  | .vixVadd d a fa t => wide .none (packVF 97#7 t (bit fa) 16#6 a d)
  | .vixVsub d a fa t => wide .none (packVF 97#7 t (bit fa) 17#6 a d)
  | .vixVmul d a fa t => wide .none (packVF 97#7 t (bit fa) 18#6 a d)
  | .vixVmulh d a fa t => wide .none (packVF 97#7 t (bit fa) 19#6 a d)
  | .vixVaddsat d a fa t => wide .none (packVF 97#7 t (bit fa) 20#6 a d)
  | .vixVsubsat d a fa t => wide .none (packVF 97#7 t (bit fa) 21#6 a d)
  | .vixVmin d a fa t => wide .none (packVF 97#7 t (bit fa) 22#6 a d)
  | .vixVmax d a fa t => wide .none (packVF 97#7 t (bit fa) 23#6 a d)
  | .vixVshl d a fa t => wide .none (packVF 97#7 t (bit fa) 24#6 a d)
  | .vixVshr d a fa t => wide .none (packVF 97#7 t (bit fa) 25#6 a d)
  | .vixVsra d a fa t => wide .none (packVF 97#7 t (bit fa) 26#6 a d)
  | .vixVrot d a fa t => wide .none (packVF 97#7 t (bit fa) 27#6 a d)
  | .vfxVabs d a fa t => wide .none (packVF 98#7 t (bit fa) 0#6 a d)
  | .vfxVneg d a fa t => wide .none (packVF 98#7 t (bit fa) 1#6 a d)
  | .vfxVrnd d a fa t => wide .none (packVF 98#7 t (bit fa) 2#6 a d)
  | .vfxVfrac d a fa t => wide .none (packVF 98#7 t (bit fa) 3#6 a d)
  | .vfxVclass d a fa t => wide .none (packVF 98#7 t (bit fa) 4#6 a d)
  | .vfxVsqrt d a fa t => wide .none (packVF 98#7 t (bit fa) 5#6 a d)
  | .vfxVrcp d a fa t => wide .none (packVF 98#7 t (bit fa) 6#6 a d)
  | .vfxVrsq d a fa t => wide .none (packVF 98#7 t (bit fa) 7#6 a d)
  | .vfxVexp2 d a fa t => wide .none (packVF 98#7 t (bit fa) 8#6 a d)
  | .vfxVlog2 d a fa t => wide .none (packVF 98#7 t (bit fa) 9#6 a d)
  | .vfxVsin d a fa t => wide .none (packVF 98#7 t (bit fa) 10#6 a d)
  | .vfxVcos d a fa t => wide .none (packVF 98#7 t (bit fa) 11#6 a d)
  | .vfxVtanh d a fa t => wide .none (packVF 98#7 t (bit fa) 12#6 a d)
  | .vcvtFloatFromFloat d a y x fa => wide .none (packVF 99#7 0#3 (bit fa) (x ++ y) a d)
  | .vcvtFloatFromInteger d a y x fa => wide .none (packVF 99#7 1#3 (bit fa) (x ++ y) a d)
  | .vcvtIntegerFromFloat d a y x fa => wide .none (packVF 99#7 2#3 (bit fa) (x ++ y) a d)
  | .vcvtIntegerFromInteger d a y x fa => wide .none (packVF 99#7 3#3 (bit fa) (x ++ y) a d)
  | .vpack d a n w fa => wide .none (packVF 99#7 4#3 (bit fa) (w ++ n) a d)
  | .vunpack d a n w fa => wide .none (packVF 99#7 5#3 (bit fa) (w ++ n) a d)
  | .vscan d a e t o fa => wide .none (packVF 100#7 0#3 (bit fa) (0#2 ++ o ++ t ++ e) a d)
  | .vredAdd d a fa t => wide .none (packVF 100#7 t (bit fa) 16#6 a d)
  | .vredMin d a fa t => wide .none (packVF 100#7 t (bit fa) 17#6 a d)
  | .vredMax d a fa t => wide .none (packVF 100#7 t (bit fa) 18#6 a d)
  | .vredAnd d a fa => wide .none (packVF 100#7 0#3 (bit fa) 19#6 a d)
  | .vredOr d a fa => wide .none (packVF 100#7 0#3 (bit fa) 20#6 a d)
  | .vballot d a fa => wide .none (packVF 100#7 0#3 (bit fa) 24#6 a d)
  | .vmatch d a fa => wide .none (packVF 100#7 0#3 (bit fa) 25#6 a d)
  | .vcompact d a fa => wide .none (packVF 100#7 0#3 (bit fa) 26#6 a d)
  | .vshflIdx d a fa => wide .none (packVF 100#7 0#3 (bit fa) 27#6 a d)
  | .vxbar d a t fa c => wide .none (packVF 101#7 c (bit fa) (0#2 ++ t) a d)
  | .vldB x d a s fa => wide x (packVS 102#7 0#1 (bit fa) s a d)
  | .vldsB x d a s fa => wide x (packVS 102#7 1#1 (bit fa) s a d)
  | .vldH x d a s fa => wide x (packVS 103#7 0#1 (bit fa) s a d)
  | .vldsH x d a s fa => wide x (packVS 103#7 1#1 (bit fa) s a d)
  | .vldW x d a s fa => wide x (packVS 104#7 0#1 (bit fa) s a d)
  | .vldsW x d a s fa => wide x (packVS 104#7 1#1 (bit fa) s a d)
  | .vldD x d a s fa => wide x (packVS 105#7 0#1 (bit fa) s a d)
  | .vldsD x d a s fa => wide x (packVS 105#7 1#1 (bit fa) s a d)
  | .vldQ x d a s fa => wide x (packVS 106#7 0#1 (bit fa) s a d)
  | .vldsQ x d a s fa => wide x (packVS 106#7 1#1 (bit fa) s a d)
  | .vstB x d a s fa => wide x (packVS 107#7 0#1 (bit fa) s a d)
  | .vstsB x d a s fa => wide x (packVS 107#7 1#1 (bit fa) s a d)
  | .vstH x d a s fa => wide x (packVS 108#7 0#1 (bit fa) s a d)
  | .vstsH x d a s fa => wide x (packVS 108#7 1#1 (bit fa) s a d)
  | .vstW x d a s fa => wide x (packVS 109#7 0#1 (bit fa) s a d)
  | .vstsW x d a s fa => wide x (packVS 109#7 1#1 (bit fa) s a d)
  | .vstD x d a s fa => wide x (packVS 110#7 0#1 (bit fa) s a d)
  | .vstsD x d a s fa => wide x (packVS 110#7 1#1 (bit fa) s a d)
  | .vstQ x d a s fa => wide x (packVS 111#7 0#1 (bit fa) s a d)
  | .vstsQ x d a s fa => wide x (packVS 111#7 1#1 (bit fa) s a d)
  | .vatom x d a s fa => wide x (packVS 112#7 0#1 (bit fa) s a d)
  | .vatomRtn x d a s fa => wide x (packVS 112#7 1#1 (bit fa) s a d)
  | .vcopy4G2s x d a s fa => wide x (packVS 113#7 0#1 (bit fa) s a d)
  | .vcopy8G2s x d a s fa => wide x (packVS 114#7 0#1 (bit fa) s a d)
  | .vcopy16G2s x d a s fa => wide x (packVS 115#7 0#1 (bit fa) s a d)
  | .vcopy4S2g x d a s fa => wide x (packVS 116#7 0#1 (bit fa) s a d)
  | .vcopy8S2g x d a s fa => wide x (packVS 117#7 0#1 (bit fa) s a d)
  | .vcopy16S2g x d a s fa => wide x (packVS 118#7 0#1 (bit fa) s a d)
  | .vcopy4G2g x d a s fa => wide x (packVS 119#7 0#1 (bit fa) s a d)
  | .vcopy8G2g x d a s fa => wide x (packVS 120#7 0#1 (bit fa) s a d)
  | .vcopy16G2g x d a s fa => wide x (packVS 121#7 0#1 (bit fa) s a d)
  | .mma h a s fa => wide .none (packVS 122#7 0#1 (bit fa) s a (0#3 ++ h))
  | .mmaClr h a s fa => wide .none (packVS 122#7 1#1 (bit fa) s a (0#3 ++ h))
  | .accrd d h => wide .none (packVF 123#7 0#3 0#1 0#6 (0#3 ++ h) d)
  | .accwr h a fa => wide .none (packVF 123#7 0#3 (bit fa) 1#6 a (0#3 ++ h))
  | .accclr h => wide .none (packVF 123#7 0#3 0#1 2#6 0#7 (0#3 ++ h))
  | .sclook d a s fa => wide .none (packVS 124#7 0#1 (bit fa) s a d)
  | .scfill d a s fa => wide .none (packVS 125#7 0#1 (bit fa) s a d)
  | .primemit a fa => wide .none (packVF 126#7 0#3 (bit fa) 0#6 a 0#7)
  | .meshend => wide .none (packVF 126#7 0#3 0#1 1#6 0#7 0#7)
  | .rsget d => wide .none (packVF 126#7 0#3 0#1 2#6 0#7 d)
  | .rtwrite a fa n => wide .none (packVF 126#7 n (bit fa) 3#6 a 0#7)
  | .rtread d n => wide .none (packVF 126#7 n 0#1 4#6 0#7 d)
  | .hitrd d a fa => wide .none (packVF 126#7 0#3 (bit fa) 5#6 a d)
  | .vmovShort d b => narrow (pack16 0#4 b d)
  | .vaddI32Short d b => narrow (pack16 1#4 b d)
  | .vsubI32Short d b => narrow (pack16 2#4 b d)
  | .vmulI32Short d b => narrow (pack16 3#4 b d)
  | .vandShort d b => narrow (pack16 4#4 b d)
  | .vorShort d b => narrow (pack16 5#4 b d)
  | .vxorShort d b => narrow (pack16 6#4 b d)
  | .vandnShort d b => narrow (pack16 7#4 b d)
  | .vshlShort d b => narrow (pack16 8#4 b d)
  | .vshrShort d b => narrow (pack16 9#4 b d)
  | .vsraShort d b => narrow (pack16 10#4 b d)
  | .vaddF32Short d b => narrow (pack16 11#4 b d)
  | .vsubF32Short d b => narrow (pack16 12#4 b d)
  | .vmulF32Short d b => narrow (pack16 13#4 b d)
  | .vminF32Short d b => narrow (pack16 14#4 b d)
  | .vmaxF32Short d b => narrow (pack16 15#4 b d)
  | _ => []

/-- The bytes of a number, lowest first. -/
def bytesOf : Nat → Nat → List Byte
  | 0, _ => []
  | n + 1, w => BitVec.ofNat 8 w :: bytesOf n (w / 256)

/-- The instruction this decoder reads from the bits of an opcode-table word; operand words it has above `nbits`
are zero. -/
noncomputable def decodeTableWord (nbits w : Nat) : Option Instr :=
  match decodeUnit (bytesOf 8 (w % 2 ^ nbits)) with
  | .ok (i, _) => some i
  | .error _ => none

end Sys2Proof
end

