-- ==== Sys2Proof/Machine/Translate.lean ====
section
/-! DEFINITION. Translation through the TLBs and the hardware walk (R376, R378, R439), and page permissions. -/

namespace Sys2Proof.Machine

open Sys2Proof

/-- Access kinds of R374: read, write, fetch. -/
def aRead : Nat := 0
def aWrite : Nat := 1
def aFetch : Nat := 2

/-- A cached translation of an address. -/
def tlbFind (l : List TlbEnt) (g c va : Nat) : Option Page :=
  (l.find? fun e => e.glade == g && e.ctx == c && e.page.va ≤ va && va < e.page.va + e.page.len).map (·.page)

/-- A hit in a core's TLB or its cluster's. -/
def tlbLookup (s : State) (core g c va : Nat) : Option Page :=
  match tlbFind (s.coreSt core).tlb g c va with
  | some p => some p
  | none => if core < 256 then tlbFind (Tab.valD s.clusterTlb (core / 4) []) g c va else none

/-- A trap naming the access kind and the address. -/
def accessTrap {α : Type} (cause kind addr : Nat) : Eff α := .error (.trap cause (BitVec.ofNat 32 kind) addr)

/-- Permission of a translated access: COW before W (R376). -/
def permit (p : Page) (kind va : Nat) : Eff Unit :=
  if kind == aWrite then
    if p.cow then accessTrap cowCause kind va
    else if p.w then .ok () else .error (.trap perm 0 va)
  else if kind == aFetch then (if p.x then .ok () else .error (.trap perm 0 va))
  else .ok ()

/-- Translates an access of a unit (R236, R378): a hit, a walk to wait for, or a trap. In a context that is not open
nothing translates, which a control core sees as PERM (R439). -/
def translate (s : State) (wid eid : Nat) (w : Wave) (kind va : Nat) : Eff Page := do
  let core := w.coreNo wid
  let c := if w.control then 0 else w.ctx
  if w.control && ctxState s w.glade 0 != 1 then .error (.trap perm 0 va)
  else match tlbLookup s core w.glade c va with
    | some p => do
      permit p kind va
      .ok p
    | none =>
      let k : Walk := { glade := w.glade, ctx := c, va := va, kind := kind, wid := wid, eid := eid }
      .error (.hold .xlateMiss (s.updCore core fun x => { x with
        walks := if x.walks.any fun y => y.wid == wid && y.eid == eid && y.va / 2 ^ 16 == va / 2 ^ 16 then x.walks
          else x.walks ++ [k] }))

/-- A global store that takes a replayable fault pins its tag on its core; a pin already held stays (R224, R241). -/
def pinFault (s : State) (wid eid : Nat) : State :=
  let core := (s.waveD wid).coreNo wid
  let view := (s.coreSt core).view
  s.updFrag wid eid fun f => if f.storing && f.pin.isNone then { f with pin := some (view, core) } else f

/-- Translation for a unit that is a global store: a walk to wait for and a replayable fault know it (R224). -/
def forStore {α : Type} (wid eid : Nat) (r : Eff α) : Eff α := match r with
  | .error (.hold why s) => .error (.hold why (s.updFrag wid eid fun f => { f with storing := true }))
  | r => r

/-- A replayable fault of a global store, pinned (R224). -/
def pinOnTrap {α : Type} (s : State) (wid eid : Nat) (r : Eff α) : Eff α := match r with
  | .error (.trap c a ad) =>
    if c == xlate || c == cowCause then
      let s := s.updFrag wid eid fun f => { f with storing := true }
      .error (.ended (pinFault (takeTrap s wid eid c a ad a.toNat) wid eid))
    else .error (.trap c a ad)
  | r => forStore wid eid r

/-- Installs a translation, the oldest entry leaving a full TLB (R378). -/
def tlbInsert (l : List TlbEnt) (cap : Nat) (e : TlbEnt) : List TlbEnt := (e :: l.filter (· != e)).take cap

/-- TLB_WALK_DONE: the walk of a page of a context on a core ends: a translation is installed, or every waiting unit
traps XLATE (R378). -/
def execTlbWalkDone (core ctx page : Nat) (s : State) : Out := runEvent s do
  let ks := (s.coreSt core).walks.filter fun k => k.ctx == ctx && k.va / 2 ^ 16 == page
  let k ← need ks.head? "TLB_WALK_DONE"
  let s := s.updCore core fun x => { x with walks := x.walks.filter fun k => !(k.ctx == ctx && k.va / 2 ^ 16 == page) }
  match walkPage s k.glade ctx k.va with
  | some p =>
    let e : TlbEnt := { glade := k.glade, ctx := ctx, page := p }
    let s := s.updCore core fun x => { x with tlb := tlbInsert x.tlb 256 e }
    .ok (if core < 256 then
      { s with clusterTlb := Tab.put s.clusterTlb (core / 4) (tlbInsert (Tab.valD s.clusterTlb (core / 4) []) 4096 e) }
      else s)
  | none =>
    .ok (ks.foldl (fun s k => match s.frag? k.wid k.eid with
      | some f => if f.stall == .xlateMiss || f.stall == .icacheMiss then
          pinFault (takeTrap s k.wid k.eid xlate (BitVec.ofNat 32 k.kind) k.va k.kind) k.wid k.eid else s
      | none => s) s)

end Sys2Proof.Machine
end

