-- ==== Sys2Proof/Machine/Fetch.lean ====
section
/-! DEFINITION. Instruction fetch through the per-core instruction cache (R34, R105, R442). -/

namespace Sys2Proof.Machine

open Sys2Proof

/-- The instruction-cache line that holds an address. -/
def ilineFind (l : List ILine) (g c va : Nat) : Option ILine :=
  l.find? fun e => e.glade == g && e.ctx == c && e.va == va / 128 * 128

/-- Instruction-cache lines of a core filled less than 20 µs ago (R442). -/
def liveLines (s : State) (core : Nat) : List ILine := (s.coreSt core).ic.filter fun e => decide (s.now < e.filled + lineLife)

/-- A byte of a line. -/
def lineByte (data : BitVec 1024) (a : Nat) : Byte := data.extractLsb' (8 * (a % 128)) 8

/-- `n` fetched bytes from an address, or the first address not fetched. -/
def fetchBytes (l : List ILine) (g c : Nat) : Nat → Nat → Except Nat (List Byte)
  | _, 0 => .ok []
  | va, n + 1 => match ilineFind l g c va with
    | none => .error va
    | some e => match fetchBytes l g c (va + 1) n with
      | .ok t => .ok (lineByte e.data va :: t)
      | .error a => .error a

/-- The bytes of the unit at an address, read as far as its length needs (R105, R110). `len` tells the length from the
bytes so far. -/
def fetchUnit (len : List Byte → Nat) (l : List ILine) (g c va : Nat) : Except Nat (List Byte) :=
  match fetchBytes l g c va 2 with
  | .error a => .error a
  | .ok b2 => match fetchBytes l g c va (len b2) with
    | .error a => .error a
    | .ok b => fetchBytes l g c va (len b)

/-- INSTRUCTION_FETCH: the line that the fragment's next unit needs is filled from its home slice (R442). A walk may
have to end first; a page without X traps PERM. The fill needs room in the mesh (R351). The length of the unit is known only from its first bytes. -/
def fetchLine (len : List Byte → Nat) (wid eid : Nat) (s : State) : Eff State := do
  let w ← need (s.wave? wid) "INSTRUCTION_FETCH"
  let f ← need (w.frag? eid) "INSTRUCTION_FETCH"
  let core := w.coreNo wid
  let c := w.fetchCtx
  match fetchUnit len (liveLines s core) w.glade c f.pc.toNat with
  | .ok _ => notNow "INSTRUCTION_FETCH"
  | .error va =>
    if 2 ^ 52 ≤ va then .ok (takeTrap s wid eid addrNoncanon 0 va 0)
    else match translate s wid eid w aFetch va with
      | .error (.trap k a ad) => .ok (takeTrap s wid eid k a ad aFetch)
      | .error (.hold why s) => .ok (s.updFrag wid eid fun f => { f with stall := why })
      | .error e => .error e
      | .ok p => do
        require (meshRequests s core < 256) "INSTRUCTION_FETCH"
        let base := va / 128 * 128
        let line : ILine := { glade := w.glade, ctx := c, va := base, filled := s.now,
                              data := BitVec.ofNat 1024 (getMem s.mem (p.homeOf base) 128) }
        .ok (s.updCore core fun x => { x with ic := line :: x.ic.filter fun e => !(e.glade == w.glade && e.ctx == c && e.va == base) })

/-- INSTRUCTION_FETCH of a fragment's next unit. -/
def execInstructionFetch (wid eid : Nat) (s : State) : Out := runEvent s (fetchLine unitLen wid eid s)

/-- ICACHE_LINE_EXPIRY: an instruction-cache line is invalidated no later than 20 µs after its fill (R442). -/
def execIcacheLineExpiry (core ctx line : Nat) (s : State) : Out := runEvent s do
  let x := s.coreSt core
  require (x.ic.any fun e => e.ctx == ctx && e.va == line) "ICACHE_LINE_EXPIRY"
  .ok (s.setCore core { x with ic := x.ic.filter fun e => !(e.ctx == ctx && e.va == line) })

/-- A core drops every instruction-cache line of a glade (R222, R442). -/
def dropIcache (s : State) (core g : Nat) : State :=
  s.updCore core fun x => { x with ic := x.ic.filter fun e => e.glade != g }

end Sys2Proof.Machine
end

