-- ==== Sys2Proof/Machine/Witness.lean ====
section
/-! DEFINITION. Epochs, witnesses, landed and completed epochs, landing probes and write-back demands (R215 to R225,
R359, R360). -/

namespace Sys2Proof.Machine

open Sys2Proof

/-! ## Epochs (R215) -/

def e48 : Nat := 2 ^ 48

/-- a is later than b. -/
def epochLater (a b : Nat) : Bool :=
  let d := (a + e48 - b % e48) % e48
  1 ≤ d && d < 2 ^ 47

/-- The later of two epochs. -/
def epochMax (a b : Nat) : Nat := if epochLater a b then a else b

/-- The epoch before. -/
def epochPred (e : Nat) : Nat := (e + e48 - 1) % e48

/-! ## Witness fields (R217) -/

def wKind (w : DWord) : Nat := (w.extractLsb' 62 2).toNat
def wGlade (w : DWord) : Nat := (w.extractLsb' 56 6).toNat
def wCore (w : DWord) : Nat := (w.extractLsb' 48 8).toNat
def wEpoch (w : DWord) : Nat := (w.extractLsb' 0 48).toNat

/-- A witness of a kind: 1 core, 2 device, 3 system. -/
def mkWit (kind g core e : Nat) : DWord := BitVec.ofNat 64 (kind * 2 ^ 62 + g % 64 * 2 ^ 56 + core % 256 * 2 ^ 48 + e % e48)

/-- The core of a merged record: every one. -/
def anyCore : Nat := 0xFFFF

/-- Poisoned(w) of R225. -/
def poisoned (s : State) (g : Nat) (w : DWord) : Bool :=
  wKind w != 0 && wGlade w == g && (s.gladeSt g).poison.any fun p =>
    !epochLater p.lo (wEpoch w) && !epochLater (wEpoch w) p.hi && (wKind w != 1 || p.core == anyCore || wCore w == p.core)

/-- CheckWitness of R218: the trap, if any. -/
def witnessTrap (s : State) (g : Nat) (w : DWord) : Option Nat :=
  if wKind w == 0 then (if w == 0 then none else some witnessInvalid)
  else if wGlade w != g then some witnessForeign
  else if wKind w != 1 && wCore w != 0 then some witnessInvalid
  else if wKind w == 1 && 159 < wCore w then some witnessInvalid
  else
    let lag := ((s.gladeSt g).epoch + e48 - wEpoch w) % e48
    if 2 ^ 47 ≤ lag then some witnessInvalid
    else if 2 ^ 46 ≤ lag then some witnessExpired
    else if poisoned s g w then some witnessPoisoned
    else none

/-- CheckWitness of R218. -/
def checkWitness (s : State) (g : Nat) (w : DWord) : Eff Unit := match witnessTrap s g w with
  | some c => trap c
  | none => .ok ()

/-- WMerge of R219 where the glades agree. -/
def wMerge (p q : DWord) : DWord :=
  if wKind p == 0 then q
  else if wKind q == 0 then p
  else
    let e := epochMax (wEpoch p) (wEpoch q)
    if wKind p == 3 || wKind q == 3 then mkWit 3 (wGlade p) 0 e
    else if wKind p == 1 && wKind q == 1 && wCore p == wCore q then mkWit 1 (wGlade p) (wCore p) e
    else mkWit 2 (wGlade p) 0 e

/-- A witness found in memory: null unless it is a valid one of the glade (R229). -/
def witOrNull (s : State) (g : Nat) (w : DWord) : DWord := if (witnessTrap s g w).isNone then w else 0

/-! ## Landing (R199, R202, R211) -/

/-- The dirty bytes of a line reach the home slice; the line stays, clean. -/
def landBytes (m : List Host.Cell) (e : L1Line) : List Host.Cell := if e.dirty == 0 then m else setMasked m e.home e.data e.dirty
def L1Line.landed (e : L1Line) : L1Line := { e with dirty := 0, valid := e.valid ||| e.dirty }

/-- The number of the bandwidth window in progress: windows of 1 µs (R382). -/
def bwWindow (s : State) : Nat := s.now / 1000

/-- The HBM bytes of a glade in the window in progress. -/
def windowBytes (s : State) (g : Nat) : Nat := if (s.gladeSt g).bwWin == bwWindow s then (s.gladeSt g).bytes else 0

/-- HBM bytes count towards the bandwidth window of the glade (R382). -/
def countBytes (s : State) (g n : Nat) : State :=
  s.updGlade g fun x => { x with bytes := windowBytes s g + n, bwWin := bwWindow s }

/-- Lands the dirty bytes of the lines of a core that satisfy `p`. -/
def landWhere (s : State) (core : Nat) (p : L1Line → Bool) : State :=
  let c := s.coreSt core
  if c.l1.any fun e => p e && e.dirty != 0 then
    let mem := c.l1.foldl (fun m e => if p e then landBytes m e else m) s.mem
    let s := c.l1.foldl (fun s e => if p e && e.dirty != 0 then countBytes s e.glade 128 else s) s
    { s.setCore core { c with l1 := c.l1.map fun e => if p e then e.landed else e } with mem := mem }
  else s

/-- Self-invalidation (R222): every clean line of the glade, the clean bytes of its dirty lines, and its
instruction-cache lines. -/
def selfInvalidate (s : State) (core g : Nat) : State :=
  let s := s.updCore core fun c =>
    { c with l1 := (c.l1.filter fun e => !(e.glade == g && e.dirty == 0)).map fun e =>
        if e.glade == g then { e with valid := e.dirty } else e }
  dropIcache s core g

/-! ## Landed and completed epochs (R216, R224) -/

/-- Waves that are resident or set aside in an image. -/
def allWaves (s : State) : List Wave := Tab.vals s.waves ++ (Tab.vals s.blocks).flatMap fun b => match b.image with
  | some im => Tab.vals im.waves
  | none => []

/-- Tags of the stores of a core and glade that have not performed, pinned ones and replay entries included. -/
def unperformedTags (s : State) (core g : Nat) : List Nat :=
  ((Tab.vals s.ops ++ (Tab.vals s.blocks).flatMap fun b => b.entries).filterMap fun o =>
    if o.glade == g && !o.done && (o.core == core || o.pinCore == some core) then o.tag else none) ++
  ((allWaves s).flatMap fun w => if w.glade == g then w.allFrags.filterMap fun f => match f.pin with
      | some (t, c) => if c == core then some t else none
      | none => none
    else [])

/-- Tags of the stores of a core and glade that have not landed. -/
def unlandedTags (s : State) (core g : Nat) : List Nat :=
  unperformedTags s core g ++
  ((s.coreSt core).l1.filterMap fun e => if e.glade == g && e.dirty != 0 then some e.tag else none)

/-- No tag of a list is at or before an epoch. -/
def allAfter (ts : List Nat) (e : Nat) : Bool := ts.all fun t => epochLater t e

/-- L(c) of R216. -/
def landedEpoch (s : State) (core g : Nat) : Nat :=
  epochPred ((unlandedTags s core g).foldl (fun m t => if epochLater m t then t else m) (s.coreSt core).view)

/-- The cores of a glade and its control core. -/
def gladeCores (s : State) (g : Nat) : List Nat := (s.gladeSt g).cores ++ [256 + g]

/-- The completed epoch of a glade: the earliest L(c). -/
def completedEpoch (s : State) (g : Nat) : Nat :=
  let ls := (gladeCores s g).map fun c => landedEpoch s c g
  ls.foldl (fun m e => if epochLater m e then e else m) (ls.headD 0)

/-! ## Satisfaction (R222) -/

/-- A core witness that names another core still in the glade. -/
def probes (s : State) (core g : Nat) (w : DWord) : Bool := wKind w == 1 && wCore w != core && (s.gladeSt g).cores.contains (wCore w)

/-- The witness is satisfied on a core. -/
def satisfied (s : State) (core g : Nat) (w : DWord) : Bool :=
  if wKind w == 0 then true
  else if epochLater (wEpoch w) (s.coreSt core).view then false
  else if wKind w == 1 && wCore w == core then allAfter (unperformedTags s core g) (wEpoch w)
  else if probes s core g w then
    ((s.coreSt core).answered.any fun a => a.1 == wCore w && !epochLater (wEpoch w) a.2) &&
    allAfter (unlandedTags s (wCore w) g) (wEpoch w)
  else !epochLater (wEpoch w) (s.coreSt core).completed

/-- Satisfaction of the witness asks for self-invalidation. -/
def invalidates (core : Nat) (w : DWord) : Bool := wKind w != 0 && !(wKind w == 1 && wCore w == core)

/-- A request to advance the glade's epoch (R215). -/
def requestAdvance (s : State) (g : Nat) : State := s.updGlade g fun x => { x with advance := true }

/-- A wait of context `c` begins on a witness: a landing probe, or a write-back demand, and a request for an advance. -/
def requestWitness (s : State) (core g c : Nat) (w : DWord) : State :=
  if satisfied s core g w then s
  else
    let s := requestAdvance s g
    if wKind w == 1 && wCore w == core then s
    else if probes s core g w then
      let p : Probe := { glade := g, ctx := c, reader := core, target := wCore w, epoch := wEpoch w }
      if (Tab.vals s.probes).any fun q => q.glade == g && q.reader == core && q.target == p.target && q.epoch == p.epoch then s
      else
        let (k, s) := s.fresh
        { s with probes := Tab.put s.probes k p }
    else s.updGlade g fun x => { x with demand := some (match x.demand with
      | some e => epochMax e (wEpoch w)
      | none => wEpoch w) }

/-- A satisfied witness takes effect on the reader's core. -/
def useWitness (s : State) (core g : Nat) (w : DWord) : State := if invalidates core w then selfInvalidate s core g else s

/-! ## Poison (R225) -/

/-- Serial distance between two epochs, whichever is later. -/
def epochGap (a b : Nat) : Nat :=
  let d := (a + e48 - b % e48) % e48
  min d (e48 - d)

/-- The range that covers two; of two cores it covers every core. -/
def joinPoison (p q : Poison) : Poison :=
  { core := if p.core == q.core then p.core else anyCore, lo := if epochLater p.lo q.lo then q.lo else p.lo, hi := epochMax p.hi q.hi }

/-- Replaces the first record that equals `p`. -/
def replacePoison (p q : Poison) : List Poison → List Poison
  | [] => []
  | x :: t => if x = p then q :: t else x :: replacePoison p q t

/-- Records a poisoned range; a seventeenth merges with the record nearest in epoch (R225). The model takes the serial distance
between the ranges' starts, and the first of equals (notes/assumptions 116). -/
def addPoison (s : State) (g : Nat) (p : Poison) : State :=
  s.updGlade g fun x =>
    if x.poison.length < 16 then { x with poison := x.poison ++ [p] }
    else
      let near := x.poison.foldl (fun best q => match best with
        | none => some q
        | some b => if epochGap q.lo p.lo < epochGap b.lo p.lo then some q else some b) (none : Option Poison)
      match near with
      | some q => { x with poison := replacePoison q (joinPoison q p) x.poison }
      | none => { x with poison := [p] }

/-- A discarded store of a core poisons from its tag to the present view. -/
def poisonTag (s : State) (g core t : Nat) : State :=
  addPoison s g { core := core, lo := t, hi := (s.coreSt core).view }

/-- An operation is discarded; an unperformed store of it poisons its range (R225). -/
def dropOp (s : State) (oid : Nat) : State := match s.op? oid with
  | none => s
  | some o =>
    let s := match o.tag with
      | some t => if o.done then s else poisonTag s o.glade (o.pinCore.getD o.core) t
      | none => s
    { s with ops := Tab.del s.ops oid }

/-! ## Events -/

/-- Lands one line: its dirty bytes reach the home slice. -/
def landLine (name : String) (core ctx line : Nat) (s : State) : Eff State := do
  let p := fun (e : L1Line) => e.ctx == ctx && e.va == line
  require ((s.coreSt core).l1.any fun e => p e && e.dirty != 0) name
  .ok (landWhere s core p)

/-- STORE_LAND: the dirty bytes of a line reach their home slice and take their place in modification order (R211). -/
def execStoreLand (core ctx line : Nat) (s : State) : Out := runEvent s (landLine "STORE_LAND" core ctx line s)

/-- L1_DEADLINE_WRITE_BACK: a dirty line is written back ahead of its 20 µs bound (R202). -/
def execL1DeadlineWriteBack (core ctx line : Nat) (s : State) : Out :=
  runEvent s (landLine "L1_DEADLINE_WRITE_BACK" core ctx line s)

/-- L1_LINE_EXPIRY: a clean line is invalidated no later than 20 µs after its fill (R203); of a dirty line the clean
bytes go. -/
def execL1LineExpiry (core ctx line : Nat) (s : State) : Out := runEvent s do
  let p := fun (e : L1Line) => e.ctx == ctx && e.va == line
  require ((s.coreSt core).l1.any p) "L1_LINE_EXPIRY"
  .ok (s.updCore core fun c =>
    { c with l1 := (c.l1.filter fun e => !(p e && e.dirty == 0)).map fun e => if p e then { e with valid := e.dirty } else e })

/-- LANDING_PROBE: the target core writes back every dirty line of the glade (R222). -/
def execLandingProbe (probe : Nat) (s : State) : Out := runEvent s do
  let p ← need (Tab.val? s.probes probe) "LANDING_PROBE"
  require (!p.received) "LANDING_PROBE"
  let s := landWhere s p.target fun e => e.glade == p.glade
  .ok { s with probes := Tab.put s.probes probe { p with received := true } }

/-- LANDING_PROBE_ANSWER: once every store at or before the epoch has landed the answer returns, and the reader
self-invalidates (R222). -/
def execLandingProbeAnswer (probe : Nat) (s : State) : Out := runEvent s do
  let p ← need (Tab.val? s.probes probe) "LANDING_PROBE_ANSWER"
  require (p.received && allAfter (unlandedTags s p.target p.glade) p.epoch) "LANDING_PROBE_ANSWER"
  let s : State := { s with probes := Tab.del s.probes probe }
  let s := s.updCore p.reader fun c =>
    { c with answered := (p.target, p.epoch) :: c.answered.filter fun a => a.1 != p.target || epochLater a.2 p.epoch }
  .ok (selfInvalidate s p.reader p.glade)

/-- WRITE_BACK_DEMAND: the demanded epoch reaches a core, which writes back its lines tagged at or before it (R359). -/
def execWriteBackDemand (g core : Nat) (s : State) : Out := runEvent s do
  let e ← need (s.gladeSt g).demand "WRITE_BACK_DEMAND"
  require ((gladeCores s g).contains core) "WRITE_BACK_DEMAND"
  .ok (landWhere s core fun l => l.glade == g && !epochLater l.tag e)

/-- The clks of R215 between two grants. -/
def grantGap : Nat := 32

/-- The glade's pending requests are granted now: at least 32 clk of its control core after the last grant (R215). -/
def grantsNow (s : State) (g : Nat) : Bool := (s.gladeSt g).advance && decide ((s.gladeSt g).grantAt ≤ coreClk s (256 + g))

/-- EPOCH_ADVANCE: pending requests are granted as one advance, and the cores named see the counter (R215). Where none is
granted only the named cores' views move. Poison records that lag by 2^46 are dropped (R225). -/
def execEpochAdvance (g : Nat) (seen : List Nat) (s : State) : Out := runEvent s do
  let x := s.gladeSt g
  let grant := grantsNow s g
  require (grant || seen.any fun c => (s.coreSt c).view != x.epoch) "EPOCH_ADVANCE"
  require (seen.all fun c => (gladeCores s g).contains c) "EPOCH_ADVANCE"
  let e := if grant then (x.epoch + 1) % e48 else x.epoch
  let s := s.setGlade g { x with
    epoch := e, advance := x.advance && !grant, grantAt := if grant then coreClk s (256 + g) + grantGap else x.grantAt,
    poison := x.poison.filter fun p => (e + e48 - p.hi) % e48 < 2 ^ 46 }
  .ok (seen.foldl (fun s c => s.updCore c fun y => { y with view := e }) s)

/-- COMPLETED_EPOCH_PUBLISH: the taproot publishes the glade's completed epoch, which never decreases, to the cores
named and to TPR_GEPOCHg (R216, R360). -/
def execCompletedEpochPublish (g : Nat) (seen : List Nat) (s : State) : Out := runEvent s do
  require (seen.all fun c => (gladeCores s g).contains c) "COMPLETED_EPOCH_PUBLISH"
  let x := s.gladeSt g
  let e := epochMax (completedEpoch s g) x.completed
  let s := s.setGlade g { x with completed := e, demand := match x.demand with
    | some d => if epochLater d e then some d else none
    | none => none }
  let s := setReg64 s .tpr (0x100 + 8 * g) e
  .ok (seen.foldl (fun s c => s.updCore c fun y => { y with completed := epochMax e y.completed }) s)

end Sys2Proof.Machine
end

