-- ==== Sys2Proof/Machine/L1.lean ====
section
/-! DEFINITION. Reading and writing global memory from a core: through L1, or at the home slice for SCOPE sys, L2ONLY and
the pages that act as SCOPE sys (R202 to R214, R223, R226, R376). -/

namespace Sys2Proof.Machine

open Sys2Proof

/-- The link to a home location carries traffic: HBM needs none (R396, R427). -/
def linkUp (s : State) (home : Nat) : Bool :=
  if home < 2 ^ 56 then true
  else if home < 2 ^ 57 then s.hostUp
  else regFld s .pyl (0x100 + 8 * (home / 2 ^ 56 - 2)) 0 0 == 1

/-- Every location of an operation is reachable. -/
def Op.reachable (s : State) (o : Op) : Bool := o.scr || o.accs.all fun a => linkUp s a.home && linkUp s a.home2

/-- Lines that a core's L1 has room for: 1,536 KiB less the scratchpad (R22, R23). A control core's L1 has the least
size of R22, 256 KiB (notes/assumptions 110). -/
def l1Lines (s : State) (core : Nat) : Nat := if core < 256 then (1536 * 1024 - (s.coreSt core).scrSize) / 128 else 2048

/-- The lines at the end of an L1 that holds more than it has room for are evicted; their dirty bytes land (R22, R202,
notes/assumptions 110). -/
def evictLines (s : State) (core : Nat) : State :=
  let n := l1Lines s core
  let l := (s.coreSt core).l1
  if l.length ≤ n then s
  else
    let out := l.drop n
    let s := landWhere s core fun e => out.any fun v => e.isAt v.glade v.ctx v.va
    s.updCore core fun x => { x with l1 := x.l1.take n }

/-- Puts a line into a core's L1, before the lines that have stood in it longer. -/
def linePut (s : State) (core : Nat) (e : L1Line) : State :=
  evictLines (s.updCore core fun x => { x with l1 := e :: x.l1.filter fun y => !y.isAt e.glade e.ctx e.va }) core

/-- Every bit of the bytes of a mask. -/
def expandMask (m : BitVec 128) : BitVec 1024 :=
  BitVec.ofNat 1024 ((List.range 128).foldr (fun i acc => (if m.getLsbD i then 255 else 0) + 256 * acc) 0)

/-- `n` bytes of a line. -/
def L1Line.get (e : L1Line) (off n : Nat) : Nat := bitsOf e.data.toNat (8 * (off + n) - 1) (8 * off)

/-- Replaces `n` bytes of a line's data. -/
def L1Line.setData (e : L1Line) (off n x : Nat) : L1Line :=
  { e with data := BitVec.ofNat 1024 (setBits e.data.toNat (8 * (off + n) - 1) (8 * off) x) }

/-- A line read by one read instruction of a counted line: it counts one, and goes at zero (R206). -/
def L1Line.counted (e : L1Line) : Option L1Line :=
  if e.dirty == 0 && 0 < e.rc then (if e.rc == 1 then none else some { e with rc := e.rc - 1 }) else some e

/-- A clean line of a glade that a peer returns for a home address (R355). -/
def peerLine (s : State) (peer g base : Nat) : Option L1Line :=
  (s.coreSt peer).l1.find? fun e =>
    e.glade == g && e.home == base && e.dirty == 0 && e.valid == BitVec.allOnes 128 && decide (s.now < e.filled + lineLife)

/-- The core whose L1 a read is sent to first, where R355 lets it be: the predictor of R24 is a free choice
(notes/assumptions 111). -/
def peerOf (s : State) (core g c va : Nat) : Option Nat :=
  let shut : Bool := match walkPage s g c va with
    | some p => !p.w
    | none => false
  let ps := (s.gladeSt g).cores.filter fun p => p / 4 != core / 4
  if regFld s .fab 0 0 0 == 1 && core < 160 && shut && !ps.isEmpty then ps[Config.peerGuess s.freeCount % (ps.length + 1)]?
  else none

/-- Whether a peer that holds the line clean returns it, where the forwarding of R355 is tried. The peer's line counts the
read (R206). The bytes are those that the home slice would return (R204, R356). -/
def forwarded (s : State) (core g c va base : Nat) : Bool × State := match peerOf s core g c va with
  | none => (false, s)
  | some p =>
    let s : State := { s with freeCount := s.freeCount + 1 }
    match peerLine s p g base with
    | none => (false, s)
    | some e => (true, s.updCore p fun x => { x with
        l1 := x.l1.filterMap fun y => if y.isAt e.glade e.ctx e.va then y.counted else some y })

/-- Fills a line, merging under the dirty-byte mask (R202, R222); with `peer` the read may be forwarded (R355), which changes
no value (R204). A line keeps no read count once it is dirty (R206). -/
def fillLine (peer : Bool) (s : State) (core g c va home rc pol : Nat) : State :=
  let base := home - va % 128
  let (fwd, s) := if peer then forwarded s core g c va base else (false, s)
  let bytes := BitVec.ofNat 1024 (getMem s.mem base 128)
  let o := (lineFind s core g c va).getD { glade := g, ctx := c, va := lineOf va, home := base }
  let m := expandMask o.dirty
  let data := if o.dirty == 0 then bytes else (bytes &&& ~~~m) ||| (o.data &&& m)
  let e : L1Line := { o with data := data, home := base, valid := BitVec.allOnes 128, filled := s.now, pol := pol,
                             rc := if o.dirty == 0 then rc else 0, fwd := fwd }
  let s := linePut { s with fills := s.fills ++ [e] } core e
  if fwd then s else countBytes s g 128

/-- The bytes at the home slice under the core's own dirty bytes (R211, R212). -/
def homeUnderDirty (s : State) (core g c va home n : Nat) : Nat :=
  let x := getMem s.mem home n
  match lineFind s core g c va with
  | none => x
  | some e => ofBytes ((List.range n).map fun i =>
      if e.dirty.getLsbD (va % 128 + i) then e.data.extractLsb' (8 * (va % 128 + i)) 8 else BitVec.ofNat 8 (x / 256 ^ i))

/-- Clean copies of some bytes of a line go. -/
def dropClean (s : State) (core g c va n : Nat) : State := match lineFind s core g c va with
  | none => s
  | some e => linePut s core { e with valid := e.valid &&& (~~~byteMask (va % 128) n ||| e.dirty) }

/-- The core's copy of a line goes, its dirty bytes landing first (R226, R261). -/
def dropLine (s : State) (core g c va : Nat) : State :=
  let s := landWhere s core fun e => e.isAt g c va
  if (lineFind s core g c va).isSome then
    s.updCore core fun x => { x with l1 := x.l1.filter fun e => !e.isAt g c va }
  else s

/-- Bytes moved between HBM and a core (R382). -/
def countHbm (s : State) (g home n : Nat) : State := if isFar home then s else countBytes s g n

/-- One read of global memory by a core. A read at the home slice leaves no older clean copy in L1 (R211). -/
def readWith (peer : Bool) (s : State) (core g c scope pol rc va home n : Nat) : Nat × State :=
  if bypasses scope pol home then
    (homeUnderDirty s core g c va home n, countHbm (dropClean s core g c va n) g home n)
  else
    let s := if l1Misses s core g c va n then fillLine peer s core g c va home rc pol else s
    (match lineFind s core g c va with
      | some e => e.get (va % 128) n
      | none => 0, s)

/-- A read by a load or a copy, which a peer may serve (R355). -/
def readGlobal (s : State) (core g c scope pol rc va home n : Nat) : Nat × State :=
  readWith true s core g c scope pol rc va home n

/-- A read by an atomic or a `wload`, through L1 and never forwarded (R355). -/
def readUnshared (s : State) (core g c va home n : Nat) : Nat × State := readWith false s core g c 1 0 0 va home n

/-- One write of global memory by a core, tagged (R202, R212, R216). -/
def writeGlobal (s : State) (core g c scope pol tag va home n x : Nat) : State :=
  if bypasses scope pol home then
    let s := landWhere s core fun e => e.isAt g c va
    let s : State := { s with mem := setMem s.mem home n x }
    countHbm (dropClean s core g c va n) g home n
  else
    let o := (lineFind s core g c va).getD { glade := g, ctx := c, va := lineOf va, home := home - va % 128 }
    let e := o.setData (va % 128) n x
    linePut s core { e with
      dirty := e.dirty ||| byteMask (va % 128) n, valid := e.valid ||| byteMask (va % 128) n, rc := 0,
      tag := if e.dirty == 0 || epochLater e.tag tag then tag else e.tag,
      dirtied := if e.dirty == 0 then s.now else e.dirtied }

/-- An instruction has read bytes of L1 lines: each counts one, and a line at zero goes (R206). -/
def countReads (s : State) (core g c : Nat) (lines : List Nat) : State :=
  s.updCore core fun x => { x with
    l1 := x.l1.filterMap fun e => if e.glade == g && e.ctx == c && lines.contains e.va then e.counted else some e }

/-- The lines that an operation's reads take from L1 (R205, R206). -/
def Op.l1Reads (o : Op) (accs : List Acc) : List Nat :=
  (accs.filter fun a => !bypasses o.scope o.pol a.home).map fun a => lineOf a.va

/-- Ranges of `n` and `m` bytes at `a` and `b` share a location. -/
def overlap (a n b m : Nat) : Bool := a < b + m && b < a + n

/-- The global address ranges that an operation reads or writes for its wave; cache maintenance names its range (R230,
R247, R274). The accesses of a `wload` hold their lengths in `va2`. -/
def Op.ranges (o : Op) : List (Nat × Nat) := match o.kind with
  | .load | .store | .atomic => if o.scr then [] else o.accs.map fun a => (a.va, o.size)
  | .copy => (if o.stage == 1 then [] else o.accs.map fun a => (a.va, o.size)) ++
      (if o.stage == 0 then [] else o.accs.map fun a => (a.va2, o.size))
  | .writeBack | .wload => o.accs.map fun a => (a.va, a.va2)
  | _ => []

/-- The operation writes global memory for its wave. -/
def Op.writes (o : Op) : Bool := o.kind == .store || o.kind == .atomic || (o.kind == .copy && o.stage != 0)

/-- Two operations of one wave have a location in common: they take effect there in program order, two reads too, so that the
wave observes the location's values in modification order (R211, R212). Cache maintenance follows writes only (R247). -/
def Op.meets (o p : Op) : Bool :=
  (o.kind != .writeBack || p.writes) && o.ranges.any fun a => p.ranges.any fun b => overlap a.1 a.2 b.1 b.2

/-- An earlier access of the wave, not yet performed, shares a location with one of this operation (R212, R230). Cache
maintenance waits for earlier stores to its range (R247). -/
def earlierOverlap (s : State) (oid : Nat) (o : Op) : Bool :=
  s.ops.any fun (k, p) => k < oid && p.wid == o.wid && !p.done && p.kind != .writeBack && o.meets p

end Sys2Proof.Machine
end

