-- ==== Sys2Proof/Machine/LoadStore.lean ====
section
/-! DEFINITION. Loads and stores (R235 to R243), their performing (R199), and cache maintenance (R247). -/

namespace Sys2Proof.Machine

open Sys2Proof

/-- What an EXT unit gives a memory instruction (R111, R112). -/
structure MemExt where
  ofs : Int := 0
  rc : Nat := 0
  pol : Nat := 0
  scope : Nat := 1
  wit : Option Nat := none

def memExt (x : Ext) : MemExt := match x with
  | .ofs o => { ofs := o.toInt }
  | .mem rc pol scope wit =>
    { rc := rc.toNat, pol := pol.toNat, scope := scope.toNat, wit := if wit == 255 then none else some wit.toNat }
  | .atom _ _ scope o => { ofs := o.toInt, scope := scope.toNat }
  | _ => {}

/-- Applies `f` to each element, stopping at the first that stops. -/
def collect {α β : Type} (f : α → Eff β) : List α → Eff (List β)
  | [] => .ok []
  | a :: t => do
    let b ← f a
    let bs ← collect f t
    .ok (b :: bs)

/-- Checks and translates a global address (R236): its home location. -/
def globalHome (s : State) (wid eid : Nat) (w : Wave) (va size kind : Nat) : Eff Nat :=
  if 2 ^ 52 ≤ va then .error (.trap addrNoncanon 0 va)
  else if va % size != 0 then .error (.trap misalign 0 va)
  else do
    let p ← translate s wid eid w kind va
    .ok (p.homeOf va)

/-- An access of a lane at a global address. -/
def globalAcc (s : State) (wid eid : Nat) (w : Wave) (lane : Nat) (va : Nat) (size kind : Nat) : Eff Acc := do
  let h ← globalHome s wid eid w va size kind
  .ok { lane := lane, va := va, home := h }

/-- An access of a lane at a scratch address. -/
def scratchAcc (s : State) (w : Wave) (lane a size : Nat) (own : Bool) : Eff Acc := do
  scrCheck s w a size size own
  .ok { lane := lane, va := a }

/-- The accesses of a vector memory instruction: each active lane's address checked in turn (R236, R237). -/
def laneAccs (s : State) (wid eid : Nat) (w : Wave) (f : Frag) (va base : Nat) (ofs : Int) (size kind : Nat) (scr : Bool) :
    Eff (List Acc) :=
  collect (fun l =>
    let sum := (base : Int) + (w.vreg va l).toNat + ofs
    if scr then scratchAcc s w l (wrap 32 sum) size false
    else globalAcc s wid eid w l (wrap 64 sum) size kind) (lanesOf f.active)

/-- Address events of accesses: source 0 load, 1 store (R401). -/
def addrEvs (srcs : List Nat) (accs : List Acc) (size : Nat) (scr : Bool) : List WatchEv :=
  srcs.flatMap fun k => accs.map fun a => { src := k, lane := a.lane, x := a.va, len := size, scr := scr }

/-- Value events of a datum: source 2 store value, 3 load value; a `.q` access gives one per half (R401). -/
def valueEvs (src : Nat) (lane size x : Nat) : List WatchEv :=
  if size == 16 then [{ src := src, lane := lane, x := x % 2 ^ 64 }, { src := src, lane := lane, x := x / 2 ^ 64 % 2 ^ 64 }]
  else [{ src := src, lane := lane, x := x % 2 ^ (8 * size) }]

/-- Notes value events where the wave is watched. -/
def noteValues (s : State) (w : Wave) (src size : Nat) (accs : List Acc) : State :=
  if watching s w then { s with watchEv := s.watchEv ++ accs.flatMap fun a => valueEvs src a.lane size a.data } else s

/-- The block becomes published (R66). -/
def publish (s : State) (blk : Nat) : State := s.updBlk blk fun b => { b with published := true }

/-- The witness a global store merges into its wave's store witness (R221, R376). -/
def storeWit (w : Wave) (sys : Bool) (tag : Nat) : DWord :=
  if sys then mkWit 3 w.glade 0 tag else if w.control then mkWit 2 w.glade 0 tag else mkWit 1 w.glade w.core tag

/-- Merges the witnesses of a store's accesses. -/
def noteStore (s : State) (wid : Nat) (scope tag : Nat) (homes : List Nat) : State :=
  s.updWave wid fun w => { w with sw := homes.foldl (fun sw h => wMerge sw (storeWit w (scope == 2 || isFar h) tag)) w.sw }

/-- The tag of a store issued now, and the core it stays pinned on (R216, R224). -/
def storeTag (s : State) (core : Nat) (f : Frag) : Nat × Option Nat := match f.pin with
  | some (t, c) => (t, some c)
  | none => ((s.coreSt core).view, none)

/-- Issues a load (R241): address events, then the destinations become empty. Without an active lane nothing happens. -/
def issueLoad (s : State) (wid eid : Nat) (o : Op) (wit : DWord) : Eff State := do
  opRoom s o
  if !o.scr then checkWitness s o.glade wit
  let s ← watchAddr s wid eid (addrEvs [0] o.accs o.size o.scr)
  if o.accs.isEmpty then .ok s
  else
    let s := if o.scr then s else requestWitness s o.core o.glade o.ctx wit
    let (_, s) := putOp s { o with wit := wit }
    .ok (s.updWave wid fun w => (w.markEmptyV o.dst).markEmptyS o.sdst)

/-- Issues a store (R241): address events, value events, the tag and the store witness. -/
def issueStore (s : State) (wid eid : Nat) (f : Frag) (o : Op) : Eff State := do
  opRoom s o
  let s ← watchAddr s wid eid (addrEvs [1] o.accs o.size o.scr)
  let s := noteValues s (s.waveD wid) 2 o.size o.accs
  if o.accs.isEmpty then .ok (if o.scr then s else publish s o.blk)
  else if o.scr then .ok (putOp s o).2
  else
    let (tag, pc) := storeTag s o.core f
    let s := (putOp s { o with tag := some tag, pinCore := pc }).2
    .ok (publish (noteStore s wid o.scope tag (o.accs.map (·.home))) o.blk)

/-- Data registers of an access size (R240). -/
def dataRegs (size : Nat) : Nat := if size == 8 then 2 else if size == 16 then 4 else 1

/-- The scalar base of the M layout. -/
def memBase (b : Nat) (scr : Bool) : SSrc := if scr then { fd := b } else { fd := b, cnt := 2, pair := true }

/-- A vector load of `size` bytes per lane (R240, R241). -/
def vecLoad (x : Ext) (size : Nat) (scr : Bool) (d a : BitVec 7) (b : BitVec 8) (fa : Bool) (s : State) : Out :=
  issueUnit (extSize x) true s fun s wid eid w f => do
    noControl w
    let m := memExt x
    let regs := dataRegs size
    let ws : List SSrc := match m.wit with
      | some n => [{ fd := n, cnt := 2, pair := true }]
      | none => []
    let g ← getOpndsFor s wid w f
      { v := [{ fd := a.toNat, tie := fa }], s := memBase b.toNat scr :: ws, vd := some (d.toNat, regs, size == 8) }
      (roomFor s wid w.core (some cLD) !scr)
    let accs ← laneAccs s wid eid w f (g.v.getD 0 0) (g.s.getD 0 0) m.ofs size aRead scr
    issueLoad s wid eid
      { mkOp wid eid w f .load (some cLD) with
        accs := accs, size := size, dst := range g.vd regs, scr := scr, scope := m.scope, pol := m.pol, rc := m.rc }
      (BitVec.ofNat 64 (g.s.getD 1 0))

/-- A vector store of `size` bytes per lane. -/
def vecStore (x : Ext) (size : Nat) (scr : Bool) (d a : BitVec 7) (b : BitVec 8) (fa : Bool) (s : State) : Out :=
  issueUnit (extSize x) true s fun s wid eid w f => do
    noControl w
    let m := memExt x
    let regs := dataRegs size
    let g ← getOpndsFor s wid w f
      { v := [{ fd := a.toNat, tie := fa }, { fd := d.toNat, cnt := regs, pair := size == 8 }], s := [memBase b.toNat scr] }
      (roomFor s wid w.core (some cST) !scr)
    let accs ← pinOnTrap s wid eid (laneAccs s wid eid w f (g.v.getD 0 0) (g.s.getD 0 0) m.ofs size aWrite scr)
    let accs := accs.map fun c => { c with data := vecVal w (g.v.getD 1 0) regs c.lane % 2 ^ (8 * size) }
    issueStore s wid eid f
      { mkOp wid eid w f .store (some cST) with
        accs := accs, size := size, scr := scr, scope := m.scope, pol := m.pol, rc := m.rc }

def execVldB (x : Ext) (d a : BitVec 7) (b : BitVec 8) (fa : Bool) (s : State) : Out := vecLoad x 1 false d a b fa s
def execVldH (x : Ext) (d a : BitVec 7) (b : BitVec 8) (fa : Bool) (s : State) : Out := vecLoad x 2 false d a b fa s
def execVldW (x : Ext) (d a : BitVec 7) (b : BitVec 8) (fa : Bool) (s : State) : Out := vecLoad x 4 false d a b fa s
def execVldD (x : Ext) (d a : BitVec 7) (b : BitVec 8) (fa : Bool) (s : State) : Out := vecLoad x 8 false d a b fa s
def execVldQ (x : Ext) (d a : BitVec 7) (b : BitVec 8) (fa : Bool) (s : State) : Out := vecLoad x 16 false d a b fa s
def execVldsB (x : Ext) (d a : BitVec 7) (b : BitVec 8) (fa : Bool) (s : State) : Out := vecLoad x 1 true d a b fa s
def execVldsH (x : Ext) (d a : BitVec 7) (b : BitVec 8) (fa : Bool) (s : State) : Out := vecLoad x 2 true d a b fa s
def execVldsW (x : Ext) (d a : BitVec 7) (b : BitVec 8) (fa : Bool) (s : State) : Out := vecLoad x 4 true d a b fa s
def execVldsD (x : Ext) (d a : BitVec 7) (b : BitVec 8) (fa : Bool) (s : State) : Out := vecLoad x 8 true d a b fa s
def execVldsQ (x : Ext) (d a : BitVec 7) (b : BitVec 8) (fa : Bool) (s : State) : Out := vecLoad x 16 true d a b fa s
def execVstB (x : Ext) (d a : BitVec 7) (b : BitVec 8) (fa : Bool) (s : State) : Out := vecStore x 1 false d a b fa s
def execVstH (x : Ext) (d a : BitVec 7) (b : BitVec 8) (fa : Bool) (s : State) : Out := vecStore x 2 false d a b fa s
def execVstW (x : Ext) (d a : BitVec 7) (b : BitVec 8) (fa : Bool) (s : State) : Out := vecStore x 4 false d a b fa s
def execVstD (x : Ext) (d a : BitVec 7) (b : BitVec 8) (fa : Bool) (s : State) : Out := vecStore x 8 false d a b fa s
def execVstQ (x : Ext) (d a : BitVec 7) (b : BitVec 8) (fa : Bool) (s : State) : Out := vecStore x 16 false d a b fa s
def execVstsB (x : Ext) (d a : BitVec 7) (b : BitVec 8) (fa : Bool) (s : State) : Out := vecStore x 1 true d a b fa s
def execVstsH (x : Ext) (d a : BitVec 7) (b : BitVec 8) (fa : Bool) (s : State) : Out := vecStore x 2 true d a b fa s
def execVstsW (x : Ext) (d a : BitVec 7) (b : BitVec 8) (fa : Bool) (s : State) : Out := vecStore x 4 true d a b fa s
def execVstsD (x : Ext) (d a : BitVec 7) (b : BitVec 8) (fa : Bool) (s : State) : Out := vecStore x 8 true d a b fa s
def execVstsQ (x : Ext) (d a : BitVec 7) (b : BitVec 8) (fa : Bool) (s : State) : Out := vecStore x 16 true d a b fa s

/-- The address of a scalar form (R236). -/
def scalarAddr (base off : Nat) (ofs : Int) : Nat := wrap 64 ((base : Int) + off + ofs)

/-- A scalar load: one access for the fragment, in its lowest member lane (R235, R243). -/
def scalarLoad (x : Ext) (size : Nat) (d a b : BitVec 8) (s : State) : Out :=
  issueUnit (extSize x) true s fun s wid eid w f => do
    let m := memExt x
    let ws : List SSrc := match m.wit with
      | some n => [{ fd := n, cnt := 2, pair := true }]
      | none => []
    let g ← getOpnds s wid w f
      { s := { fd := a.toNat, cnt := 2, pair := true } :: { fd := b.toNat } :: ws,
        sd := some (d.toNat, size / 4, size == 8) }
    let acc ← globalAcc s wid eid w (lowLane f.memb) (scalarAddr (g.s.getD 0 0) (g.s.getD 1 0) m.ofs) size aRead
    issueLoad s wid eid
      { mkOp wid eid w f .load (some cLD) with
        accs := [acc], size := size, sdst := range d.toNat (size / 4), scope := m.scope, pol := m.pol, rc := m.rc }
      (BitVec.ofNat 64 (g.s.getD 2 0))

/-- A scalar store (R243). -/
def scalarStore (x : Ext) (size : Nat) (d a b : BitVec 8) (s : State) : Out :=
  issueUnit (extSize x) true s fun s wid eid w f => do
    let m := memExt x
    let g ← getOpnds s wid w f
      { s := [{ fd := a.toNat, cnt := 2, pair := true }, { fd := b.toNat }, { fd := d.toNat, cnt := size / 4, pair := size == 8 }] }
    let ad := scalarAddr (g.s.getD 0 0) (g.s.getD 1 0) m.ofs
    let acc ← pinOnTrap s wid eid (globalAcc s wid eid w (lowLane f.memb) ad size aWrite)
    issueStore s wid eid f
      { mkOp wid eid w f .store (some cST) with
        accs := [{ acc with data := g.s.getD 2 0 % 2 ^ (8 * size) }], size := size, scope := m.scope, pol := m.pol, rc := m.rc }

/-- `sld.w` (R243). -/
def execSldW (x : Ext) (d a b : BitVec 8) (s : State) : Out := scalarLoad x 4 d a b s
/-- `sld.d` (R243). -/
def execSldD (x : Ext) (d a b : BitVec 8) (s : State) : Out := scalarLoad x 8 d a b s
/-- `sst.w` (R243). -/
def execSstW (x : Ext) (d a b : BitVec 8) (s : State) : Out := scalarStore x 4 d a b s
/-- `sst.d` (R243). -/
def execSstD (x : Ext) (d a b : BitVec 8) (s : State) : Out := scalarStore x 8 d a b s

/-! ## Performing (R199) -/

/-- Reads each access of an operation in lane order. -/
def readAccs (s : State) (o : Op) : List Acc → List Acc × State
  | [] => ([], s)
  | a :: t =>
    let (x, s) := if o.scr then (scrGet s o.blk (partOf a.va) (offOf a.va) o.size, s)
      else readGlobal s o.core o.glade o.ctx o.scope o.pol o.rc a.va a.home o.size
    let (rest, s) := readAccs s o t
    ({ a with data := x } :: rest, s)

/-- Another core than the one it runs on holds the operation's pin (R224). -/
def Op.pinnedAway (o : Op) : Bool := o.pinCore.isSome && o.pinCore != some o.core

/-- Writes each access of an operation in ascending lane order, so that the highest lane's bytes stay (R213). A store
whose pin another core holds goes to its home slice at once. -/
def writeAccs (s : State) (o : Op) : List Acc → State
  | [] => s
  | a :: t =>
    let s := if o.scr then scrSet s o.blk (partOf a.va) (offOf a.va) o.size a.data
      else
        let pol := if o.pinnedAway then 3 else o.pol
        writeGlobal s o.core o.glade o.ctx o.scope pol (o.tag.getD 0) a.va a.home o.size a.data
    writeAccs s o t

/-- The value of a lane among accesses. -/
def laneData (accs : List Acc) (l : Nat) : Nat := ((accs.find? fun a => a.lane == l).getD {}).data

/-- The datum an atomic offers for writing, for the watch predicates (R401). -/
def atomDatum (aop x : Nat) : Nat := if aop == 8 then x / 2 ^ 32 else x

/-- The events of an operation's unit that were evaluated when it issued (R401, R403). -/
def Op.seenEvs (o : Op) : List WatchEv :=
  let evs := if o.kind == .load then addrEvs [0] o.accs o.size o.scr
    else addrEvs [0, 1] o.accs o.size o.scr ++ o.accs.flatMap fun a => valueEvs 2 a.lane o.size (atomDatum o.aop a.data)
  evs.map fun e => { e with seen := true }

/-- Writes the results of an operation into its destinations and marks them full; value events follow, with the events of its
issue for the chained predicates (R241, R401, R403). -/
def deliverResults (s : State) (oid : Nat) (o : Op) (accs : List Acc) : State :=
  let word := fun (i l : Nat) => BitVec.ofNat 32 (laneData accs l / 2 ^ (32 * i))
  let s := deliverV s o word
  let s := deliverS s o (wordsOf o.sdst.length ((accs.headD {}).data))
  let s := completeOp s oid
  watchOp s oid o (o.seenEvs ++ accs.flatMap fun a => valueEvs 3 a.lane o.size a.data)

/-- Order among the scratch accesses of one wave to one part (R200). -/
def scrInOrder (s : State) (oid : Nat) (o : Op) : Bool := !(o.accs.any fun a => scrEarlier s o.wid (partOf a.va) oid)

/-- The access may perform now, as far as its own wave's order goes. -/
def inOrder (s : State) (oid : Nat) (o : Op) : Bool := if o.scr then scrInOrder s oid o else !earlierOverlap s oid o && o.reachable s

/-- The glade has used its share of the HBM bandwidth of R28, 29,491,200 bytes a µs, in this window (R382). -/
def bwOver (s : State) (g : Nat) : Bool :=
  let share := regFld s (.gld g) 0x034 7 0
  share != 0 && share * 115200 ≤ windowBytes s g

/-- A range of a context's addresses misses a core's L1 in some line. -/
def spanMisses (s : State) (core g c va n : Nat) : Bool :=
  (List.range ((va % 128 + n + 127) / 128)).any fun i =>
    let lo := max va (lineOf va + 128 * i)
    l1Misses s core g c lo (min (va + n) (lineOf va + 128 * (i + 1)) - lo)

/-- The accesses miss L1 while the glade has used its bandwidth share; an atomic at its home slice is no L1 access (R226, R382). -/
def bwHeld (s : State) (o : Op) : Bool :=
  bwOver s o.glade && !o.scr && o.accs.any fun a =>
    if o.kind == .wload then spanMisses s o.core o.glade o.ctx a.va a.va2
    else if o.kind == .atomic then o.scope == 0 && !isFar a.home && !o.pinnedAway && l1Misses s o.core o.glade o.ctx a.va o.size
    else bypasses o.scope o.pol a.home || l1Misses s o.core o.glade o.ctx a.va o.size

/-- LOAD_PERFORM: a load's value is fixed and its destinations become full (R199). A witnessed load needs its witness
satisfied, and self-invalidates first (R222). -/
def performLoad (op : Nat) (s : State) : Out := runEvent s do
  let o ← need (s.op? op) "LOAD_PERFORM"
  require (o.kind == .load && !o.done && inOrder s op o && !bwHeld s o) "LOAD_PERFORM"
  if !o.scr && poisoned s o.glade o.wit then
    .error (.ended (opTrap { s with ops := Tab.del s.ops op } o witnessPoisoned 0))
  else pure ()
  require (o.scr || satisfied s o.core o.glade o.wit) "LOAD_PERFORM"
  let s := if o.scr then s else useWitness s o.core o.glade o.wit
  let (accs, s) := readAccs s o o.accs
  let s := if o.scr then s else countReads s o.core o.glade o.ctx (o.l1Reads accs)
  .ok (deliverResults s op o accs)

/-- The lines of a range of addresses are written back; `inv` invalidates them and the fetched lines too (R247). -/
def maintain (s : State) (core g c lo n : Nat) (inv : Bool) : State :=
  let hit := fun (e : L1Line) => e.glade == g && e.ctx == c && overlap e.va 128 lo n
  let s := landWhere s core hit
  let fetched := fun (e : ILine) => e.glade == g && e.ctx == c && overlap e.va 128 lo n
  if inv then s.updCore core fun x => { x with l1 := x.l1.filter fun e => !hit e, ic := x.ic.filter fun e => !fetched e }
  else s

/-- STORE_PERFORM: L1, the home slice or the scratch array accepts a store, or the write-backs of a `cwb` or `cinv` have
landed; ST decrements (R199, R242, R247). -/
def execStorePerform (op : Nat) (s : State) : Out := runEvent s do
  let o ← need (s.op? op) "STORE_PERFORM"
  require ((o.kind == .store || o.kind == .writeBack) && !o.done && inOrder s op o) "STORE_PERFORM"
  let s := if o.kind == .store then writeAccs s o o.accs
    else o.accs.foldl (fun s a => maintain s o.core o.glade o.ctx a.va a.va2 (o.stage == 1)) s
  .ok (completeOp s op)

/-! ## Cache maintenance (R247) -/

/-- `cwb` and `cinv`: the range is kept in one access, its length in `va2`. -/
def cacheUnit (inv : Bool) (d a : BitVec 8) (s : State) : Out :=
  issueUnit 4 true s fun s wid eid w f => do
    let g ← getOpnds s wid w f { s := [{ fd := d.toNat }, { fd := a.toNat, cnt := 2, pair := true }] }
    let n := g.s.getD 0 0
    let va := g.s.getD 1 0
    if n == 0 then .ok s
    else if 2 ^ 52 ≤ va then .error (.trap addrNoncanon 0 va)
    else do
      let o : Op := { mkOp wid eid w f .writeBack (some cST) with accs := [{ va := va, va2 := n }], stage := if inv then 1 else 0 }
      let (_, s) ← addOp s o
      .ok s

/-- `cinv` (R247). -/
def execCinv (d a : BitVec 8) (s : State) : Out := cacheUnit true d a s
/-- `cwb` (R247). -/
def execCwb (d a : BitVec 8) (s : State) : Out := cacheUnit false d a s

/-- The home of an address that `pref` fills from: it translates, its line is not in L1 and carries no poison mark, and L1 may hold it
(R205, R247, R364). -/
def prefHome (s : State) (core g c pol va : Nat) : Option Nat :=
  let page := if 2 ^ 52 ≤ va then none else match tlbLookup s core g c va with
    | some p => some p
    | none => walkPage s g c va
  (page.map fun p => p.homeOf va).filter fun h =>
    !(pol == 3 || isFar h || (lineFind s core g c va).isSome || markedAt s (lineOf h) 128)

/-- Fills the lines of a range that translate, at most as many as L1 can hold (R22, R247), until the mesh has no room or the glade has used
its bandwidth share: then the address reached, the lines left, and which (R351, R382). -/
def prefetch (core g c rc pol : Nat) : Nat → Nat → State → State × Option (Nat × Nat × Stall)
  | 0, _, s => (s, none)
  | n + 1, va, s => match prefHome s core g c pol va with
    | none => prefetch core g c rc pol n (va + 128) s
    | some h =>
      if 256 ≤ meshRequests s core then (s, some (va, n + 1, .lsuQueueFull))
      else if bwOver s g then (s, some (va, n + 1, .throttleBw))
      else prefetch core g c rc pol n (va + 128) (fillLine false s core g c va h rc pol)

/-- `pref` (R247): it never faults and changes no value. -/
def execPref (x : Ext) (d a : BitVec 8) (s : State) : Out :=
  issueUnit (extSize x) true s fun s wid eid w f => do
    let m := memExt x
    let h ← match f.held with
      | some h => .ok h
      | none => do
        let g ← getOpnds s wid w f { s := [{ fd := d.toNat }, { fd := a.toNat, cnt := 2, pair := true }] }
        let n := g.s.getD 0 0
        let va := g.s.getD 1 0
        .ok { since := s.now, kind := 13, a := lineOf va, b := if n == 0 then 0 else min ((va % 128 + n + 127) / 128) 12288 }
    match prefetch (w.coreNo wid) w.glade w.fetchCtx m.rc m.pol h.b h.a s with
    | (s, none) => .ok s
    | (s, some (va, left, why)) => .error (.hold why (s.updFrag wid eid fun f => { f with held := some { h with a := va, b := left } }))

end Sys2Proof.Machine
end

