-- ==== Sys2Proof/Machine/Atomics.lean ====
section
/-! DEFINITION. Atomics (R226 to R229, R244 to R246). -/

namespace Sys2Proof.Machine

open Sys2Proof

/-- The new value at the location, from the old one and the operand; `cas` holds d in the low word of the operand and
d + 1 in the high one (R244, R245). -/
def atomNew (s : State) (g aop : Nat) (au : Bool) (rnd old x : Nat) : Nat :=
  let lo := x % 2 ^ 32
  if aop == 0 then (old + lo) % 2 ^ 32
  else if aop == 1 then wrap 32 ((old : Int) - lo)
  else if aop == 2 then (if au then min old lo else if signed 32 old ≤ signed 32 lo then old else lo)
  else if aop == 3 then (if au then max old lo else if signed 32 lo ≤ signed 32 old then old else lo)
  else if aop == 4 then old &&& lo
  else if aop == 5 then old ||| lo
  else if aop == 6 then old ^^^ lo
  else if aop == 7 then lo
  else if aop == 8 then (if old == lo then x / 2 ^ 32 else old)
  else if aop == 9 then (fadd FP32 rnd old lo).1
  else if aop == 10 then
    (fadd BF16 rnd (old % 2 ^ 16) (lo % 2 ^ 16)).1 + 2 ^ 16 * (fadd BF16 rnd (old / 2 ^ 16) (lo / 2 ^ 16)).1
  else (wMerge (witOrNull s g (BitVec.ofNat 64 old)) (BitVec.ofNat 64 x)).toNat

/-- Size of an atomic, registers of its data, registers of its result. -/
def atomSize (aop : Nat) : Nat := if aop == 11 then 8 else 4
def atomData (aop : Nat) : Nat := if aop == 8 || aop == 11 then 2 else 1
def atomDest (aop : Nat) : Nat := if aop == 11 then 2 else 1

/-- Issues an atomic whose accesses carry their operands: the operands of `wmerge` are checked, then events, the tag
and the store witness (R216, R221, R245). -/
def issueAtomic (s : State) (wid eid : Nat) (f : Frag) (o : Op) : Eff State := do
  opRoom s o
  if o.aop == 11 then
    let _ ← collect (fun a => checkWitness s o.glade (BitVec.ofNat 64 a.data)) o.accs
    pure ()
  let s ← watchAddr s wid eid (addrEvs [0, 1] o.accs o.size false)
  let s := noteValues s (s.waveD wid) 2 o.size (o.accs.map fun a => { a with data := atomDatum o.aop a.data })
  let s := publish s o.blk
  if o.accs.isEmpty then .ok s
  else
    let (tag, pc) := storeTag s o.core f
    let s := (putOp s { o with tag := some tag, pinCore := pc }).2
    let s := noteStore s wid o.scope tag (o.accs.map (·.home))
    .ok (s.updWave wid fun w => (w.markEmptyV o.dst).markEmptyS o.sdst)

/-- A vector atomic; `rtn` returns the old value. Without an ATOM unit it is no instruction (R112). -/
def vecAtomic (x : Ext) (rtn : Bool) (d a : BitVec 7) (b : BitVec 8) (fa : Bool) (s : State) : Out := match x with
  | .atom aop au _ _ =>
    let k := aop.toNat
    issueUnit 8 true s fun s wid eid w f => do
      noControl w
      let m := memExt x
      let cls := if rtn then cAT else cST
      let g ← getOpndsFor s wid w f
        { v := [{ fd := a.toNat, tie := fa }, { fd := d.toNat, cnt := atomData k, pair := k == 11 }],
          s := [{ fd := b.toNat, cnt := 2, pair := true }],
          vd := if rtn then some (d.toNat, atomDest k, k == 11) else none }
        (roomFor s wid w.core (some cls) true)
      let accs ← pinOnTrap s wid eid (laneAccs s wid eid w f (g.v.getD 0 0) (g.s.getD 0 0) m.ofs (atomSize k) aWrite false)
      let accs := accs.map fun c => { c with data := vecVal w (g.v.getD 1 0) (atomData k) c.lane }
      issueAtomic s wid eid f
        { mkOp wid eid w f .atomic (some cls) with
          accs := accs, size := atomSize k, dst := if rtn then range g.vd (atomDest k) else [], scope := m.scope, aop := k,
          au := au }
  | _ => illegalUnit (extSize x) s

/-- `vatom`, not returning (R244). -/
def execVatom (x : Ext) (d a : BitVec 7) (b : BitVec 8) (fa : Bool) (s : State) : Out := vecAtomic x false d a b fa s

/-- `vatom`, returning the old value (R244). -/
def execVatomRtn (x : Ext) (d a : BitVec 7) (b : BitVec 8) (fa : Bool) (s : State) : Out := vecAtomic x true d a b fa s

/-- `satom` (R246). -/
def execSatom (x : Ext) (d a b : BitVec 8) (s : State) : Out := match x with
  | .atom aop au _ _ =>
    let k := aop.toNat
    issueUnit 8 true s fun s wid eid w f => do
      let m := memExt x
      let g ← getOpnds s wid w f
        { s := [{ fd := a.toNat, cnt := 2, pair := true }, { fd := b.toNat, cnt := atomData k, pair := k == 11 }],
          sd := some (d.toNat, atomDest k, k == 11) }
      let ad := scalarAddr (g.s.getD 0 0) 0 m.ofs
      let acc ← pinOnTrap s wid eid (globalAcc s wid eid w (lowLane f.memb) ad (atomSize k) aWrite)
      issueAtomic s wid eid f
        { mkOp wid eid w f .atomic (some cAT) with
          accs := [{ acc with data := g.s.getD 1 0 }], size := atomSize k, sdst := range d.toNat (atomDest k),
          scope := m.scope, aop := k, au := au }
  | _ => illegalUnit (extSize x) s

/-- Applies an atomic to its accesses in ascending lane order: at L1 for `.core`, else, and where another core holds its
pin (R224, R233), at the home slice after the issuing core's dirty bytes of the line (R226, R228). The accesses come back
with the old values. -/
def applyAtomic (s : State) (o : Op) : List Acc → List Acc × State
  | [] => ([], s)
  | a :: t =>
    let new := fun old => atomNew s o.glade o.aop o.au (fld o.fmt 1 0) old a.data
    let (old, s) :=
      if o.scope == 0 && !isFar a.home && !o.pinnedAway then
        let (old, s) := readUnshared s o.core o.glade o.ctx a.va a.home o.size
        (old, writeGlobal s o.core o.glade o.ctx 0 0 (o.tag.getD 0) a.va a.home o.size (new old))
      else
        let s := dropLine s o.core o.glade o.ctx a.va
        let old := getMem s.mem a.home o.size
        (old, { s with mem := setMem s.mem a.home o.size (new old) })
    let (rest, s) := applyAtomic s o t
    ({ a with data := old } :: rest, s)

/-- ATOMIC_EXECUTE: an atomic executes at its scope's place and returns its old values (R226). -/
def performAtomic (op : Nat) (s : State) : Out := runEvent s do
  let o ← need (s.op? op) "ATOMIC_EXECUTE"
  require (o.kind == .atomic && !o.done && inOrder s op o && entryTurn s op o && !bwHeld s o) "ATOMIC_EXECUTE"
  let (accs, s) := applyAtomic s o o.accs
  .ok (if o.cls == some cAT then deliverResults s op o accs else completeOp s op)

end Sys2Proof.Machine
end

