-- ==== Sys2Proof/Machine/Cell.lean ====
section
/-! DEFINITION. Matrix cells (R86 to R92), the data of a weight slot (R274, R275), and legal formats (R87). -/

namespace Sys2Proof.Machine

open Sys2Proof

/-! ## Formats (R76, R87, R273) -/

/-- Element width of a format code. -/
def codeWidth (c : Nat) : Nat := if c == 2 then 4 else if c == 3 || c == 4 then 16 else if c == 6 then 1 else 8

/-- The floating-point format of a code. -/
def codeFmt (c : Nat) : Fmt :=
  if c == 0 then E4M3 else if c == 1 then E5M2 else if c == 2 then E2M1 else if c == 3 then BF16 else FP16

/-- KMAX of a code. -/
def codeKmax (c : Nat) : Nat := if c == 2 then 256 else if c == 3 || c == 4 then 64 else if c == 6 then 1024 else 128

/-- A form (0 DENSE, 1 SPARSE24, 2 FP4BLK, 3 FP8TILE) is allowed for a code. -/
def formAllowed (form c : Nat) : Bool :=
  c ≤ 6 && (form == 0 || (form == 1 && c ≤ 5) || (form == 2 && c == 2) || (form == 3 && c ≤ 1))

/-- The fields of `fmt` (R75). -/
def fmtA (f : Word) : Nat := fld f 7 4
def fmtB (f : Word) : Nat := fld f 11 8
def fmtScale (f : Word) : Nat := fld f 13 12
def fmtSemi (f : Word) : Nat := fld f 15 14

/-- The combinations of R87. -/
def comboOk (a b scale semi : Nat) : Bool :=
  if a ≤ 1 && b ≤ 1 then (scale == 0 && semi ≤ 2) || (scale == 2 && semi == 0)
  else if a != b then false
  else if a == 2 then (scale == 0 && semi ≤ 2) || (scale == 1 && semi == 0)
  else if a == 3 || a == 4 then scale == 0 && semi ≤ 2
  else if a == 5 then scale == 0 && semi == 0
  else a == 6 && scale == 0 && semi == 3

/-! ## Cells -/

/-- An exact sum; one without addends is +0 (R284). -/
def exactSum (rnd : Nat) (ts : List FV) : FV × Bool := if ts.isEmpty then (.num false 0 0, false) else sumX rnd ts

/-- One column's element at row k, or a block of them: (k, bits). -/
abbrev Column := List (Nat × Nat)

/-- The products of a row with the elements of a column. -/
def rowProducts (A B : Fmt) (row : Nat → Nat) (col : Column) : List FV × Bool :=
  let ps := col.map fun (k, b) => fmulX (unpack A (row k)) (unpack B b)
  (ps.map (·.1), ps.any (·.2))

/-- Scales of a cell (R281, R283): none, block-8 with tensor scales, or row and tile scales. -/
inductive Scales where
  | none
  | block (sa sb : Nat → Nat) (tA tB : Nat)
  | tile (sA sB : Nat)

/-- The exact value of a chunk before promotion (R88). -/
def chunkValue (A B : Fmt) (rnd : Nat) (sc : Scales) (row : Nat → Nat) (col : Column) (k0 : Nat) : FV × Bool :=
  match sc with
  | .none =>
    let (ps, nv) := rowProducts A B row col
    let (x, nv') := exactSum rnd ps
    (x, nv || nv')
  | .tile sA sB =>
    let (ps, nv) := rowProducts A B row col
    let (x, nv') := exactSum rnd ps
    prodX (x, nv || nv') [(unpack FP32 sA, false), (unpack FP32 sB, false)]
  | .block sa sb tA tB =>
    let blocks := (List.range 4).map fun i => k0 / 8 + i
    let used := blocks.filter fun b => col.any fun e => e.1 / 8 == b
    let parts := used.map fun b =>
      let (ps, nv) := rowProducts A B row (col.filter fun e => e.1 / 8 == b)
      let (x, nv') := exactSum rnd ps
      prodX (x, nv || nv') [(unpack E5M2 (sa b), false), (unpack E5M2 (sb b), false)]
    let (x, nv) := exactSum rnd (parts.map (·.1))
    mulF (x, nv || parts.any (·.2)) (mulF (unpack BF16 tA, false) (unpack BF16 tB, false))

/-- A plus-times cell over the chunks from `k0`, `n` of them of length `len` (R88). -/
def plusCell (A B : Fmt) (rnd : Nat) (sc : Scales) (row : Nat → Nat) (col : Column) (len : Nat) :
    Nat → Nat → Nat → Nat × Nat
  | 0, _, acc => (acc, 0)
  | n + 1, k0, acc =>
    let c := col.filter fun e => k0 ≤ e.1 && e.1 < k0 + len
    let (p, fl) := roundX FP32 rnd (chunkValue A B rnd sc row c k0)
    let (acc, fl') := roundX FP32 rnd (sumX rnd [unpack FP32 acc, unpack FP32 p])
    let (r, fl'') := plusCell A B rnd sc row col len n (k0 + len) acc
    (r, orFlags fl (orFlags fl' fl''))

/-- A min-plus cell, or a max-times cell for `hi` (R91). A signalling accumulator raises NV (R73). -/
def semiCell (A B : Fmt) (rnd : Nat) (hi : Bool) (row : Nat → Nat) : Column → Nat → Nat × Nat
  | [], acc => (acc, 0)
  | (k, b) :: t, acc =>
    let a := unpack A (row k)
    let e := unpack B b
    let (v, fl) := roundX FP32 rnd (if hi then fmulX a e else sumX rnd [a, e])
    let sig := if (unpack FP32 acc).isSig then flNV else 0
    let (r, fl') := semiCell A B rnd hi row t (cellMinMax FP32 hi acc v)
    (r, orFlags sig (orFlags fl fl'))

/-- An INT8 cell (R92). -/
def intCell (row : Nat → Nat) (col : Column) (acc : Nat) : Nat :=
  wrap 32 (col.foldl (fun x (k, b) => x + signed 8 (row k) * signed 8 b) (acc : Int))

/-- A B1 cell (R91, R92). -/
def bitCell (row : Nat → Nat) (col : Column) (acc : Nat) : Nat :=
  if acc != 0 || col.any fun (k, b) => row k == 1 && b == 1 then 1 else 0

/-- The identity a clear writes (R91). -/
def semiIdentity (semi : Nat) : Nat := if semi == 1 then 0x7F800000 else if semi == 2 then 0xFF800000 else 0

/-- Cell of R283 for K > 0. -/
def cell (fmt : Word) (sc : Scales) (row : Nat → Nat) (col : Column) (K acc : Nat) : Nat × Nat :=
  let a := fmtA fmt
  let rnd := rndOf fmt
  if a == 5 then (intCell row col acc, 0)
  else if a == 6 then (bitCell row col acc, 0)
  else if fmtSemi fmt == 0 then
    let len := if fmtScale fmt == 2 then 128 else 32
    plusCell (codeFmt a) (codeFmt (fmtB fmt)) rnd sc row col len ((K + len - 1) / len) 0 acc
  else semiCell (codeFmt a) (codeFmt (fmtB fmt)) rnd (fmtSemi fmt == 2) row col acc

/-! ## Slot descriptors and data (R273 to R275, R277) -/

/-- The fields of a descriptor, as a 32-byte number. -/
structure SlotDesc where
  form : Nat
  bfmt : Nat
  nblk : Nat
  K : Nat
  ts : Nat
  src : Nat
  side : Nat

def slotDesc (x : Nat) : SlotDesc :=
  { form := bitsOf x 27 24, bfmt := bitsOf x 23 20, nblk := bitsOf x 14 12, K := bitsOf x 10 0, ts := bitsOf x 63 48,
    src := bitsOf x 127 64, side := bitsOf x 191 128 }

/-- The conditions of R277. -/
def slotDescOk (x : Nat) : Bool :=
  let d := slotDesc x
  bitsOf x 31 28 == 1 && bitsOf x 19 15 == 0 && bitsOf x 11 11 == 0 && bitsOf x 47 32 == 0 && bitsOf x 255 192 == 0 &&
  formAllowed d.form d.bfmt && d.K % 8 == 0 && d.K ≤ codeKmax d.bfmt && d.nblk ≤ 4 && (d.form == 2 || d.ts == 0) &&
  (d.form == 0) == (d.side == 0) && d.src % 128 == 0 && d.side % 4 == 0 && d.src < 2 ^ 52 && d.side < 2 ^ 52

def SlotDesc.N (d : SlotDesc) : Nat := 8 * d.nblk
/-- Element bytes (R274). -/
def SlotDesc.elemBytes (d : SlotDesc) : Nat :=
  let bits := d.N * d.K * codeWidth d.bfmt
  if d.form == 1 then (bits + 15) / 16 else (bits + 7) / 8
/-- Side bytes (R274). -/
def SlotDesc.sideBytes (d : SlotDesc) : Nat := if d.form == 0 then 0 else if d.form == 3 then 4 else d.N * d.K / 8
/-- Granules (R274). -/
def SlotDesc.granules (d : SlotDesc) : Nat := max 1 ((d.elemBytes + d.sideBytes + 511) / 512)

/-- `w` bits of data at index `i`. -/
def datum (w x i : Nat) : Nat := x / 2 ^ (w * i) % 2 ^ w

/-- The metadata of group g of column j (R274). -/
def metaOf (d : SlotDesc) (side j g : Nat) : Nat := datum 4 side (j * d.K / 4 + g)

/-- Column j over rows 0 to K − 1 (R274, R275); a SPARSE24 group that is not legal holds no element. -/
def slotColumn (d : SlotDesc) (elems side j K : Nat) : Column :=
  let w := codeWidth d.bfmt
  if d.form == 1 then
    (List.range (K / 4)).flatMap fun g =>
      let m := metaOf d side j g
      let at' := fun s => datum w elems (j * d.K / 2 + s)
      if m % 4 < m / 4 then [(4 * g + m % 4, at' (2 * g)), (4 * g + m / 4, at' (2 * g + 1))] else []
  else (List.range K).map fun k => (k, datum w elems (j * d.K + k))

/-- A group that is not legal lies in rows below K and columns below N (R284). -/
def badMeta (d : SlotDesc) (side K : Nat) : Bool :=
  d.form == 1 && (List.range d.N).any fun j => (List.range (K / 4)).any fun g =>
    let m := metaOf d side j g
    m / 4 ≤ m % 4

/-- K-steps per clk (R287). -/
def kRate (d : SlotDesc) (semi : Nat) : Nat :=
  let base := if d.bfmt == 2 then 16 else if d.bfmt == 3 || d.bfmt == 4 then 4 else 8
  if d.bfmt == 6 then 64 else if semi == 1 || semi == 2 then base / 4 else if d.form == 1 then 2 * base else base

end Sys2Proof.Machine
end

