-- ==== Sys2Proof/Machine/Slices.lean ====
section
/-! DEFINITION. Buckets and home slices (R26, R204, R352 to R354, R365), the sync caches of the slices (R25, R268, R357), and
the order of one core's requests at one slice (R349). -/

namespace Sys2Proof.Machine

open Sys2Proof

/-! ## Buckets and the bucket map -/

/-- Bytes of HBM (R28). -/
def hbmBytes : Nat := 768 * 2 ^ 30

/-- Bucket(PA) of R352. -/
def bucketOf (pa : Nat) : Nat :=
  let l := pa / 128 % 2 ^ 41
  (l % 4096) ^^^ (l / 2 ^ 12 % 4096) ^^^ (l / 2 ^ 24 % 4096) ^^^ (l / 2 ^ 36)

/-- Enabled logical slices. -/
def slicesOn (s : State) : Nat := regFld s .mgt 0x10 23 16
def slicePhys (s : State) (n : Nat) : Nat := regFld s .fab (0x2000 + 4 * n) 7 0
def sliceEn (s : State) (n : Nat) : Bool := regFld s .fab (0x2000 + 4 * n) 8 8 == 1
def enabledSlices (s : State) : List Nat := (List.range 192).filter (sliceEn s)
/-- The logical slice of a bucket. -/
def bucketOwner (s : State) (b : Nat) : Nat := regFld s .fab (0x1000 + 4 * (b / 4)) (8 * (b % 4) + 7) (8 * (b % 4))
def setBucket (s : State) (b n : Nat) : State := setRegFld s .fab (0x1000 + 4 * (b / 4)) (8 * (b % 4) + 7) (8 * (b % 4)) n
/-- Buckets of a logical slice, rising. -/
def bucketsOf (s : State) (n : Nat) : List Nat := (List.range 4096).filter fun b => bucketOwner s b == n
/-- The physical slice of a bucket. -/
def bucketSlice (s : State) (b : Nat) : Nat := slicePhys s (bucketOwner s b)
/-- The home slice of a physical address, by its physical number (R204, R352). -/
def homeSlice (s : State) (pa : Nat) : Nat := bucketSlice s (bucketOf pa)

/-- The slice a bucket of `n` moves to (R365). -/
def moveTarget (s : State) (n : Nat) : Option Nat :=
  let others := (enabledSlices s).filter (· != n)
  let near := others.filter fun m => slicePhys s m / 50 == slicePhys s n / 50
  let cand := if near.isEmpty then others else near
  (cand.foldl (fun best m =>
    let c := (bucketsOf s m).length
    match best with
    | none => some (c, m)
    | some (b, k) => if c < b then some (c, m) else some (b, k)) (none : Option (Nat × Nat))).map (·.2)

/-- A bucket of `n` moves to its new slice. -/
def moveBucket (s : State) (n b : Nat) : State := match moveTarget s n with
  | some t => setBucket s b t
  | none => s

/-- The bucket map once every bucket of `n` has moved (R364 step 5). -/
def movedMap (s : State) (n : Nat) : State := (bucketsOf s n).foldl (fun s b => moveBucket s n b) s

/-! ## Sync caches (R357) -/

/-- The object's entry moves to another slice, and its operations wait (R364 step 3). -/
def syncMoving (s : State) (e : SyncEnt) : Bool := match s.wind with
  | some w => w.step == 3 && e.phys == w.phys
  | none => false

/-- Where a new entry of an object is made: its home slice, or the one it is moving to. -/
def syncSlice (s : State) (home : Nat) : Nat := match s.wind with
  | some w => if w.step == 3 || w.step == 4 || w.step == 5 then homeSlice (movedMap s w.slice) home else homeSlice s home
  | none => homeSlice s home

/-- A queue request that has reached its slice and is not done, or that waits there (R357). -/
def atObject (home : Nat) (o : Op) : Bool :=
  (o.kind == .tqpush || o.kind == .tqpop) && o.stage != 0 && !o.done && (o.accs.headD {}).home == home

/-- No request is pending, no push is held and no pop waits at an entry. -/
def syncIdle (s : State) (e : SyncEnt) : Bool := !(s.ops.any fun (_, o) => atObject e.home o)

/-- A request for an object reaches its slice: its entry, made where there is none by evicting the least recently used idle
one of 256, comes first in the list; none while the slice must hold the request (R268, R357). -/
def syncTouch (s : State) (g home : Nat) : Option State := match s.sync.find? fun e => e.home == home with
  | some e => if syncMoving s e then none else some { s with sync := e :: s.sync.filter (· != e) }
  | none =>
    let phys := syncSlice s home
    let here := s.sync.filter fun e => e.phys == phys
    let e : SyncEnt := { home := home, glade := g, phys := phys }
    if here.length < 256 then some { s with sync := e :: s.sync }
    else ((here.filter (syncIdle s)).getLast?).map fun v => { s with sync := e :: s.sync.filter (· != v) }

/-- Every entry of a retiring slice moves, with its pending state, to the slice that will be home of its bucket (R364 step
3); it may then hold more than 256 (notes/assumptions 149). -/
def migrateSync (s : State) (w : WindSt) : State :=
  let m := movedMap s w.slice
  { s with sync := s.sync.map fun e => if e.phys == w.phys then { e with phys := homeSlice m e.home } else e }

/-! ## Order at a slice (R349) -/

/-- A request to an object that its slice has not yet taken up. -/
def Op.toObject (o : Op) : Bool :=
  !o.done && (o.kind == .gbarrive || ((o.kind == .tqinit || o.kind == .tqpush || o.kind == .tqpop) && o.stage == 0))

/-- No earlier object request of the same core to the same slice is still on its way: requests of one port to another arrive
in the order they were sent; one that the slice holds for want of an entry has arrived (R349, R357). -/
def portOrder (s : State) (oid : Nat) (o : Op) : Bool :=
  let home := fun (p : Op) => (p.accs.headD {}).home
  !(s.ops.any fun (k, p) => k < oid && p.core == o.core && p.toObject && homeSlice s (home p) == homeSlice s (home o) &&
    (syncTouch s p.glade (home p)).isSome)

end Sys2Proof.Machine
end

