-- ==== Sys2Proof/Machine/Sync.lean ====
section
/-! DEFINITION. Witness instructions, `waitcnt`, waiting, scratch barriers, global barriers and rings (R239, R248 to
R258). A unit that waits reads its operands at issue and keeps them in the fragment's held record. -/

namespace Sys2Proof.Machine

open Sys2Proof

/-! ## Witness instructions (R248, R249) -/

/-- `wnull` (R248). -/
def execWnull (d : BitVec 8) (s : State) : Out :=
  issueUnit 4 true s fun s wid _ w f => do
    let g ← getOpnds s wid w f { sd := some (d.toNat, 2, true) }
    .ok (s.setWave wid (w.setSPair g.sd 0))

/-- `wcur`: the store witness merged with the present one, and a request for an advance (R221, R248). -/
def execWcur (d : BitVec 8) (s : State) : Out :=
  issueUnit 4 true s fun s wid _ w f => do
    let g ← getOpnds s wid w f { sd := some (d.toNat, 2, true) }
    let cur := storeWit w false (s.coreSt (w.coreNo wid)).view
    .ok (requestAdvance (s.setWave wid (w.setSPair g.sd (wMerge w.sw cur))) w.glade)

/-- `wmerge` (R219, R248). -/
def execWmerge (d a b : BitVec 8) (s : State) : Out :=
  issueUnit 4 true s fun s wid _ w f => do
    let g ← getOpnds s wid w f
      { s := [{ fd := a.toNat, cnt := 2, pair := true }, { fd := b.toNat, cnt := 2, pair := true }], sd := some (d.toNat, 2, true) }
    let p := BitVec.ofNat 64 (g.s.getD 0 0)
    let q := BitVec.ofNat 64 (g.s.getD 1 0)
    checkWitness s w.glade p
    checkWitness s w.glade q
    .ok (s.setWave wid (w.setSPair g.sd (wMerge p q)))

/-- `wtest`: 1 if a load given the witness could perform now; else what such a load would send is sent (R248). -/
def execWtest (d a : BitVec 8) (s : State) : Out :=
  issueUnit 4 true s fun s wid _ w f => do
    let g ← getOpnds s wid w f { s := [{ fd := a.toNat, cnt := 2, pair := true }], sd := some (d.toNat, 1, false) }
    let v := BitVec.ofNat 64 (g.s.getD 0 0)
    checkWitness s w.glade v
    let core := w.coreNo wid
    let s' := requestWitness s core w.glade w.ctx v
    .ok (s'.setWave wid (w.setS g.sd (if satisfied s core w.glade v then 1 else 0)))

/-- Waits for a witness: checked at each test, satisfied, then self-invalidation (R249). -/
def waitWitness (s : State) (wid eid : Nat) (w : Wave) (h : Held) (v : DWord) (why : Stall) : Eff State := do
  checkWitness s w.glade v
  let core := w.coreNo wid
  if satisfied s core w.glade v then .ok (useWitness s core w.glade v)
  else holdUnit (requestWitness s core w.glade w.ctx v) wid eid h why

/-- `wait.w` (R249). -/
def execWaitW (x : Ext) (a : BitVec 8) (s : State) : Out :=
  issueUnit (extSize x) true s fun s wid eid w f => do
    let h ← match f.held with
      | some h => .ok h
      | none => do
        let g ← getOpnds s wid w f { s := [{ fd := a.toNat, cnt := 2, pair := true }] }
        .ok (heldOr s f x 1 (g.s.getD 0 0) 0)
    waitWitness s wid eid w h (BitVec.ofNat 64 h.a) .waitWitness

/-- The oldest outstanding `mma` of a wave has a quarter operation in a group that is not yet due (R287). -/
def fuseHeld (s : State) (wid : Nat) : Bool := match s.ops.find? fun (_, o) => o.wid == wid && o.kind == .mma && !o.done with
  | none => false
  | some (id, o) => (Tab.vals (s.coreSt o.core).mx).any fun m => m.opened.any fun g => g.ops.any fun e => e.1 == id

/-- `waitcnt`: not ready until the counter is at most the threshold (R239). -/
def execWaitcnt (c : BitVec 3) (t : BitVec 6) (s : State) : Out :=
  issueUnit 4 true s fun s wid _ _ _ =>
    if outstanding s wid c.toNat ≤ t.toNat then .ok s
    else .error (.hold (if c.toNat == cMX && fuseHeld s wid then .mxFuseHold else .waitcnt) s)

/-! ## Scratch barriers (R252 to R254) -/

/-- A scratch barrier's fields. -/
structure Bar where
  expect : Nat
  arrived : Nat
  bytes : Int
  phase : Nat

/-- Reads a barrier; BAR_OVERFLOW where it is none. -/
def readBar (s : State) (blk a : Nat) : Eff Bar :=
  let x := scrGet s blk (partOf a) (offOf a) 16
  let b : Bar := { expect := bitsOf x 28 16, arrived := bitsOf x 12 0, bytes := signed 32 (x / 2 ^ 32), phase := bitsOf x 95 64 }
  if bitsOf x 31 30 != 1 || bitsOf x 29 29 != 0 || bitsOf x 15 13 != 0 || bitsOf x 127 96 != 0 || b.expect == 0 ||
      6144 < b.expect || b.expect < b.arrived then trap barOverflow
  else .ok b

/-- Writes a barrier, after Complete of R253. -/
def writeBar (s : State) (blk a : Nat) (b : Bar) : State :=
  let b := if b.arrived == b.expect && b.bytes == 0 then { b with arrived := 0, phase := (b.phase + 1) % 2 ^ 32 } else b
  scrSet s blk (partOf a) (offOf a) 16
    (2 ^ 30 + b.expect * 2 ^ 16 + b.arrived + wrap 32 b.bytes * 2 ^ 32 + b.phase * 2 ^ 64)

/-- An operation on a scratch object follows the wave's earlier accesses to the part; one to another part needs room in the mesh
(R200, R351). -/
def scrReady (s : State) (wid a : Nat) : Eff Unit :=
  if scrEarlier s wid (partOf a) s.nextId then .error (.hold .scratchBank s)
  else roomFor s wid (s.waveD wid).core none (partOf a != (s.waveD wid).part)

/-- A unit on a scratch object: operands d and a, the address checked (R237, R253, R258). -/
def objUnit (d a : BitVec 8) (size : Nat) (s : State) (k : State → Wave → Nat → Nat → Eff State) : Out :=
  issueUnit 4 true s fun s wid _ w f => do
    let g ← getOpnds s wid w f { s := [{ fd := d.toNat }, { fd := a.toNat }] }
    let ad := g.s.getD 1 0
    scrCheck s w ad size size false
    scrReady s wid ad
    k s w (g.s.getD 0 0) ad

/-- `barinit` (R253). -/
def execBarinit (d a : BitVec 8) (s : State) : Out :=
  objUnit d a 16 s fun s w n ad =>
    if n == 0 || 6144 < n then trap barOverflow
    else .ok (scrSet s w.blk (partOf ad) (offOf ad) 16 (2 ^ 30 + n * 2 ^ 16))

/-- `barexpect` (R253). -/
def execBarexpect (d a : BitVec 8) (s : State) : Out :=
  objUnit d a 16 s fun s w n ad => do
    let b ← readBar s w.blk ad
    let v := b.bytes - (n : Int)
    trapIf (decide (0x01000000 < n) || decide (v < -(2 ^ 31 : Nat))) barOverflow
    .ok (writeBar s w.blk ad { b with bytes := v })

/-- A unit that holds its fragment until an operation of it has been applied: the operation is made at issue, and the
unit completes once an event has put `stage` 1 (R253, R256). -/
def heldOp (s : State) (wid eid : Nat) (f : Frag) (why : Stall) (mk : Eff (Op × State)) : Eff State := match f.held with
  | some h => if h.stage == 1 then .ok s else .error (.hold why s)
  | none => do
    let (o, s) ← mk
    opRoom s o
    let (id, s) := putOp s o
    .error (.hold why (s.updFrag wid eid fun f => { f with held := some { since := s.now, kind := 9, op := id } }))

/-- The unit of a fragment held by an operation has been applied. -/
def releaseHeld (s : State) (wid eid : Nat) : State :=
  s.updFrag wid eid fun f => { f with held := f.held.map fun h => { h with stage := 1 } }

/-- The unit of a fragment held by an operation is refused: it traps precisely; a re-applied one has no unit left, and is a
context fault. -/
def refuseHeld (s : State) (o : Op) (oid cause : Nat) : State :=
  if o.wait.isSome then
    contextFault { s with ops := Tab.del s.ops oid } o.glade o.ctx { unitInfo s o.wid o.eid 1 cause 0 0 with pc := o.pc } (dieOf o.core)
  else
  let s := s.updFrag o.wid o.eid fun f => { f with held := none }
  takeTrap { s with ops := Tab.del s.ops oid } o.wid o.eid cause 0 0 0

/-- `barrive`: the arrival is an operation that BARRIVE_APPLY applies (R253, R254). -/
def execBarrive (a : BitVec 8) (s : State) : Out :=
  issueUnit 4 true s fun s wid eid w f =>
    heldOp s wid eid f .other do
      let g ← getOpnds s wid w f { s := [{ fd := a.toNat }] }
      let ad := g.s.getD 0 0
      scrCheck s w ad 16 16 false
      .ok ({ mkOp wid eid w f .barrive (some cST) with accs := [{ va := ad }], scr := true }, s)

/-- Every earlier operation of the wave counted in ST has completed (R254). -/
def stDone (s : State) (wid oid : Nat) : Bool :=
  !(s.ops.any fun (k, o) => k < oid && o.wid == wid && o.cls == some cST && !o.done)

/-- One arrival at a scratch barrier (R253). -/
def arriveBar (s : State) (blk a : Nat) : Eff State := do
  let b ← readBar s blk a
  trapIf (b.arrived == b.expect) barOverflow
  .ok (writeBar s blk a { b with arrived := b.arrived + 1 })

/-- BARRIVE_APPLY: the arrival is applied to the barrier, with Complete (R253). -/
def execBarriveApply (op : Nat) (s : State) : Out := runEvent s do
  let o ← need (s.op? op) "BARRIVE_APPLY"
  require (o.kind == .barrive && !o.done && stDone s o.wid op && !scrStoresOut s o.wid op && entryTurn s op o) "BARRIVE_APPLY"
  match arriveBar s o.blk ((o.accs.headD {}).va) with
  | .ok s => .ok (releaseHeld (completeOp s op) o.wid o.eid)
  | .error (.trap c _ _) => .ok (refuseHeld s o op c)
  | .error e => .error e

/-- `wait.bar` holds the fragment until PHASE differs (R253). -/
def execWaitBar (x : Ext) (d a : BitVec 8) (s : State) : Out :=
  issueUnit (extSize x) true s fun s wid eid w f => do
    noControl w
    let h ← match f.held with
      | some h => .ok h
      | none => do
        let g ← getOpnds s wid w f { s := [{ fd := d.toNat }, { fd := a.toNat }] }
        let ad := g.s.getD 1 0
        scrCheck s w ad 16 16 false
        scrReady s wid ad
        .ok (heldOr s f x 2 ad (g.s.getD 0 0))
    let b ← readBar s w.blk h.a
    if b.phase != h.b then .ok s else holdUnit s wid eid h .waitBar

/-! ## Global barriers (R255, R256) -/

/-- The fields of a global barrier at its home that no operation accepts. -/
def gbarBad (s : State) (home : Nat) : Bool :=
  getMem s.mem home 4 == 0 || getMem s.mem home 4 ≤ getMem s.mem (home + 4) 4 || getMem s.mem (home + 12) 4 != 0

/-- `gbarrive`: the arrival is applied at the home slice by GBARRIVE_APPLY, with the store witness it issued with. -/
def execGbarrive (a : BitVec 8) (s : State) : Out :=
  issueUnit 4 true s fun s wid eid w f =>
    heldOp s wid eid f .other do
      let g ← getOpnds s wid w f { s := [{ fd := a.toNat, cnt := 2, pair := true }] }
      let acc ← globalAcc s wid eid w 0 (g.s.getD 0 0) 32 aWrite
      .ok ({ mkOp wid eid w f .gbarrive (some cST) with accs := [acc], wit := w.sw }, s)

/-- One arrival at a global barrier, as one action; none where the slice refuses it (R256). -/
def arriveGbar (s : State) (g home : Nat) (sw : DWord) : Option State :=
  if gbarBad s home then none
  else
    let m := s.mem
    let accw := wMerge (witOrNull s g (BitVec.ofNat 64 (getMem m (home + 16) 8))) sw
    let arrived := getMem m (home + 4) 4 + 1
    let ended :=
      let m1 := setMem m (home + 24) 8 accw.toNat
      let m2 := setMem m1 (home + 16) 8 0
      setMem (setMem m2 (home + 4) 4 0) (home + 8) 4 (getMem m (home + 8) 4 + 1)
    let open' := setMem (setMem m (home + 16) 8 accw.toNat) (home + 4) 4 arrived
    some { s with mem := if arrived == getMem m home 4 then ended else open' }

/-- GBARRIVE_APPLY: the arrival is applied to a global barrier at its home slice (R256). -/
def execGbarriveApply (op : Nat) (s : State) : Out := runEvent s do
  let o ← need (s.op? op) "GBARRIVE_APPLY"
  require (o.kind == .gbarrive && !o.done && portOrder s op o && entryTurn s op o) "GBARRIVE_APPLY"
  let s ← need (syncTouch s o.glade ((o.accs.headD {}).home)) "GBARRIVE_APPLY"
  match arriveGbar s o.glade ((o.accs.headD {}).home) o.wit with
  | some s => .ok (releaseHeld (completeOp s op) o.wid o.eid)
  | none => .ok (refuseHeld s o op barOverflow)

/-- `wait.gbar` holds the fragment until PHASE differs, then completes as `wait.w` on DONEW (R256). -/
def execWaitGbar (x : Ext) (d a : BitVec 8) (s : State) : Out :=
  issueUnit (extSize x) true s fun s wid eid w f => do
    let h ← match f.held with
      | some h => .ok h
      | none => do
        let g ← getOpnds s wid w f { s := [{ fd := d.toNat }, { fd := a.toNat, cnt := 2, pair := true }] }
        let home ← globalHome s wid eid w (g.s.getD 1 0) 32 aRead
        .ok (heldOr s f x 3 home (g.s.getD 0 0))
    if h.stage == 1 then waitWitness s wid eid w h (BitVec.ofNat 64 h.b) .waitBar
    else if gbarBad s h.a then trap barOverflow
    else if getMem s.mem (h.a + 8) 4 == h.b then holdUnit s wid eid h .waitBar
    else
      let donew := getMem s.mem (h.a + 24) 8
      waitWitness s wid eid w { h with stage := 1, b := donew } (BitVec.ofNat 64 donew) .waitBar

/-! ## Rings (R257, R258) -/

/-- A ring's fields. -/
structure Ring where
  geom : Nat
  put : Nat
  done : Nat
  rel : Nat
  landed : Nat

def Ring.slots (r : Ring) : Nat := r.geom % 256 + 1
def Ring.slotBytes (r : Ring) : Nat := 2 ^ (6 + bitsOf r.geom 11 8)
def Ring.base (r : Ring) : Nat := 64 * bitsOf r.geom 26 12
/-- Slots landed and not released. -/
def Ring.avail (r : Ring) : Nat := (r.done + 2 ^ 16 - r.rel) % 2 ^ 16

/-- Reads a ring; RING_MISUSE where it is none. -/
def readRing (s : State) (blk a : Nat) : Eff Ring :=
  let x := scrGet s blk (partOf a) (offOf a) 64
  if bitsOf x 31 30 != 2 || bitsOf x 29 27 != 0 || bitsOf x 95 80 != 0 || bitsOf x 127 96 != 0 || bitsOf x 511 384 != 0 then
    trap ringMisuse
  else .ok { geom := bitsOf x 26 0, done := bitsOf x 47 32, put := bitsOf x 63 48, rel := bitsOf x 79 64, landed := bitsOf x 383 128 }

/-- Writes a ring. -/
def writeRing (s : State) (blk a : Nat) (r : Ring) : State :=
  scrSet s blk (partOf a) (offOf a) 64
    (2 ^ 31 + r.geom + (r.done + r.put * 2 ^ 16) * 2 ^ 32 + r.rel * 2 ^ 64 + r.landed * 2 ^ 128)

/-- `ringinit` (R258). -/
def execRinginit (d a : BitVec 8) (s : State) : Out :=
  objUnit d a 64 s fun s w g ad => do
    let r : Ring := { geom := g % 2 ^ 27, put := 0, done := 0, rel := 0, landed := 0 }
    trapIf (g / 2 ^ 27 != 0 || 10 < bitsOf g 11 8 || (s.blkD w.blk).scrSize < r.base + r.slots * r.slotBytes) ringMisuse
    .ok (writeRing s w.blk ad r)

/-- `wait.ring` holds the fragment until enough slots have landed (R258). -/
def execWaitRing (x : Ext) (d a : BitVec 8) (s : State) : Out :=
  issueUnit (extSize x) true s fun s wid eid w f => do
    noControl w
    let h ← match f.held with
      | some h => .ok h
      | none => do
        let g ← getOpnds s wid w f { s := [{ fd := d.toNat }, { fd := a.toNat }] }
        let ad := g.s.getD 1 0
        scrCheck s w ad 64 64 false
        scrReady s wid ad
        .ok (heldOr s f x 4 ad (g.s.getD 0 0))
    let r ← readRing s w.blk h.a
    trapIf (decide (r.slots < h.b)) ringMisuse
    if h.b ≤ r.avail then .ok s else holdUnit s wid eid h .waitRing

/-- An earlier scratch load of the wave is outstanding. -/
def scrLoadsOut (s : State) (wid : Nat) : Bool := s.ops.any fun (_, o) => o.wid == wid && o.scr && o.kind == .load && !o.done

/-- `rrel` takes effect after every earlier scratch load of the wave (R258). -/
def execRrel (d a : BitVec 8) (s : State) : Out :=
  issueUnit 4 true s fun s wid _ w f => do
    let g ← getOpnds s wid w f { s := [{ fd := d.toNat }, { fd := a.toNat }] }
    let ad := g.s.getD 1 0
    scrCheck s w ad 64 64 false
    scrReady s wid ad
    if scrLoadsOut s wid then .error (.hold .scratchBank s)
    else do
      let r ← readRing s w.blk ad
      let n := g.s.getD 0 0
      trapIf (decide (r.avail < n)) ringMisuse
      .ok (writeRing s w.blk ad { r with rel := (r.rel + n) % 2 ^ 16 })

/-! ## wait.mon (R251) -/

/-- The issuing core's clean L1 copy of a line is invalidated. -/
def dropMonitored (s : State) (wid : Nat) (w : Wave) (home : Nat) : State :=
  let drop := fun (e : L1Line) =>
    if e.glade == w.glade && e.home == home / 128 * 128 then
      (if e.dirty == 0 then none else some { e with valid := e.dirty }) else some e
  s.updCore (w.coreNo wid) fun x => { x with l1 := x.l1.filterMap drop }

/-- `wait.mon`: the word is read at its home slice at issue, and then by MONITOR_REREAD (R251). -/
def execWaitMon (x : Ext) (d a : BitVec 8) (s : State) : Out :=
  issueUnit (extSize x) true s fun s wid eid w f => match f.held with
    | some h =>
      if h.stage == 1 then .ok s
      else if getMem s.mem h.a 4 != h.b then .ok (dropMonitored s wid w h.a)
      else holdUnit s wid eid h .waitMon
    | none => do
      let g ← getOpnds s wid w f { s := [{ fd := d.toNat }, { fd := a.toNat, cnt := 2, pair := true }] }
      let home ← globalHome s wid eid w (g.s.getD 1 0) 4 aRead
      let h := heldOr s f x 5 home (g.s.getD 0 0)
      if getMem s.mem home 4 != h.b then .ok (dropMonitored s wid w home) else holdUnit s wid eid h .waitMon

/-- MONITOR_REREAD: the home slice reads a monitored word again; a different value ends the wait (R251). -/
def execMonitorReread (wid eid : Nat) (s : State) : Out := runEvent s do
  let f ← need (s.frag? wid eid) "MONITOR_REREAD"
  let h ← need f.held "MONITOR_REREAD"
  require (h.kind == 5) "MONITOR_REREAD"
  .ok (if getMem s.mem h.a 4 != h.b then releaseHeld (dropMonitored s wid (s.waveD wid) h.a) wid eid else s)

end Sys2Proof.Machine
end

