-- ==== Sys2Proof/Machine/Copy.lean ====
section
/-! DEFINITION. Copies between global memory and scratch (R230, R259 to R262). -/

namespace Sys2Proof.Machine

open Sys2Proof

/-- Directions of a copy. -/
inductive CopyDir where
  | g2s | s2g | g2g
  deriving DecidableEq, Repr

def CopyDir.code (d : CopyDir) : Nat := match d with
  | .g2s => 0
  | .s2g => 1
  | .g2g => 2
def CopyDir.globalSrc (d : CopyDir) : Bool := d != .s2g
def CopyDir.globalDst (d : CopyDir) : Bool := d != .g2s

/-- The target of a copy: none, a barrier, or a ring with the slot it reserves (R259). -/
inductive Target where
  | none
  | bar (a : Nat)
  | ring (a slot base : Nat) (r : Ring)

/-- Checks the target at issue: the four bytes that hold KIND, then the object that KIND names (notes/assumptions 141). -/
def copyTarget (s : State) (w : Wave) (dir : CopyDir) (fd v : Nat) : Eff Target :=
  if fd == 215 then .ok .none
  else do
    scrCheck s w v 4 4 true
    let kind := bitsOf (scrGet s w.blk (partOf v) (offOf v) 4) 31 30
    if kind == 1 then do
      scrCheck s w v 16 16 true
      .ok (.bar v)
    else if kind == 2 && dir == .g2s then do
      scrCheck s w v 64 64 true
      let r ← readRing s w.blk v
      .ok (.ring v r.put (2 ^ 21 * w.part + r.base + r.put % r.slots * r.slotBytes) r)
    else trap ringMisuse

/-- DONE advances in count order over every slot whose bit is set, clearing those bits (R261). -/
def advanceRing : Nat → Ring → Ring
  | 0, r => r
  | n + 1, r =>
    let i := r.done % r.slots
    if bitsOf r.landed i i == 1 then advanceRing n { r with done := (r.done + 1) % 2 ^ 16, landed := setBits r.landed i i 0 }
    else r

/-- The ring's fields as they stand, whatever its other bits hold. -/
def rawRing (s : State) (blk a : Nat) : Ring :=
  let x := scrGet s blk (partOf a) (offOf a) 64
  { geom := bitsOf x 26 0, done := bitsOf x 47 32, put := bitsOf x 63 48, rel := bitsOf x 79 64, landed := bitsOf x 383 128 }

/-- The barrier's fields as they stand. -/
def rawBar (s : State) (blk a : Nat) : Bar :=
  let x := scrGet s blk (partOf a) (offOf a) 16
  { expect := bitsOf x 28 16, arrived := bitsOf x 12 0, bytes := signed 32 (x / 2 ^ 32), phase := bitsOf x 95 64 }

/-- Bytes have landed at a barrier: BYTES and Complete change its fields, the rest of the object stays as it is; none where BYTES
would leave its range (R253, R261). -/
def landBar (s : State) (blk a bytes : Nat) : Option State :=
  let x := scrGet s blk (partOf a) (offOf a) 16
  let b := rawBar s blk a
  let v := b.bytes + (bytes : Int)
  if (2 ^ 31 : Nat) ≤ v then none
  else
    let x := setBits x 63 32 (wrap 32 v)
    let x := if b.arrived == b.expect && v == 0 then setBits (setBits x 12 0 0) 95 64 ((b.phase + 1) % 2 ^ 32) else x
    some (scrSet s blk (partOf a) (offOf a) 16 x)

/-- A slot has landed in a ring: LANDED and DONE change, the rest of the object stays as it is (R261). -/
def landRing (s : State) (blk a slot : Nat) : State :=
  let x := scrGet s blk (partOf a) (offOf a) 64
  let r := rawRing s blk a
  let i := slot % r.slots
  let r := advanceRing 257 { r with landed := setBits r.landed i i 1 }
  scrSet s blk (partOf a) (offOf a) 64 (setBits (setBits x 383 128 r.landed) 47 32 r.done)

/-- The update of a copy's target when it lands; none where BYTES would leave its range (R261). `target` is the scratch
address, `slot` one more than the ring slot. -/
def landTarget (s : State) (blk : Nat) (target : Option Nat) (slot bytes : Nat) : Option State := match target with
  | none => some s
  | some a => if slot == 0 then landBar s blk a bytes else some (landRing s blk a (slot - 1))

/-- The source and destination of each active lane, checked at issue (R260). -/
def copyAccs (s : State) (wid eid : Nat) (w : Wave) (f : Frag) (dir : CopyDir) (n src dst base : Nat) : Eff (List Acc) :=
  collect (fun l => do
    let a ← if dir.globalSrc then globalAcc s wid eid w l (vecVal w src 2 l) n aRead
      else scratchAcc s w l (vecVal w src 1 l) n true
    let b ← if dir.globalDst then globalAcc s wid eid w l (vecVal w dst 2 l) n aWrite
      else scratchAcc s w l ((base + vecVal w dst 1 l) % 2 ^ 32) n true
    .ok { a with va2 := b.va, home2 := b.home }) (lanesOf f.active)

/-- A copy of `n` bytes per lane (R259 to R261). -/
def copyUnit (x : Ext) (n : Nat) (dir : CopyDir) (d a : BitVec 7) (t : BitVec 8) (fa : Bool) (s : State) : Out :=
  issueUnit (extSize x) true s fun s wid eid w f => do
    noControl w
    let m := memExt x
    let cs := if dir.globalSrc then 2 else 1
    let cd := if dir.globalDst then 2 else 1
    let g ← readyOpnds s wid w f
      { v := [{ fd := a.toNat, cnt := cs, pair := dir.globalSrc, tie := fa }, { fd := d.toNat, cnt := cd, pair := dir.globalDst }],
        s := if t == 215 then [] else [{ fd := t.toNat }] }
    let src := g.v.getD 0 0
    let dst := g.v.getD 1 0
    roomFor s wid w.core (some cCP) true
    let tg ← copyTarget s w dir t.toNat (g.s.getD 0 0)
    let base := match tg with
      | .ring _ _ b _ => b
      | _ => 0
    match tg with
    | .ring _ _ _ r =>
      trapIf ((lanesOf f.active).any fun l => decide (r.slotBytes < vecVal w dst 1 l + n)) ringMisuse
      if (r.put + 2 ^ 16 - r.rel) % 2 ^ 16 == r.slots then .error (.hold .copyRingFull s) else pure ()
    | _ => pure ()
    tieCheck w [({ fd := a.toNat, cnt := cs, tie := fa }, src)]
    let accs ← (if dir.globalDst then pinOnTrap s wid eid else id) (copyAccs s wid eid w f dir n src dst base)
    let (tag, pc) := storeTag s w.core f
    let (target, slot) : Option Nat × Nat := match tg with
      | .none => (none, 0)
      | .bar v => (some v, 0)
      | .ring v k _ _ => (some v, k + 1)
    let o : Op :=
      { mkOp wid eid w f .copy (some cCP) with
        accs := accs, size := n, stage := dir.code, target := target, slot := slot, scope := m.scope, pol := m.pol, rc := m.rc,
        tag := if dir.globalDst then some tag else none, pinCore := if dir.globalDst then pc else none }
    opRoom s o
    let s := match tg with
      | .ring v _ _ r => writeRing s w.blk v { r with put := (r.put + 1) % 2 ^ 16 }
      | _ => s
    let s := if dir.globalDst then publish s w.blk else s
    if accs.isEmpty then .ok ((landTarget s w.blk target slot 0).getD s)
    else
      let s := (putOp s o).2
      .ok (if dir.globalDst then noteStore s wid m.scope tag (accs.map (·.home2)) else s)

/-- The sources of a copy, read through L1 or from scratch (R261). -/
def copyRead (s : State) (o : Op) : List Acc → List Acc × State
  | [] => ([], s)
  | a :: t =>
    let (x, s) := if o.stage == 1 then (scrGet s o.blk (partOf a.va) (offOf a.va) o.size, s)
      else readGlobal s o.core o.glade o.ctx o.scope o.pol o.rc a.va a.home o.size
    let (rest, s) := copyRead s o t
    ({ a with data := x } :: rest, s)

/-- The destinations of a copy, written in ascending lane order: scratch, or the home slice as L2ONLY stores, after the
core's copy of the line has gone (R261). -/
def copyWrite (s : State) (o : Op) : List Acc → State
  | [] => s
  | a :: t =>
    copyWrite (if o.stage == 0 then scrSet s o.blk (partOf a.va2) (offOf a.va2) o.size a.data
      else
        let s := dropLine s o.core o.glade o.ctx a.va2
        writeGlobal s o.core o.glade o.ctx o.scope 3 (o.tag.getD 0) a.va2 a.home2 o.size a.data) o t

/-- The bandwidth share of its glade holds an operation of the wave, or a fragment at its `pref` or `wdesc` (R382). -/
def heldByShare (s : State) (w : Wave) : Bool :=
  (w.frags.any fun (_, f) => f.held.isSome && f.stall == .throttleBw) ||
  s.ops.any fun (_, o) =>
  o.blk == w.blk && (s.waveD o.wid).widx == w.widx && !o.done &&
  (((o.kind == .load || o.kind == .atomic || o.kind == .wload) && bwHeld s o) ||
    ((o.kind == .trace || (o.kind == .copy && o.stage != 1)) && bwOver s o.glade))

/-- COPY_LAND: every byte of a copy reaches its destination, its target is updated and CP decrements, as one action;
a BYTES sum out of range ends the block with COPY_FAULT (R261). -/
def execCopyLand (op : Nat) (s : State) : Out := runEvent s do
  let o ← need (s.op? op) "COPY_LAND"
  require (o.kind == .copy && !o.done && !(o.stage == 1 && scrStoresOut s o.wid op)) "COPY_LAND"
  require (!earlierOverlap s op o && entryTurn s op o) "COPY_LAND"
  require ((o.stage == 1 || !(bwOver s o.glade)) && o.reachable s) "COPY_LAND"
  if o.meetsMark s then .error (.ended (blockTrap (dropOp s op) o copyFault)) else pure ()
  let (accs, s) := copyRead s o o.accs
  let s := if o.stage == 1 then s else countReads s o.core o.glade o.ctx (o.l1Reads accs)
  let s := copyWrite s o accs
  match landTarget s o.blk o.target o.slot (o.size * o.accs.length) with
  | some s => .ok (completeOp s op)
  | none => .ok (blockTrap (completeOp s op) o copyFault)

def execVcopy4G2s (x : Ext) (d a : BitVec 7) (t : BitVec 8) (fa : Bool) (s : State) : Out := copyUnit x 4 .g2s d a t fa s
def execVcopy8G2s (x : Ext) (d a : BitVec 7) (t : BitVec 8) (fa : Bool) (s : State) : Out := copyUnit x 8 .g2s d a t fa s
def execVcopy16G2s (x : Ext) (d a : BitVec 7) (t : BitVec 8) (fa : Bool) (s : State) : Out := copyUnit x 16 .g2s d a t fa s
def execVcopy4S2g (x : Ext) (d a : BitVec 7) (t : BitVec 8) (fa : Bool) (s : State) : Out := copyUnit x 4 .s2g d a t fa s
def execVcopy8S2g (x : Ext) (d a : BitVec 7) (t : BitVec 8) (fa : Bool) (s : State) : Out := copyUnit x 8 .s2g d a t fa s
def execVcopy16S2g (x : Ext) (d a : BitVec 7) (t : BitVec 8) (fa : Bool) (s : State) : Out := copyUnit x 16 .s2g d a t fa s
def execVcopy4G2g (x : Ext) (d a : BitVec 7) (t : BitVec 8) (fa : Bool) (s : State) : Out := copyUnit x 4 .g2g d a t fa s
def execVcopy8G2g (x : Ext) (d a : BitVec 7) (t : BitVec 8) (fa : Bool) (s : State) : Out := copyUnit x 8 .g2g d a t fa s
def execVcopy16G2g (x : Ext) (d a : BitVec 7) (t : BitVec 8) (fa : Bool) (s : State) : Out := copyUnit x 16 .g2g d a t fa s

end Sys2Proof.Machine
end

