-- ==== Sys2Proof/Machine/Team.lean ====
section
/-! DEFINITION. Team barriers and reductions (R263 to R265). An arrival is kept per wave of a phase; each fragment's unit is
an operation of class TR. A reduction's values are read when its wave's arrival completes. -/

namespace Sys2Proof.Machine

open Sys2Proof

/-- Changes the held records of a wave that belong to some operations. -/
def mapHeld (s : State) (wid : Nat) (ops : List Nat) (g : Held → Held) : State :=
  let on := fun (f : Frag) => match f.held with
    | some h => if ops.contains h.op then { f with held := some (g h) } else f
    | none => f
  s.updWave wid fun w => w.mapAllFrags on

/-- The team index of a slot; TEAM_BAD where its valid bit is clear. -/
def teamOf (w : Wave) (k : Nat) : Eff Nat :=
  let t := w.teams.getD k 0
  if t / 256 % 2 == 0 then trap teamBad else .ok (t % 256)

/-- The phases of a command stand in one table by team and place: place 0 is the phase in progress, and a later place
holds arrivals of waves whose `tred` of every earlier place has been read (R265). -/
def phaseKey (team n : Nat) : Nat := team * 2048 + n

/-- The arrivals of a team's phase at a place. -/
def phaseAt (s : State) (cmd team n : Nat) : List Arrival := Tab.valD (s.cmdD cmd).phases (phaseKey team n) []

/-- The arrivals of a team's phase in progress. -/
def phaseOf (s : State) (cmd team : Nat) : List Arrival := phaseAt s cmd team 0

def setPhase (s : State) (cmd team n : Nat) (l : List Arrival) : State :=
  s.updCmd cmd fun c => { c with phases := Tab.putD c.phases (phaseKey team n) l [] }

/-- The phase in progress has ended: the next of the sequence takes its place (R265). -/
def endPhase (s : State) (cmd team : Nat) : State :=
  s.updCmd cmd fun c => { c with phases := (c.phases.filter fun p => p.1 != phaseKey team 0).map fun p =>
    if p.1 / 2048 == team then (p.1 - 1, p.2) else p }

/-- The place of the phase a wave's next team operation belongs to: the first where its `tred` has not been read. -/
def nextPlace (s : State) (cmd team wid : Nat) : Nat :=
  ((List.range 2047).find? fun n => !(phaseAt s cmd team n).any fun a => a.wid == wid && a.full).getD 2047

/-- The place of the phase that holds an operation. -/
def placeOf (s : State) (cmd team oid : Nat) : Nat :=
  ((List.range 2047).find? fun n => (phaseAt s cmd team n).any fun a => a.eids.contains oid).getD 2047

/-- Open phases of a glade; the taproot holds 1,024 (R358). -/
def openPhases (s : State) (g : Nat) : Nat :=
  ((Tab.vals s.cmds).filter fun c => c.glade == g).foldl (fun n c => n + c.phases.length) 0

/-- Every lane of the wave that has not ended has arrived. -/
def Arrival.complete (a : Arrival) (w : Wave) : Bool := (~~~w.ended &&& ~~~a.lanes) == 0

/-- The operator of a reduction's code, which holds 1 + operator, 8 × type and 64 × (count − 1). -/
def redOf (what : Nat) : RedOp := match what % 8 with
  | 1 => .add
  | 2 => .min
  | 3 => .max
  | 4 => .and
  | _ => .or
def redType (what : Nat) : Nat := what / 8 % 8
def redCount (what : Nat) : Nat := what / 64 + 1

/-- The contribution of a complete reduction arrival is read, its registers become empty, and the fragments of the wave
that wait without a TIMEOUT are released (R264). -/
def closeArrival (s : State) (a : Arrival) : State × Arrival :=
  let w := s.waveD a.wid
  if a.what == 0 || a.full || !a.complete w then (s, a)
  else
    let rs := range a.dst (redCount a.what)
    let s := s.setWave a.wid (w.markEmptyS rs)
    let s := mapHeld s a.wid a.eids fun h => if h.limit.isNone then { h with stage := 2 } else h
    (s, { a with full := true, vals := rs.map w.sreg })

/-- Reads the contributions of every complete arrival of a phase. -/
def closeAll (s : State) : List Arrival → State × List Arrival
  | [] => (s, [])
  | a :: t =>
    let (s, a) := closeArrival s a
    let (s, t) := closeAll s t
    (s, a :: t)

def closePhase (s : State) (cmd team n : Nat) : State :=
  let (s, l) := closeAll s (phaseAt s cmd team n)
  setPhase s cmd team n l

/-- A wave of a command by block and number: none where it is not resident. -/
def memberWave (s : State) (cmd : Nat) (m : Nat × Nat) : Option (Nat × Wave) :=
  s.waves.find? fun (_, w) => !w.control && w.cmd == cmd && w.widx == m.2 && (s.blkD w.blk).lin == m.1 && !w.delivered

/-- A member takes no further part: its lanes have all ended, or its block is done. -/
def memberEnded (s : State) (cmd : Nat) (m : Nat × Nat) : Bool := match memberWave s cmd m with
  | some (_, w) => w.ended == 0xFFFFFFFF#32
  | none => match (Tab.vals s.blocks).find? fun b => b.cmd == cmd && b.lin == m.1 with
    | none => true
    | some b => b.st == .done || (match b.image with
      | some im => (Tab.vals im.waves).any fun w => w.widx == m.2 && w.ended == 0xFFFFFFFF#32
      | none => false)

/-- The arrival of a member. -/
def memberArrival (s : State) (cmd : Nat) (l : List Arrival) (m : Nat × Nat) : Option Arrival :=
  match memberWave s cmd m with
  | some (k, _) => l.find? fun a => a.wid == k
  | none => none

/-- Every member that has not ended has arrived (R263). -/
def phaseMet (s : State) (cmd team : Nat) : Bool :=
  let l := phaseOf s cmd team
  !l.isEmpty && ((s.cmdD cmd).teams.getD team []).all fun m =>
    memberEnded s cmd m || (match memberArrival s cmd l m with
      | some a => a.complete (s.waveD a.wid)
      | none => false)

/-- The phase of an operation is the one in progress, and it ends now. -/
def phaseMetFor (s : State) (cmd team oid : Nat) : Bool := placeOf s cmd team oid == 0 && phaseMet s cmd team

/-- A fragment's lanes join its wave's arrival. -/
def joinArrival (l : List Arrival) (a : Arrival) : List Arrival := match l with
  | [] => [a]
  | b :: t =>
    if b.wid == a.wid then { b with lanes := b.lanes ||| a.lanes, eids := b.eids ++ a.eids, dst := a.dst } :: t
    else b :: joinArrival t a

/-- Withdraws a fragment's lanes from its arrival: a contribution already read goes with them and its registers are full
again with their values; the operation ends (R265). -/
def leavePhase (s : State) (wid : Nat) (memb : Word) (oid : Nat) : State := match s.op? oid with
  | none => s
  | some o =>
    let cmd := (s.waveD wid).cmd
    let n := placeOf s cmd o.slot oid
    let l := phaseAt s cmd o.slot n
    let back := (l.find? fun a => a.wid == wid && a.full).map fun a => range a.dst (redCount a.what)
    let s := match back with
      | some rs => s.updWave wid fun w => w.markFullS rs
      | none => s
    let l := l.map fun a =>
      if a.wid == wid then { a with lanes := a.lanes &&& ~~~memb, eids := a.eids.filter (· != oid), full := false, vals := [] }
      else a
    completeOp (setPhase s cmd o.slot n (l.filter fun a => a.lanes != 0)) oid

/-- Removes a discarded wave from every phase of its command. -/
def dropArrivals (s : State) (wid cmd : Nat) : State :=
  s.updCmd cmd fun c =>
    { c with phases := (c.phases.map fun (k, l) => (k, l.filter fun a => a.wid != wid)).filter fun (_, l) => !l.isEmpty }

/-- A unit that timed out: its operation is withdrawn, and it traps WAIT_TIMEOUT (R250). -/
def timeoutAfter {α : Type} (s : State) (wid eid : Nat) (h : Held) : Eff α :=
  .error (.ended (takeTrap s wid eid waitTimeout (BitVec.ofNat 32 h.tcount) 0 0))

/-- Holds a team unit, or withdraws it where its time is up and the phase has not ended. -/
def holdTeam (s : State) (wid eid : Nat) (h : Held) (cmd team : Nat) : Eff State :=
  if h.due s.now && !phaseMetFor s cmd team h.op then
    let f := (s.frag? wid eid).getD {}
    timeoutAfter (leavePhase s wid f.memb h.op) wid eid h
  else .error (.hold .taprootWait (s.updFrag wid eid fun f => { f with held := some h }))

/-- Entries of a wave whose held unit is one of some operations. -/
def heldBy (w : Wave) (ops : List Nat) : List Nat :=
  (w.frags.filter fun (_, f) => f.held.any fun h => ops.contains h.op).map (·.1)

/-- TEAM_BAD in the unit that differs and in every other member of the phase (R265). -/
def teamMismatch (s : State) (wid eid : Nat) (l : List Arrival) : State :=
  l.foldl (fun s a => (heldBy (s.waveD a.wid) a.eids).foldl (fun s e => takeTrap s a.wid e teamBad 0 0 0) s)
    (takeTrap s wid eid teamBad 0 0 0)

/-- A fragment issues a team unit into the phase its wave is at: mismatched identities trap TEAM_BAD (R265). -/
def joinTeam (s : State) (wid eid : Nat) (w : Wave) (f : Frag) (x : Ext) (team what dst : Nat) : Eff State := do
  let n := nextPlace s w.cmd team wid
  let l := phaseAt s w.cmd team n
  if l.any fun a => a.what != what then .error (.ended (teamMismatch s wid eid l)) else pure ()
  if l.isEmpty && 1024 ≤ openPhases s w.glade then .error (.hold .taprootWait s)
  else do
    let o : Op :=
      { mkOp wid eid w f (if what == 0 then .tbar else .tred) (some cTR) with
        scr := true, slot := team, sdst := if what == 0 then [] else range dst (redCount what) }
    let (oid, s) ← addOp s o
    let h := { heldOr s f x (if what == 0 then 6 else 7) 0 0 with op := oid }
    let s := s.updFrag wid eid fun f => { f with held := some h }
    let a : Arrival := { wid := wid, lanes := f.memb, eids := [oid], what := what, dst := dst }
    let s := closePhase (setPhase s w.cmd team n (joinArrival l a)) w.cmd team n
    let h := ((s.frag? wid eid).bind fun f => f.held).getD h
    if h.stage == 2 then .ok s else holdTeam s wid eid h w.cmd team

/-- `tbar`: holds its fragment until the phase ends, then completes as `wait.w` on the merged witness (R263); a TIMEOUT still runs in that
wait (notes/assumptions 146). -/
def execTbar (x : Ext) (k : BitVec 2) (s : State) : Out :=
  issueUnit (extSize x) true s fun s wid eid w f => do
    noControl w
    let team ← teamOf w k.toNat
    match f.held with
    | some h =>
      if h.stage == 1 then waitWitness s wid eid w h (BitVec.ofNat 64 h.a) .taprootWait else holdTeam s wid eid h w.cmd team
    | none => joinTeam s wid eid w f x team 0 0

/-- `tred`: the first fragments of a wave are held until its arrival completes; a TIMEOUT holds until the result (R264). -/
def tredUnit (x : Ext) (op : Nat) (t c : Nat) (d : BitVec 8) (k : BitVec 2) (s : State) : Out :=
  issueUnit (extSize x) true s fun s wid eid w f => do
    noControl w
    let team ← teamOf w k.toNat
    match f.held with
    | some h =>
      if h.stage != 0 then .ok s
      else do
        let s := closePhase s w.cmd team (placeOf s w.cmd team h.op)
        let h := ((s.frag? wid eid).bind fun f => f.held).getD h
        if h.stage != 0 then .ok s else holdTeam s wid eid h w.cmd team
    | none => do
      let _ ← getOpnds s wid w f { sd := some (d.toNat, c + 1, false) }
      joinTeam s wid eid w f x team (1 + op + 8 * t + 64 * c) d.toNat

/-- `tred.add`: types i32, ui32 and f32 (R264). -/
def execTredAdd (x : Ext) (d : BitVec 8) (k : BitVec 2) (c t : BitVec 3) (s : State) : Out :=
  if t.toNat ≤ 2 then tredUnit x 0 t.toNat c.toNat d k s else illegalUnit (extSize x) s
/-- `tred.min` (R264). -/
def execTredMin (x : Ext) (d : BitVec 8) (k : BitVec 2) (c t : BitVec 3) (s : State) : Out :=
  if t.toNat ≤ 2 then tredUnit x 1 t.toNat c.toNat d k s else illegalUnit (extSize x) s
/-- `tred.max` (R264). -/
def execTredMax (x : Ext) (d : BitVec 8) (k : BitVec 2) (c t : BitVec 3) (s : State) : Out :=
  if t.toNat ≤ 2 then tredUnit x 2 t.toNat c.toNat d k s else illegalUnit (extSize x) s
/-- `tred.and` (R264). -/
def execTredAnd (x : Ext) (d : BitVec 8) (k : BitVec 2) (c : BitVec 3) (s : State) : Out := tredUnit x 3 0 c.toNat d k s
/-- `tred.or` (R264). -/
def execTredOr (x : Ext) (d : BitVec 8) (k : BitVec 2) (c : BitVec 3) (s : State) : Out := tredUnit x 4 0 c.toNat d k s

/-! ## Release -/

/-- The operations of an arrival complete. -/
def completeOps (s : State) (l : List Nat) : State := l.foldl completeOp s

/-- TBAR_RELEASE: every member that has not ended has arrived; each receives the merged store witnesses, as they stand now
that no lane of a member can store, and completes as `wait.w` on them (R263). -/
def execTbarRelease (cmd team : Nat) (s : State) : Out := runEvent s do
  let l := phaseOf s cmd team
  require (phaseMet s cmd team && l.all fun a => a.what == 0) "TBAR_RELEASE"
  let wit := l.foldl (fun p a => wMerge p (s.waveD a.wid).sw) 0
  let s := endPhase s cmd team
  .ok (l.foldl (fun s a =>
    completeOps (mapHeld s a.wid a.eids fun h => { h with stage := 1, a := wit.toNat }) a.eids) s)

/-- The depth of the tree over the positions of `n` members. -/
def treeDepth (n : Nat) : Nat := ((List.range 14).find? fun k => n ≤ 2 ^ k).getD 13

/-- The result of element `i` of a reduction (R264). -/
def tredResult (s : State) (cmd : Nat) (l : List Arrival) (what : Nat) (members : List (Nat × Nat)) (i : Nat) : Word :=
  let op := redOf what
  let t := redType what
  let depth := treeDepth members.length
  let leaf := fun (p : (Nat × Nat) × Nat) =>
    if memberEnded s cmd p.1 then none else match memberArrival s cmd l p.1 with
    | some a => if a.full then some ((a.vals.getD i 0).toNat, p.2) else none
    | none => none
  let leaves : List Node := members.zipIdx.map leaf ++ List.replicate (2 ^ depth - members.length) none
  match (treeJoin (combine op t 0) depth leaves).1 with
  | none => BitVec.ofNat 32 (redIdentity op t)
  | some (x, _) => BitVec.ofNat 32 (canonF32 t x)

/-- TRED_RELEASE: the contributions combine over the members' positions and every member receives the result (R264). -/
def execTredRelease (cmd team : Nat) (s : State) : Out := runEvent s do
  require (phaseMet s cmd team && (phaseOf s cmd team).all fun a => a.what != 0) "TRED_RELEASE"
  let s := closePhase s cmd team 0
  let l := phaseOf s cmd team
  let what := (l.headD {}).what
  let res := (List.range (redCount what)).map (tredResult s cmd l what ((s.cmdD cmd).teams.getD team []))
  let s := endPhase s cmd team
  .ok (l.foldl (fun s a =>
    let s := s.updWave a.wid fun w => if w.over then w else (w.setSs a.dst res).markFullS (range a.dst res.length)
    completeOps (mapHeld s a.wid a.eids fun h => { h with stage := 1 }) a.eids) s)

end Sys2Proof.Machine
end

