-- ==== Sys2Proof/Machine/Queue.lean ====
section
/-! DEFINITION. Task queues (R266 to R268). A queue operation is at stage 0 on its way to the header's slice, 1 accepted
and answered, 2 with its registers handled, a re-applied one at once; `slot` then gives its order at the slice and `size` its record words. -/

namespace Sys2Proof.Machine

open Sys2Proof

/-- A queue header. -/
structure QHdr where
  ok : Bool
  rw : Nat
  cap : Nat
  head : Nat
  tail : Nat

/-- CAP is a power of two from 1 to 2^23. -/
def capOk (n : Nat) : Bool := (List.range 24).any fun k => n == 2 ^ k

/-- The header word of R266 is one the slice accepts. -/
def geomOk (c : Nat) : Bool := bitsOf c 31 28 ≤ 7 && bitsOf c 27 24 == 0 && capOk (bitsOf c 23 0)

/-- Reads the header at a home location. -/
def readQueue (s : State) (home : Nat) : QHdr :=
  let c := getMem s.mem home 4
  { ok := geomOk c && getMem s.mem (home + 16) 48 == 0, rw := bitsOf c 31 28 + 1, cap := bitsOf c 23 0,
    head := getMem s.mem (home + 4) 4, tail := getMem s.mem (home + 8) 4 }

/-- Records in the queue, and room left. -/
def QHdr.used (q : QHdr) : Nat := (q.tail + 2 ^ 32 - q.head) % 2 ^ 32
def QHdr.room (q : QHdr) : Nat := q.cap - q.used

/-- The header of an operation. -/
def Op.header (o : Op) : Acc := o.accs.headD {}

/-- Operations of a kind that wait at a header's slice. -/
def queued (s : State) (home : Nat) (kind : OpKind) : List (Nat × Op) :=
  s.ops.filter fun (_, o) => o.kind == kind && o.stage == 2 && !o.done && o.header.home == home

/-- Pushes held for room and pops waiting for a record (HELD of R266). -/
def heldCount (s : State) (home : Nat) : Nat :=
  let q := readQueue s home
  ((queued s home .tqpush).length - q.room) + ((queued s home .tqpop).length - q.used)

/-- HELD as the slice keeps it. -/
def noteHeld (s : State) (home : Nat) : State := { s with mem := setMem s.mem (home + 12) 4 (heldCount s home) }

/-- No queued operation of the kind is older. -/
def oldest (s : State) (oid : Nat) (o : Op) : Bool :=
  (queued s o.header.home o.kind).all fun (k, p) => k == oid || o.slot < p.slot

/-- Every byte of a range lies on a page of a context that grants the access. -/
def areaOk (s : State) (g c lo n : Nat) (write : Bool) : Bool :=
  let pages := (s.ctxSt g c).pages
  let chunks := (lo + n - 1) / 2 ^ 16 - lo / 2 ^ 16 + 1
  (List.range chunks).all fun i => match findPage pages ((lo / 2 ^ 16 + i) * 2 ^ 16) with
    | some p => !write || (p.w && !p.cow)
    | none => false

/-- Address of the record at a count. -/
def recordVa (q : QHdr) (va count : Nat) : Nat := va + 64 + count % q.cap * (4 * q.rw)

/-- Writes a record's words, where every word's page grants it. -/
def putRecord (s : State) (g c va : Nat) : List Word → Option State
  | [] => some s
  | w :: t => match writableHome s g c va with
    | some h => putRecord { s with mem := setMem s.mem h 4 w.toNat } g c (va + 4) t
    | none => none

/-- Reads a record's words. -/
def getRecord (s : State) (g c va : Nat) : Nat → Option (List Word)
  | 0 => some []
  | n + 1 => match readableHome s g c va, getRecord s g c (va + 4) n with
    | some h, some t => some (BitVec.ofNat 32 (getMem s.mem h 4) :: t)
    | _, _ => none

/-- A push applied at the slice: the record, then TAIL. -/
def applyPush (s : State) (g c va home : Nat) (ws : List Word) : Option State :=
  let q := readQueue s home
  if !q.ok || q.room == 0 then none
  else (putRecord s g c (recordVa q va q.tail) ws).map fun s =>
    { s with mem := setMem s.mem (home + 8) 4 ((q.tail + 1) % 2 ^ 32) }

/-! ## Instructions -/

/-- A queue request: the header is checked under R236 at size 64 (R267). -/
def queueOp (s : State) (wid eid : Nat) (w : Wave) (f : Frag) (kind : OpKind) (a : BitVec 8) (srcs : List SSrc) : Eff Op := do
  let g ← getOpnds s wid w f { s := { fd := a.toNat, cnt := 2, pair := true } :: srcs }
  let acc ← globalAcc s wid eid w 0 (g.s.getD 0 0) 64 aWrite
  .ok { mkOp wid eid w f kind (some cTQ) with accs := [acc], args := g.s.drop 1 }

/-- `tqinit` (R267). -/
def execTqinit (d a : BitVec 8) (s : State) : Out :=
  issueUnit 4 true s fun s wid eid w f =>
    heldOp s wid eid f .other do
      let o ← queueOp s wid eid w f .tqinit a [{ fd := d.toNat }]
      .ok (o, s)

/-- The field that names the record of a queue instruction: a value that names no scalar source, or for a pop no scalar
destination, is no instruction (R102, R123); a range beyond `s191` is refused by the slice (R267). -/
def queueField (d : BitVec 8) (pop : Bool) : Eff Unit := trapIf (decide ((if pop then 192 else 216) ≤ d.toNat)) illegalOp

/-- The next place in the order at a slice. -/
def State.nextSeq (s : State) : Nat × State := s.fresh

/-- An earlier push of the wave to the same queue has not sent its record: pushes of one wave to one queue reach the slice in
issue order (R267). -/
def olderPush (s : State) (wid oid : Nat) (o : Op) : Bool :=
  s.ops.any fun (k, p) => k < oid && p.wid == wid && p.kind == .tqpush && p.stage != 2 && !p.done && p.header.home == o.header.home

/-- `tqpush`: held for the header's answer, then until its registers are full; the record is then sent (R267). -/
def execTqpush (d a : BitVec 8) (s : State) : Out :=
  issueUnit 4 true s fun s wid eid w f =>
    match f.held with
    | none =>
      heldOp s wid eid f .other do
        queueField d false
        let o ← queueOp s wid eid w f .tqpush a []
        .ok ({ o with sdst := [d.toNat] }, s)
    | some h => match s.op? h.op with
      | none => .ok s
      | some o =>
        if o.stage == 0 || olderPush s wid h.op o then .error (.hold .other s)
        else do
          let rs := range d.toNat o.size
          fullS s w rs
          let (n, s) := s.nextSeq
          let s := s.updOp h.op fun o => { o with stage := 2, slot := n, args := rs.map fun r => (w.sreg r).toNat }
          .ok (noteHeld s o.header.home)

/-- A record is there for a pop, older pops served first. -/
def popMet (s : State) (oid : Nat) (o : Op) : Bool :=
  let q := readQueue s o.header.home
  let older := (queued s o.header.home .tqpop).filter fun (k, p) => k != oid && (o.stage != 2 || p.slot < o.slot)
  q.ok && older.length < q.used

/-- A pop is withdrawn: no record is taken, its registers are full again, and its operation ends (R267). -/
def leaveQueue (s : State) (wid oid : Nat) : State := match s.op? oid with
  | none => s
  | some o =>
    let s := if o.stage == 2 then s.updWave wid fun w => w.markFullS o.sdst else s
    noteHeld (completeOp s oid) o.header.home

/-- `tqpop`: held for the header's answer; its registers then become empty, and a TIMEOUT holds it further (R250, R267). -/
def execTqpop (x : Ext) (d a : BitVec 8) (s : State) : Out :=
  issueUnit (extSize x) true s fun s wid eid w f =>
    match f.held with
    | none => do
      queueField d true
      let o ← queueOp s wid eid w f .tqpop a []
      let (oid, s) ← addOp s { o with sdst := [d.toNat] }
      let h := { heldOr s f x 8 0 0 with op := oid }
      .error (.hold .other (s.updFrag wid eid fun f => { f with held := some h }))
    | some h => match s.op? h.op with
      | none => .ok s
      | some o =>
        if h.stage == 1 then .ok s
        else if h.due s.now && !popMet s h.op o then timeoutAfter (leaveQueue s wid h.op) wid eid h
        else if o.stage == 0 then .error (.hold .other s)
        else if o.stage == 2 then .error (.hold .tqEmpty s)
        else do
          let rs := range d.toNat o.size
          fullS s w rs
          let (n, s) := s.nextSeq
          let s := s.updOp h.op fun o => { o with stage := 2, slot := n, sdst := rs }
          let s := noteHeld (s.updWave wid fun w => w.markEmptyS rs) o.header.home
          if h.limit.isNone then .ok s else .error (.hold .tqEmpty s)

/-! ## Events -/

/-- TQ_REQUEST_ARRIVAL: a request reaches the header's slice and is accepted or refused (R267). A re-applied one has its
registers and record, and takes its place in the order at once; a header whose RWORDS has changed refuses it (R388,
notes/assumptions 134). -/
def execTqRequestArrival (op : Nat) (s : State) : Out := runEvent s do
  let o ← need (s.op? op) "TQ_REQUEST_ARRIVAL"
  require ((o.kind == .tqinit || o.kind == .tqpush || o.kind == .tqpop) && o.stage == 0 && !o.done) "TQ_REQUEST_ARRIVAL"
  require (portOrder s op o && entryTurn s op o) "TQ_REQUEST_ARRIVAL"
  let h := o.header
  let s ← need (syncTouch s o.glade h.home) "TQ_REQUEST_ARRIVAL"
  if o.kind == .tqinit then
    let c := o.args.headD 0
    if !geomOk c || heldCount s h.home != 0 then .ok (refuseHeld s o op queueFault)
    else
      let s : State := { s with mem := setMem s.mem h.home 64 c }
      .ok (releaseHeld (completeOp s op) o.wid o.eid)
  else
    let q := readQueue s h.home
    if !q.ok || 192 < o.sdst.headD 0 + q.rw || !areaOk s o.glade o.ctx (h.va + 64) (q.cap * 4 * q.rw) (o.kind == .tqpush) ||
        (o.wait.isSome && o.size != q.rw) then
      .ok (refuseHeld s o op queueFault)
    else if o.wait.isSome then
      let (n, s) := s.nextSeq
      .ok (noteHeld (s.updOp op fun o => { o with stage := 2, slot := n }) h.home)
    else .ok (s.updOp op fun o => { o with stage := 1, size := q.rw })

/-- TQ_PUSH_LANDED: the oldest push with room has its record landed, and TAIL advances (R267). -/
def execTqPushLanded (op : Nat) (s : State) : Out := runEvent s do
  let o ← need (s.op? op) "TQ_PUSH_LANDED"
  require (o.kind == .tqpush && o.stage == 2 && !o.done && oldest s op o && entryTurn s op o) "TQ_PUSH_LANDED"
  let h := o.header
  let s ← need (syncTouch s o.glade h.home) "TQ_PUSH_LANDED"
  let s ← need (applyPush s o.glade o.ctx h.va h.home (o.args.map (BitVec.ofNat 32))) "TQ_PUSH_LANDED"
  .ok (noteHeld (completeOp s op) h.home)

/-- TQ_POP_DELIVER: the oldest waiting pop is served the record at HEAD (R267). -/
def execTqPopDeliver (op : Nat) (s : State) : Out := runEvent s do
  let o ← need (s.op? op) "TQ_POP_DELIVER"
  let h := o.header
  let q := readQueue s h.home
  require (o.kind == .tqpop && o.stage == 2 && !o.done && oldest s op o && q.ok && q.used != 0 && entryTurn s op o) "TQ_POP_DELIVER"
  let s ← need (syncTouch s o.glade h.home) "TQ_POP_DELIVER"
  let ws ← need (getRecord s o.glade o.ctx (recordVa q h.va q.head) q.rw) "TQ_POP_DELIVER"
  let s : State := { s with mem := setMem s.mem (h.home + 4) 4 ((q.head + 1) % 2 ^ 32) }
  let s := deliverS s o ws
  let s := mapHeld s o.wid [op] fun h => { h with stage := 1 }
  .ok (noteHeld (completeOp s op) h.home)

end Sys2Proof.Machine
end

