-- ==== Sys2Proof/Machine/Waits.lean ====
section
/-! DEFINITION. Timeouts of held waits and their withdrawal (R250, R265, R267, R269). -/

namespace Sys2Proof.Machine

open Sys2Proof

/-- The condition of a held wait holds now. -/
def waitMet (s : State) (wid : Nat) (w : Wave) (h : Held) : Bool :=
  let core := w.coreNo wid
  let sat := fun (n : Nat) => satisfied s core w.glade (BitVec.ofNat 64 n)
  if h.kind == 1 then sat h.a
  else if h.kind == 2 then (rawBar s w.blk h.a).phase != h.b
  else if h.kind == 3 then
    (if h.stage == 1 then sat h.b else getMem s.mem (h.a + 8) 4 != h.b && sat (getMem s.mem (h.a + 24) 8))
  else if h.kind == 4 then h.b ≤ (rawRing s w.blk h.a).avail
  else if h.kind == 5 then h.stage == 1 || getMem s.mem h.a 4 != h.b
  else if h.kind == 6 then
    (if h.stage == 1 then sat h.a else match s.op? h.op with
      | some o => phaseMetFor s w.cmd o.slot h.op
      | none => false)
  else if h.kind == 7 then
    h.stage != 0 || (match s.op? h.op with
      | some o => phaseMetFor s w.cmd o.slot h.op
      | none => false)
  else if h.kind == 8 then
    h.stage == 1 || (match s.op? h.op with
      | some o => popMet s h.op o
      | none => true)
  else true

/-- Withdraws a held wait: its lanes leave a team phase, or its pop leaves the queue (R265, R267). -/
def withdrawWait (s : State) (wid : Nat) (f : Frag) (h : Held) : State :=
  if h.kind == 6 || h.kind == 7 then (if h.stage == 0 then leavePhase s wid f.memb h.op else s)
  else if h.kind == 8 then (if h.stage == 0 then leaveQueue s wid h.op else s)
  else s

/-- WAIT_TIMEOUT: the time of a held wait is up and its condition does not hold; it traps WAIT_TIMEOUT (R250). No wait of a block
that is being vacated times out (R269). -/
def execWaitTimeout (wid eid : Nat) (s : State) : Out := runEvent s do
  let w ← need (s.wave? wid) "WAIT_TIMEOUT"
  let f ← need (w.frag? eid) "WAIT_TIMEOUT"
  let h ← need f.held "WAIT_TIMEOUT"
  require (h.due s.now && (w.control || w.intr.isSome || (s.blkD w.blk).st == .running) && f.halt.isNone && !waitMet s wid w h) "WAIT_TIMEOUT"
  .ok (stepTrap f wid eid (takeTrap (withdrawWait s wid f h) wid eid waitTimeout (BitVec.ofNat 32 h.tcount) 0 0))

end Sys2Proof.Machine
end

