-- ==== Sys2Proof/Machine/Matrix.lean ====
section
/-! DEFINITION. The weight buffer, `mma`, fusion and passes, and the accumulator instructions (R270 to R290). An operation on
a tile keeps the tile in `size`; a matrix operation keeps its slot in `slot`, its K word in `aop`, the form `mma.clr` in
`au`, the quarters not yet written in `stage`, and in `args` the slot's descriptor, elements and side data at issue, which
no `wload` replaces before its pass has ended (R278). -/

namespace Sys2Proof.Machine

open Sys2Proof

/-! ## Slots -/

/-- A slot's key in its block. -/
def slotKey (part i : Nat) : Nat := 16 * part + i

/-- The slot of a handle in the wave's part, in one of the states; else WSLOT_BAD (R272, R276). -/
def slotOf (s : State) (w : Wave) (h : Nat) (states : List Nat) : Eff Slot := do
  let x := Tab.valD (s.blkD w.blk).slots (slotKey w.part h) {}
  trapIf (decide (15 < h) || !states.contains x.st) wslotBad
  .ok x

def setSlot (s : State) (blk key : Nat) (x : Slot) : State :=
  s.updBlk blk fun b => { b with slots := Tab.putD b.slots key x {} }

/-- The slots of the parts of every block on a core. -/
def coreSlots (s : State) (core : Nat) : List Slot :=
  (Tab.vals s.blocks).flatMap fun b =>
    (b.slots.filter fun (k, x) => b.cores[k / 16]? == some core && x.st != 0).map (·.2)

/-- Granules of the weight buffer of a core (R272). -/
def freeGranules (s : State) (core : Nat) : Nat := 768 - (coreSlots s core).foldl (fun n x => n + x.gran) 0

/-- An earlier store of the wave to global memory, a copy's included, has not performed (R230). -/
def globalStoresOut (s : State) (wid before : Nat) : Bool :=
  s.ops.any fun (k, o) => k < before && o.wid == wid && !o.done &&
    ((o.kind == .store && !o.scr) || o.kind == .atomic || (o.kind == .copy && o.stage != 0))

/-- Granted a descriptor: its entry, or the code of what is short (R277). -/
def allocSlot (s : State) (w : Wave) (x : Nat) : Nat × State :=
  let d := slotDesc x
  let b := s.blkD w.blk
  match (List.range 16).find? fun i => (Tab.valD b.slots (slotKey w.part i) {}).st == 0 with
  | none => (0x80000001, s)
  | some i =>
    if 96 ≤ (coreSlots s w.core).length then (0x80000002, s)
    else if freeGranules s w.core < d.granules then (0x80000003, s)
    else (i, setSlot s w.blk (slotKey w.part i) { st := 1, desc := wordsOf 8 x, gran := d.granules })

/-- The unit of `wdesc`: held until the wave's earlier global stores have performed, and while its line misses L1 and the mesh has no room
or the glade has used its bandwidth share; the descriptor is then read and checked (R277, R351, R382). `onMark` says what a line with a
poison mark does (R364). -/
def wdescUnit (onMark : State → Nat → Wave → State) (d a : BitVec 8) (s : State) : Out :=
  issueUnit 4 true s fun s wid eid w f => do
    noControl w
    saveGuard w
    let (va, home) ← match f.held with
      | some h => .ok (h.a, h.b)
      | none => do
        let g ← getOpnds s wid w f { s := [{ fd := a.toNat, cnt := 2, pair := true }], sd := some (d.toNat, 1, false) }
        let home ← globalHome s wid eid w (g.s.getD 0 0) 32 aRead
        .ok (g.s.getD 0 0, home)
    let keep := fun (why : Stall) => .error (.hold why (s.updFrag wid eid fun f => { f with held := some (heldOr s f .none 12 va home) }))
    let miss := l1Misses s w.core w.glade w.ctx va 32
    if globalStoresOut s wid s.nextId then keep .other
    else do
      fullS s w [d.toNat]
      if miss && 256 ≤ meshRequests s w.core then keep .lsuQueueFull
      else if miss && bwOver s w.glade then keep .throttleBw
      else if miss && markedAt s home 32 then .error (.ended (onMark s wid w))
      else do
        let (x, s) := readUnshared s w.core w.glade w.ctx va home 32
        trapIf (!slotDescOk x) wslotBad
        let (r, s) := allocSlot s w x
        .ok (s.updWave wid fun w => w.setS d.toNat (BitVec.ofNat 32 r))

/-- The home locations of a range of bytes: one access per 64 KiB, its length in `va2` (R278). A chunk that lies past 2^52 gives
ADDR_NONCANON (notes/assumptions 114). -/
def rangeHomes (s : State) (wid eid : Nat) (w : Wave) (va n kind : Nat) : Eff (List Acc) :=
  if n == 0 then .ok []
  else
    let chunks := (va + n - 1) / 2 ^ 16 - va / 2 ^ 16 + 1
    collect (fun i => do
      let lo := max va ((va / 2 ^ 16 + i) * 2 ^ 16)
      let hi := min (va + n) ((va / 2 ^ 16 + i + 1) * 2 ^ 16)
      let acc ← globalAcc s wid eid w 0 lo 1 kind
      .ok { acc with va2 := hi - lo }) (List.range chunks)

/-- Reads a range through a core's L1, low byte first. -/
def readSpan (s : State) (core g c : Nat) (a : Acc) : List Byte × State :=
  let lines := (a.va + a.va2 - 1) / 128 - a.va / 128 + 1
  (List.range lines).foldl (fun (bs, s) i =>
    let lo := max a.va ((a.va / 128 + i) * 128)
    let hi := min (a.va + a.va2) ((a.va / 128 + i + 1) * 128)
    let (x, s) := readUnshared s core g c lo (a.home + (lo - a.va)) (hi - lo)
    (bs ++ toBytes (hi - lo) x, s)) ([], s)

/-- Reads several ranges in turn, as one number. -/
def readSpans (s : State) (core g c : Nat) (as : List Acc) : Nat × State :=
  let (bs, s) := as.foldl (fun (bs, s) a =>
    let (b, s) := readSpan s core g c a
    (bs ++ b, s)) (([] : List Byte), s)
  (ofBytes bs, s)

/-- `wload`: the slot enters LOADING and the fetch counts in WL (R278). `args` holds the number of element accesses. -/
def execWload (a : BitVec 8) (s : State) : Out :=
  issueUnit 4 true s fun s wid eid w f => do
    noControl w
    saveGuard w
    let g ← getOpnds s wid w f { s := [{ fd := a.toNat }] }
    let h := g.s.getD 0 0
    let x ← slotOf s w h [1, 2, 3]
    let d := slotDesc (ofWords x.desc)
    let es ← rangeHomes s wid eid w d.src d.elemBytes aRead
    let ss ← rangeHomes s wid eid w d.side d.sideBytes aRead
    let o : Op :=
      { mkOp wid eid w f .wload (some cWL) with accs := es ++ ss, args := [es.length], slot := slotKey w.part h }
    let (_, s) ← addOp s o
    .ok (setSlot s w.blk (slotKey w.part h) { x with st := 2, gen := x.gen + 1 })

/-- An operation that names a slot has not completed. -/
def namesSlot (s : State) (blk key : Nat) (kind : OpKind) (before : Nat) : Bool :=
  s.ops.any fun (k, o) => k < before && o.blk == blk && o.kind == kind && o.slot == key && !o.done

/-- `wfree` (R276, R279). -/
def execWfree (a : BitVec 8) (s : State) : Out :=
  issueUnit 4 true s fun s wid _ w f => do
    noControl w
    saveGuard w
    let g ← getOpnds s wid w f { s := [{ fd := a.toNat }] }
    let h := g.s.getD 0 0
    let x ← slotOf s w h [1, 2, 3]
    let key := slotKey w.part h
    let busy := namesSlot s w.blk key .mma s.nextId || namesSlot s w.blk key .wload s.nextId
    .ok (setSlot s w.blk key (if busy then { x with st := 4 } else {}))

/-- A quarter operation of an operation waits for its pass or is in it. -/
def inPass (s : State) (oid : Nat) : Bool :=
  let has := fun (g : MxGroup) => g.ops.any fun e => e.1 == oid
  (Tab.vals s.cores).any fun c => (Tab.vals c.mx).any fun m => m.opened.any has || m.due.any has || m.running.any has

/-- WLOAD_FILL: the fetch fills its slot once every earlier `mma` on it has completed its pass; the slot becomes READY when
no other `wload` of it is pending (R276, R278). -/
def execWloadFill (op : Nat) (s : State) : Out := runEvent s do
  let o ← need (s.op? op) "WLOAD_FILL"
  require (o.kind == .wload && !o.done && !namesSlot s o.blk o.slot .wload op && !globalStoresOut s o.wid op && !bwHeld s o) "WLOAD_FILL"
  require (!(s.ops.any fun (k, p) => k < op && p.blk == o.blk && p.kind == .mma && p.slot == o.slot && inPass s k)) "WLOAD_FILL"
  if o.meetsMark s then .error (.ended (blockTrap (dropOp s op) o copyFault)) else pure ()
  let n := o.args.headD 0
  let (es, s) := readSpans s o.core o.glade o.ctx (o.accs.take n)
  let (ss, s) := readSpans s o.core o.glade o.ctx (o.accs.drop n)
  let s := completeOp (s.updOp op fun o => { o with done := true }) op
  let x := Tab.valD (s.blkD o.blk).slots o.slot {}
  let more := namesSlot s o.blk o.slot .wload s.nextId
  .ok (setSlot s o.blk o.slot { x with elems := es, side := ss, st := if x.st == 2 && !more then 3 else x.st })

/-- SLOT_FREE: every operation that names a RELEASING slot has completed (R276). -/
def execSlotFree (blk part slot : Nat) (s : State) : Out := runEvent s do
  let key := slotKey part slot
  let x := Tab.valD (s.blkD blk).slots key {}
  require (slot < 16 && x.st == 4) "SLOT_FREE"
  require (!namesSlot s blk key .mma s.nextId && !namesSlot s blk key .wload s.nextId) "SLOT_FREE"
  .ok (setSlot s blk key {})

/-! ## mma (R280 to R284) -/

/-- The quarters with an active lane. -/
def quarters (act : Word) : List Nat := (List.range 4).filter fun q => fld act (8 * q + 7) (8 * q) != 0

/-- The matrix unit of a quadrant. -/
def mxOf (s : State) (core quad : Nat) : MxQuad := Tab.valD (s.coreSt core).mx quad {}
def setMx (s : State) (core quad : Nat) (m : MxQuad) : State := s.updCore core fun c => { c with mx := Tab.put c.mx quad m }

/-- Quarter operations that have not started their pass (R287). -/
def MxQuad.waiting (m : MxQuad) : Nat := (m.opened ++ m.due).foldl (fun n g => n + g.ops.length) 0

/-- A quarter operation joins the oldest compatible open group; none where there is none (R286). -/
def joinOpen (key : List Nat) (blk : Nat) (e : Nat × Nat) : List MxGroup → Option (List MxGroup)
  | [] => none
  | g :: t =>
    if g.key == key && g.blk == blk && g.ops.length < 4 then some ({ g with ops := g.ops ++ [e] } :: t)
    else (joinOpen key blk e t).map (g :: ·)

/-- A quarter operation reaches the unit (R286). -/
def MxQuad.add (m : MxQuad) (key : List Nat) (blk len clk : Nat) (e : Nat × Nat) : MxQuad :=
  let o := match joinOpen key blk e m.opened with
    | some l => l
    | none => m.opened ++ [{ ops := [e], key := key, blk := blk, opened := clk, len := len }]
  { m with opened := o }.makeDue fun g => 4 ≤ g.ops.length

/-- Clks of a pass (R287). -/
def passLen (d : SlotDesc) (semi K : Nat) : Nat :=
  let r := kRate d semi
  if K == 0 then 1 else max 2 ((K + r - 1) / r)

/-- An `mma` waits for a LOADING slot, for places in its matrix unit and for its counter (R238, R282, R287). -/
def mmaRoom (s : State) (wid : Nat) (w : Wave) (h quarterOps : Nat) : Eff Unit :=
  if h < 16 && (Tab.valD (s.blkD w.blk).slots (slotKey w.part h) {}).st == 2 then .error (.hold .wslotNotReady s)
  else if 8 < (mxOf s w.core w.quad).waiting + quarterOps then .error (.hold .mxBusy s)
  else roomFor s wid w.core (some cMX) false

/-- `mma` and `mma.clr`: the checks of R282 in order, then one quarter operation per quarter with an active lane. Check 4 is
made once the unit is otherwise ready (R99). -/
def mmaUnit (clr : Bool) (h : BitVec 4) (a : BitVec 7) (sf : BitVec 8) (fa : Bool) (s : State) : Out :=
  issueUnit 4 true s fun s wid eid w f => do
    noControl w
    saveGuard w
    trapIf (decide (191 ≤ sf.toNat)) illegalOp
    let scale := fmtScale f.fmt
    let cnt := if scale == 2 then 33 else if scale == 1 then 40 else 32
    let n ← vecRange w f a.toNat cnt false
    trapIf (decide (w.nacc ≤ h.toNat)) accBound
    fullS s w (range sf.toNat 2)
    if fa then pure () else fullV s w (range n cnt)
    let sh := (w.sreg sf.toNat).toNat
    let qs := quarters f.active
    let room := mmaRoom s wid w sh qs.length
    if fa && (range n cnt).any w.vEmpty.contains then room else pure ()
    tieCheck w [({ fd := a.toNat, cnt := cnt, tie := fa }, n)]
    trapIf (!comboOk (fmtA f.fmt) (fmtB f.fmt) scale (fmtSemi f.fmt)) fmtIllegal
    let kw := (w.sreg (sf.toNat + 1)).toNat
    let K := bitsOf kw 10 0
    let x ← slotOf s w sh [2, 3]
    let d := slotDesc (ofWords x.desc)
    trapIf (bitsOf kw 15 11 != 0 || K % 8 != 0 || decide (d.K < K)) wslotBad
    let formOk := if scale == 0 then decide (d.form ≤ 1) else if scale == 1 then d.form == 2 else d.form == 3
    trapIf (d.bfmt != fmtB f.fmt || !formOk || (d.form == 1 && fmtSemi f.fmt != 0)) fmtIllegal
    room
    let o : Op :=
      { mkOp wid eid w f .mma (some cMX) with
        scr := true, size := h.toNat, slot := slotKey w.part sh, aop := kw, au := clr,
        stage := qs.foldl (fun n q => n + 2 ^ q) 0, args := [ofWords x.desc, x.elems, x.side],
        accs := (lanesOf f.active).map fun l => { lane := l, data := vecVal w n cnt l } }
    if qs.isEmpty then .ok s
    else
      let (oid, s) := putOp s o
      let key := [slotKey w.part sh, x.gen, K, fld f.fmt 15 4]
      let len := passLen d (fmtSemi f.fmt) K
      let m := mxOf s w.core w.quad
      .ok (setMx s w.core w.quad (qs.foldl (fun m q => m.add key w.blk len (coreClk s w.core) (oid, q)) m))

/-- `mma` (R283). -/
def execMma (h : BitVec 4) (a : BitVec 7) (sf : BitVec 8) (fa : Bool) (s : State) : Out := mmaUnit false h a sf fa s
/-- `mma.clr` (R283). -/
def execMmaClr (h : BitVec 4) (a : BitVec 7) (sf : BitVec 8) (fa : Bool) (s : State) : Out := mmaUnit true h a sf fa s

/-- Element k of a row of A, from the row's registers as one number (R281). -/
def rowElem (fmt : Word) (row k : Nat) : Nat := datum (codeWidth (fmtA fmt)) row k

/-- The scales of a cell of row `row`, column j (R281, R283). -/
def cellScales (fmt : Word) (d : SlotDesc) (kw row side j : Nat) : Scales :=
  if fmtScale fmt == 2 then .tile (datum 32 row 32) (side % 2 ^ 32)
  else if fmtScale fmt == 1 then
    .block (fun b => datum 8 row (128 + b)) (fun b => datum 8 side (j * d.K / 8 + b)) (kw / 2 ^ 16) d.ts
  else .none

/-- One row of a quarter operation: the new columns 0 to N − 1, with their flags (R283). -/
def mmaRow (fmt : Word) (clr : Bool) (d : SlotDesc) (kw elems side row : Nat) (old : Nat → Word) : List (Nat × Nat) :=
  let K := bitsOf kw 10 0
  (List.range d.N).map fun j =>
    let acc := if clr then semiIdentity (fmtSemi fmt) else (old j).toNat
    if K == 0 then (acc, 0)
    else cell fmt (cellScales fmt d kw row side j) (rowElem fmt row) (slotColumn d elems side j K) K acc

/-! ## Tiles (R270, R271) -/

def tileKey (h lane col : Nat) : Nat := 1024 * h + 32 * lane + col
def Wave.tile (w : Wave) (h lane col : Nat) : Word := Tab.valD w.tiles (tileKey h lane col) 0
def Wave.setTile (w : Wave) (h lane col : Nat) (v : Word) : Wave := { w with tiles := Tab.putD w.tiles (tileKey h lane col) v 0 }

/-- Kinds of operation on a tile. -/
def isTileOp (o : Op) : Bool := o.kind == .mma || o.kind == .accrd || o.kind == .accwr || o.kind == .accclr || o.kind == .accst

/-- No earlier operation on the tile is outstanding (R271). -/
def tileReady (s : State) (oid : Nat) (o : Op) : Bool :=
  !(s.ops.any fun (k, p) => k < oid && p.wid == o.wid && isTileOp p && p.size == o.size && !p.done)

/-- Writes a quarter of an operation to its tile, with its flags (R283 to R285). -/
def writeQuarter (s : State) (oid q : Nat) : State := match s.op? oid with
  | none => s
  | some o =>
    let dx := o.args.getD 0 0
    let d := slotDesc dx
    let side := o.args.getD 2 0
    let w := s.waveD o.wid
    let rows := o.accs.filter fun a => a.lane / 8 == q
    let res := rows.map fun a =>
      (a.lane, mmaRow o.fmt o.au d o.aop (o.args.getD 1 0) side a.data fun j => w.tile o.size a.lane j)
    let w := res.foldl (fun w (l, cs) => (cs.zipIdx).foldl (fun w (c, j) =>
      w.setTile o.size l j (BitVec.ofNat 32 c.1)) w) w
    let meta' := if badMeta d side (bitsOf o.aop 10 0) then 32 else 0
    let fl := fun l => match res.find? fun r => r.1 == l with
      | some r => r.2.foldl (fun a c => orFlags a c.2) meta'
      | none => 0
    let mask := (rows.map (·.lane)).foldl (fun m l => m ||| laneBit l) (0 : Word)
    let s := raiseFlags ({ s with watchEv := [] }.setWave o.wid w) o.wid mask fl
    let evs := s.watchEv
    let left := o.stage - 2 ^ q
    let s := { s with watchEv := [] }.updOp oid fun o => { o with stage := left }
    let s := if left == 0 then completeOp s oid else s
    watchOp s oid o evs

/-! ## Fusion and passes (R286, R287) -/

/-- FUSION_WINDOW_EXPIRY: groups opened 8 clk ago become due (R286). -/
def execFusionWindowExpiry (core quad : Nat) (s : State) : Out := runEvent s do
  let m := mxOf s core quad
  let old := fun (g : MxGroup) => g.opened + 8 ≤ coreClk s core
  require (m.opened.any old) "FUSION_WINDOW_EXPIRY"
  .ok (setMx s core quad (m.makeDue old))

/-- MATRIX_PASS_START: the first due group starts its pass when the array is free (R286). -/
def execMatrixPassStart (core quad : Nat) (s : State) : Out := runEvent s do
  let m := mxOf s core quad
  let g ← need m.due.head? "MATRIX_PASS_START"
  require m.running.isNone "MATRIX_PASS_START"
  .ok (setMx s core quad { m with due := m.due.drop 1, running := some g, passEnd := coreClk s core + g.len })

/-- MATRIX_PASS_END: the pass has taken its clks; the tiles are written 6 clk later (R287). -/
def execMatrixPassEnd (core quad : Nat) (s : State) : Out := runEvent s do
  let m := mxOf s core quad
  let g ← need m.running "MATRIX_PASS_END"
  require (m.passEnd ≤ coreClk s core) "MATRIX_PASS_END"
  .ok (setMx s core quad { m with running := none, writing := m.writing ++ g.ops.map fun e => (e, m.passEnd + 6) })

/-- Writes the quarters of a list whose turn on their tile has come; the others stay. -/
def writeReady (s : State) : List ((Nat × Nat) × Nat) → State × List ((Nat × Nat) × Nat)
  | [] => (s, [])
  | (e, t) :: rest => match s.op? e.1 with
    | none => writeReady s rest
    | some o =>
      if tileReady s e.1 o then writeReady (writeQuarter s e.1 e.2) rest
      else
        let (s, l) := writeReady s rest
        (s, (e, t) :: l)

/-- ACCUMULATOR_TILE_WRITE: the rows of quarters whose pass ended 6 clk ago are written, in issue order on each tile
(R271, R285, R287). -/
def execAccumulatorTileWrite (core quad : Nat) (s : State) : Out := runEvent s do
  let m := mxOf s core quad
  let clk := coreClk s core
  let now := m.writing.filter fun (_, t) => t ≤ clk
  let (s', left) := writeReady s (now.mergeSort fun a b => a.1.1 ≤ b.1.1)
  require (left.length < now.length) "ACCUMULATOR_TILE_WRITE"
  .ok (setMx s' core quad { mxOf s' core quad with writing := left ++ m.writing.filter fun (_, t) => !(t ≤ clk) })

/-! ## Accumulator instructions (R289, R290) -/

/-- An ACC function: the handle's check, then an operation of class MX; `writes` says that it writes its tile. -/
def tileUnit (h : BitVec 4) (writes : Bool) (s : State) (k : State → Nat → Nat → Wave → Frag → Eff (Op × State)) : Out :=
  issueUnit 4 true s fun s wid eid w f => do
    noControl w
    if writes then saveGuard w else pure ()
    trapIf (decide (w.nacc ≤ h.toNat)) accBound
    let (o, s) ← k s wid eid w f
    let (_, s) ← addOp s { o with size := h.toNat, scr := true }
    .ok (s.updWave wid fun w => w.markEmptyV o.dst)

/-- `accrd` (R289). -/
def execAccrd (d : BitVec 7) (h : BitVec 4) (s : State) : Out :=
  tileUnit h false s fun s wid eid w f => do
    let g ← getOpnds s wid w f { vd := some (d.toNat, 32, false) }
    .ok ({ mkOp wid eid w f .accrd (some cMX) with dst := range g.vd 32 }, s)

/-- `accwr`: its registers are read at issue (R289). -/
def execAccwr (h : BitVec 4) (a : BitVec 7) (fa : Bool) (s : State) : Out :=
  tileUnit h true s fun s wid eid w f => do
    let g ← getOpndsFor s wid w f { v := [{ fd := a.toNat, cnt := 32, tie := fa }] } (roomFor s wid w.core (some cMX) false)
    let accs := (lanesOf f.active).map fun l => ({ lane := l, data := vecVal w (g.v.getD 0 0) 32 l } : Acc)
    .ok ({ mkOp wid eid w f .accwr (some cMX) with accs := accs }, s)

/-- `accclr` (R289). -/
def execAccclr (h : BitVec 4) (s : State) : Out :=
  tileUnit h true s fun s wid eid w f => .ok (mkOp wid eid w f .accclr (some cMX), s)

/-- `accst` (R290). -/
def execAccst (h : BitVec 4) (a : BitVec 8) (s : State) : Out :=
  tileUnit h false s fun s wid eid w f => do
    let g ← getOpnds s wid w f { s := [{ fd := a.toNat }] }
    let ad := g.s.getD 0 0
    scrCheck s w ad 4096 128 false
    .ok ({ mkOp wid eid w f .accst (some cMX) with accs := [{ va := ad }] }, s)

/-- Row `l` of a tile as a number. -/
def Wave.tileRow (w : Wave) (h l : Nat) : Nat := ofWords ((List.range 32).map fun c => w.tile h l c)

/-- The effect of an accumulator operation. -/
def tileEffect (s : State) (oid : Nat) (o : Op) : State :=
  let w := s.waveD o.wid
  let ls := lanesOf o.active
  if o.kind == .accrd then completeLanes s oid o fun c l => w.tile o.size l c
  else if o.kind == .accwr then
    let put := fun (w : Wave) (a : Acc) => (List.range 32).foldl (fun w c =>
      w.setTile o.size a.lane c (BitVec.ofNat 32 (datum 32 a.data c))) w
    completeOp (s.setWave o.wid (o.accs.foldl put w)) oid
  else if o.kind == .accclr then
    let clr := fun (w : Wave) (l : Nat) => (List.range 32).foldl (fun w c => w.setTile o.size l c 0) w
    completeOp (s.setWave o.wid (ls.foldl clr w)) oid
  else
    let ad := (o.accs.headD {}).va
    completeOp (ls.foldl (fun s l => scrSet s o.blk (partOf ad) (offOf ad + 128 * l) 128 (w.tileRow o.size l)) s) oid

/-- ACCUMULATOR_OP_COMPLETE: an `accrd`, `accwr`, `accclr` or `accst` takes effect on its tile in issue order; `accst` also
after the wave's earlier scratch stores (R271, R289, R290). -/
def execAccumulatorOpComplete (op : Nat) (s : State) : Out := runEvent s do
  let o ← need (s.op? op) "ACCUMULATOR_OP_COMPLETE"
  require (isTileOp o && o.kind != .mma && !o.done && tileReady s op o) "ACCUMULATOR_OP_COMPLETE"
  require (!(o.kind == .accst && scrStoresOut s o.wid op)) "ACCUMULATOR_OP_COMPLETE"
  .ok (tileEffect s op o)

end Sys2Proof.Machine
end

