-- ==== Sys2Proof/Machine/Canopy.lean ====
section
/-! DEFINITION. The Canopy shading cache: placement, access, allocation, lookups, fills, aborts, sweeps, frames and timers
(R292 to R314). A lookup keeps its lanes as accesses: `data` the three operand words, `va2` the three result words once the
lane has been applied, `home` how many of its entries have been probed and `home2` the code of its own key until then;
`stage` counts the lanes applied. -/

namespace Sys2Proof.Machine

open Sys2Proof

/-! ## Namespace records and access (R296 to R299) -/

/-- Offset of namespace record n in the CNP_ block. -/
def nsOff (n : Nat) : Nat := 0x10000 + 64 * n

/-- The valid record that holds a namespace. -/
def nsFind (s : State) (ns : Nat) : Option Nat :=
  if ns == 0 then none
  else (List.range 1024).find? fun n => regFld s .cnp (nsOff n) 31 31 == 1 && regFld s .cnp (nsOff n) 15 0 == ns

def nsWord (s : State) (n off : Nat) : Nat := (reg s .cnp (nsOff n + off)).toNat
/-- Adds 1 to a counter word of a record. -/
def nsBump (s : State) (n off : Nat) : State := setReg s .cnp (nsOff n + off) (reg s .cnp (nsOff n + off) + 1)
def nsOwner (s : State) (n : Nat) : Nat := regFld s .cnp (nsOff n) 29 24
def nsFrame (s : State) (n : Nat) : Nat := nsWord s n 0x14

/-- The ACL entry by which a glade is permitted on a namespace (R299). -/
def aclOf (s : State) (g ns : Nat) : Option Nat := match nsFind s ns with
  | none => none
  | some n => (List.range 8).find? fun i =>
    let lo := reg s (.gld g) (0x2240 + 16 * i)
    let hi := reg s (.gld g) (0x2244 + 16 * i)
    fld hi 31 31 == 1 && fld hi 15 0 == ns && lo.toNat == nsWord s n 0x04

def permitted (s : State) (g ns : Nat) : Bool := (aclOf s g ns).isSome

/-- Write rights (R299). -/
def writeRights (s : State) (g ns : Nat) : Bool := match nsFind s ns, aclOf s g ns with
  | some n, some i => nsOwner s n == g && regFld s (.gld g) (0x2244 + 16 * i) 30 30 == 1
  | _, _ => false

def cnpQuota (s : State) (g : Nat) : Nat := regFld s (.gld g) 0x2200 22 0
def cnpUsed (s : State) (g : Nat) : Nat := regFld s (.gld g) 0x2204 22 0
def setUsed (s : State) (g n : Nat) : State := setRegFld s (.gld g) 0x2204 22 0 n

/-- Notify additions of a namespace, once to each glade permitted on it, by the records and lists of `was`, with a notify
word (R300). -/
def notifyBy (was s : State) (ns : Nat) : State :=
  (List.range 48).foldl (fun s g => match aclOf was g ns with
    | some i => notifyAdd s g 0 (reg64 was (.gld g) (0x2248 + 16 * i) / 4 % 2 ^ 50 * 4)
    | none => s) s

/-- As `notifyBy`, by the records and lists as they stand. -/
def notifyNs (s : State) (ns : Nat) : State := notifyBy s s ns

/-! ## Placement (R293) -/

/-- The words of a key. -/
def mkKey (ns obj layer level tu tv : Nat) : List Word :=
  [BitVec.ofNat 32 ns, BitVec.ofNat 32 obj, BitVec.ofNat 32 (level * 2 ^ 28 + layer * 2 ^ 24 + tv * 2 ^ 12 + tu)]

/-- The slice of a key. -/
def keySlice (s : State) (k : List Word) : Nat := bucketSlice s (Config.canopyHash 0 (ofWords k) % 4096)

/-- The first entry of a key's set. -/
def keySet (s : State) (k : List Word) : Nat := 16 * (2048 * keySlice s k + Config.canopyHash 1 (ofWords k) % 2048)

def cnpEnt (s : State) (e : Nat) : CnpEnt := Tab.valD s.canopy e {}
def setEnt (s : State) (e : Nat) (x : CnpEnt) : State := { s with canopy := Tab.putD s.canopy e x {} }

/-- The entry that holds a key. -/
def cnpLookup (s : State) (k : List Word) : Option Nat :=
  (range (keySet s k) 16).find? fun e => (cnpEnt s e).st != 0 && (cnpEnt s e).key == k

/-- The namespace of an entry. -/
def CnpEnt.ns (x : CnpEnt) : Nat := (x.key.headD 0).toNat

/-- An entry becomes INVALID: its owner's USED falls, and the notify words move where it leaves INFLIGHT (R295, R300). -/
def dropEnt (s : State) (e : Nat) : State :=
  let x := cnpEnt s e
  if x.st == 0 then s
  else
    let s := setEnt s e { x with st := 0 }
    let s := setUsed s x.owner (cnpUsed s x.owner - 1)
    if x.st == 1 then notifyNs s x.ns else s

/-- As `dropEnt`, a counter of the namespace's record rising. -/
def dropCounted (s : State) (e off : Nat) : State :=
  let s' := dropEnt s e
  match nsFind s (cnpEnt s e).ns with
  | some n => nsBump s' n off
  | none => s'

/-- Every entry that satisfies `p` becomes INVALID; each namespace that had one INFLIGHT notifies once, by the records and lists
of `was` (R300, R315). -/
def discardBy (was s : State) (p : Nat → CnpEnt → Bool) : State :=
  let hit := s.canopy.filter fun (k, x) => x.st != 0 && p k x
  let nss := (hit.filterMap fun (_, x) => if x.st == 1 then some x.ns else none).eraseDups
  let s := hit.foldl (fun s (k, x) => setUsed (setEnt s k { x with st := 0 }) x.owner (cnpUsed s x.owner - 1)) s
  nss.foldl (notifyBy was) s

/-- As `discardBy`, by the records and lists as they stand. -/
def discardEnts (s : State) (p : Nat → CnpEnt → Bool) : State := discardBy s s p

/-! ## Allocation (R301, R302) -/

/-- A permutation of words: one round, its inverse, and three of each. -/
def mixWord (i : Nat) (x : Word) : Word := x.extractLsb' 0 16 ++ (x.extractLsb' 16 16 ^^^ Config.handleRound i (x.extractLsb' 0 16))
def unmixWord (i : Nat) (y : Word) : Word := (y.extractLsb' 0 16 ^^^ Config.handleRound i (y.extractLsb' 16 16)) ++ y.extractLsb' 16 16

/-- The fill handle of an entry and GEN: 23 bits of one and 9 of the other, through a permutation that software cannot know
(R294, R302, notes/assumptions 117). -/
def fillHandle (e gen : Nat) : Word := mixWord 2 (mixWord 1 (mixWord 0 (BitVec.ofNat 32 (512 * e + gen))))

/-- The entry and the GEN that a handle names (R295). -/
def handleOf (h : Word) : Nat × Nat :=
  let x := (unmixWord 0 (unmixWord 1 (unmixWord 2 h))).toNat
  (x / 512, x % 512)

/-- Address of a namespace's shade queue header in its owner's context 0, and its home (R296, R302). -/
def queueVa (s : State) (n : Nat) : Nat := reg64 s .cnp (nsOff n + 0x08) / 64 % 2 ^ 46 * 64
def queueHome (s : State) (n : Nat) : Option Nat :=
  if ctxState s (nsOwner s n) 0 != 1 then none else writableHome s (nsOwner s n) 0 (queueVa s n)

/-- The slice of a namespace's queue header holds requests until it has an entry for it (R357). -/
def pushWaits (s : State) (n : Nat) : Bool := (queueHome s n).any fun h => (syncTouch s (nsOwner s n) h).isNone

/-- PushTask: 0 pushed, 1 refused for want of room, 2 refused with QERR. -/
def pushTask (s : State) (n g : Nat) (k : List Word) (handle : Word) : Nat × State :=
  let owner := nsOwner s n
  let va := queueVa s n
  let bad := fun (s : State) => (2, setRegFld s .cnp (nsOff n + 0x10) 31 31 1)
  let ws : List Word := [k.getD 1 0, k.getD 2 0, handle, BitVec.ofNat 32 (g * 2 ^ 16 + (k.headD 0).toNat)]
  match queueHome s n with
  | none => bad s
  | some home =>
    let s := (syncTouch s owner home).getD s
    let q := readQueue s home
    if !q.ok || q.rw != 4 || !areaOk s owner 0 (va + 64) (q.cap * 16) true then bad s
    else if q.room == 0 then (1, s)
    else match applyPush s owner 0 va home ws with
      | some s => (0, noteHeld s home)
      | none => bad s

/-- How old an entry is in its namespace: (FRAME − LASTUSE, age), as one number to compare (R294, R301). -/
def lruRank (s : State) (x : CnpEnt) : Nat :=
  let f := match nsFind s x.ns with
    | some n => nsFrame s n
    | none => 0
  (f + 2 ^ 32 - x.lastUse) % 2 ^ 32 * 256 + min 255 ((f + 2 ^ 32 - x.fillFrame) % 2 ^ 32)

/-- The victim among candidates: the greatest rank, the lowest way of equals. -/
def lruPick (s : State) (cand : List Nat) : Option Nat :=
  cand.foldl (fun best e => match best with
    | none => some e
    | some b => if lruRank s (cnpEnt s b) < lruRank s (cnpEnt s e) then some e else some b) none

/-- Allocate of R301 for a lookup of glade `g`: 3 MISS or 4 MISS_NOALLOC. -/
def cnpAllocate (s : State) (n g : Nat) (k : List Word) : Nat × State :=
  let o := nsOwner s n
  let set := range (keySet s k) 16
  let full := cnpQuota s o ≤ cnpUsed s o
  let inv := if full then none else set.find? fun e => (cnpEnt s e).st == 0
  let way : Option Nat × State := match inv with
    | some e => (some e, s)
    | none =>
      match lruPick s (set.filter fun e => (cnpEnt s e).st == 2 && (!full || (cnpEnt s e).owner == o)) with
      | some e => (some e, dropEnt s e)
      | none => (none, s)
  match way with
  | (none, s) => (4, s)
  | (some e, s) =>
    let x := cnpEnt s e
    let gen := (x.gen + 1) % 512
    let s := setEnt s e { x with gen := gen }
    let (r, s) := pushTask s n g k (fillHandle e gen)
    if r != 0 then (4, s)
    else
      let s := setEnt s e
        { key := k, owner := o, st := 1, gen := gen, swq := nsWord s n 0x24, lastUse := x.lastUse, fillFrame := x.fillFrame,
          dep := x.dep, timer := s.now + 1000 * regFld s .cnp (nsOff n + 0x10) 15 0, texels := x.texels }
      (3, nsBump (setUsed s o (cnpUsed s o + 1)) n 0x18)

/-! ## sclook (R303, R304) -/

/-- Words of a lane's operands. -/
def lookObj (x : Nat) : Nat := datum 32 x 0
def lookU (x : Nat) : Nat := bitsOf x 46 32
def lookV (x : Nat) : Nat := bitsOf x 62 48
def lookLayer (x : Nat) : Nat := bitsOf x 67 64
def lookLevel (x : Nat) : Nat := bitsOf x 71 68

/-- The key a lane names, `delta` levels coarser than its own. -/
def lookKey (ns x delta : Nat) : List Word :=
  mkKey ns (lookObj x) (lookLayer x) (lookLevel x + delta) (lookU x / 2 ^ delta / 8) (lookV x / 2 ^ delta / 8)

/-- `sclook` (R303). -/
def execSclook (d a : BitVec 7) (sf : BitVec 8) (fa : Bool) (s : State) : Out :=
  issueUnit 4 true s fun s wid eid w f => do
    noControl w
    let g ← getOpndsFor s wid w f
      { v := [{ fd := a.toNat, cnt := 3, tie := fa }], s := [{ fd := sf.toNat }], vd := some (d.toNat, 3, false) }
      (roomFor s wid w.core (some cTQ) true)
    let ns := g.s.getD 0 0
    trapIf (ns / 2 ^ 16 != 0) canopyBad
    let accs := (lanesOf f.active).map fun l => ({ lane := l, data := vecVal w (g.v.getD 0 0) 3 l } : Acc)
    match accs.find? fun c => bitsOf c.data 47 47 != 0 || bitsOf c.data 63 63 != 0 || bitsOf c.data 95 73 != 0 with
    | some c => .error (.trap canopyBad (BitVec.ofNat 32 c.lane) 0)
    | none => do
      let o : Op := { mkOp wid eid w f .lookup (some cTQ) with accs := accs, dst := range g.vd 3, args := [ns] }
      if accs.isEmpty then .ok s
      else .ok ((putOp s o).2.updWave wid fun w => w.markEmptyV (range g.vd 3))

/-- Out of R304: the texel, CODE, QUEUED and LEVEL, as three words in one number. -/
def lookOut (x : CnpEnt) (u v code queued level : Nat) : Nat :=
  datum 64 x.texels (8 * (v % 8) + u % 8) + 2 ^ 64 * (code + 8 * queued + 16 * level)

/-- The VALID entry of a key, its LASTUSE set (R304). -/
def validEnt (s : State) (k : List Word) : Option Nat := match cnpLookup s k with
  | some e => if (cnpEnt s e).st == 2 then some e else none
  | none => none
def touchEnt (s : State) (n e : Nat) : State := setEnt s e { cnpEnt s e with lastUse := nsFrame s n }

/-- The probe of a lane's own key: its words where the entry is VALID, else the code it returns if no coarser one is (R304). -/
def lookOwn (s : State) (n g ns x : Nat) : Option Nat × Nat × State :=
  let k := lookKey ns x 0
  match validEnt s k with
  | some e => (some (lookOut (cnpEnt s e) (lookU x) (lookV x) 0 0 (lookLevel x)), 0, touchEnt s n e)
  | none =>
    if (cnpLookup s k).isSome then (none, 2, s)
    else if bitsOf x 72 72 == 1 then (none, 4, s)
    else
      let (st, s) := cnpAllocate s n g k
      (none, st, s)

/-- The probe `d` levels coarser of a lane whose own key gave the code `st` (R304). -/
def lookCoarse (s : State) (n ns x d st : Nat) : Option Nat × State := match validEnt s (lookKey ns x d) with
  | some e =>
    let queued := if st == 2 || st == 3 then 1 else 0
    (some (lookOut (cnpEnt s e) (lookU x / 2 ^ d) (lookV x / 2 ^ d) 1 queued (lookLevel x + d)), touchEnt s n e)
  | none => (none, s)

/-- The next probe of a lane, each read at a moment of its own (R304, R313): the lane's record, and whether it is done. -/
def lookProbe (s : State) (n g ns : Nat) (a : Acc) : Acc × Bool × State :=
  let (r, st, s) : Option Nat × Nat × State :=
    if a.home == 0 then lookOwn s n g ns a.data
    else
      let (r, s) := lookCoarse s n ns a.data a.home a.home2
      (r, a.home2, s)
  match r with
  | some v => ({ a with va2 := v }, true, s)
  | none =>
    if a.home < 2 && lookLevel a.data + a.home + 1 ≤ 15 then ({ a with home := a.home + 1, home2 := st }, false, s)
    else ({ a with va2 := 2 ^ 64 * st }, true, s)

/-- A lane's probe would allocate, and the slice of its namespace's queue cannot yet take the task. -/
def allocWaits (s : State) (n ns : Nat) (a : Acc) : Bool :=
  a.home == 0 && bitsOf a.data 72 72 == 0 && (cnpLookup s (lookKey ns a.data 0)).isNone && pushWaits s n

/-- Keys that a canopy operation has yet to touch. -/
def Op.cnpKeys (o : Op) : List (List Word) :=
  if o.kind == .lookup then
    (o.accs.drop o.stage).flatMap fun a => ((List.range 3).drop a.home).map fun d => lookKey (o.args.headD 0) a.data d
  else []

/-- An entry named by a handle (R295, R305): INFLIGHT with that GEN. -/
def handleEnt (s : State) (h : Word) : Option Nat :=
  let (e, gen) := handleOf h
  if (cnpEnt s e).st == 1 && (cnpEnt s e).gen == gen then some e else none

/-- The entry of a fill or abort still to be applied. -/
def Op.cnpEntry (s : State) (o : Op) : Option Nat :=
  if o.kind == .fill || o.kind == .abort then handleEnt s (BitVec.ofNat 32 (o.args.headD 0)) else none

/-- An earlier canopy operation of the wave to the same entry has not been applied (R313). -/
def cnpEarlier (s : State) (oid : Nat) (o : Op) (keys : List (List Word)) : Bool :=
  s.ops.any fun (k, p) =>
    k < oid && p.wid == o.wid && !p.done && (p.kind == .lookup || p.kind == .fill || p.kind == .abort) &&
    ((p.cnpKeys.any fun k => keys.contains k) || (match p.cnpEntry s with
      | some e => keys.contains (cnpEnt s e).key
      | none => false))

/-- Every lane applied: the three registers are written and become full. -/
def lookDone (s : State) (oid : Nat) (o : Op) : State :=
  let res := fun (i l : Nat) => match o.accs.find? fun a => a.lane == l with
    | some a => BitVec.ofNat 32 (datum 32 a.va2 i)
    | none => 0
  completeLanes s oid o res

/-- CANOPY_LOOKUP: the next probe of a `sclook` is made; a lane that names the key of a lower one copies its outcome, and
a glade without permission is DENIED in every lane (R304, R313); where the namespace goes meanwhile, in the lanes still to be probed
(R297, notes/assumptions 148). -/
def execCanopyLookup (op : Nat) (s : State) : Out := runEvent s do
  let o ← need (s.op? op) "CANOPY_LOOKUP"
  require (o.kind == .lookup && !o.done) "CANOPY_LOOKUP"
  let ns := o.args.headD 0
  let a := o.accs.getD o.stage {}
  if o.stage == 0 && a.home == 0 && !permitted s o.glade ns then
    .ok (lookDone s op { o with accs := o.accs.map fun a => { a with va2 := 5 * 2 ^ 64 } })
  else do
    require (!cnpEarlier s op o [lookKey ns a.data a.home]) "CANOPY_LOOKUP"
    let prev := (o.accs.take o.stage).find? fun b => lookKey ns b.data 0 == lookKey ns a.data 0
    require (!(prev.isNone && (nsFind s ns).any fun n => allocWaits s n ns a)) "CANOPY_LOOKUP"
    let (a', fin, s) : Acc × Bool × State := match prev, nsFind s ns with
      | some b, _ => ({ a with va2 := b.va2 }, true, s)
      | none, some n => lookProbe s n o.glade ns a
      | none, none => ({ a with va2 := 2 ^ 64 * (if a.home == 0 then 5 else a.home2) }, true, s)
    let o := { o with stage := if fin then o.stage + 1 else o.stage, accs := o.accs.set o.stage a' }
    let s := s.updOp op fun _ => o
    .ok (if o.stage == o.accs.length then lookDone s op o else s)

/-! ## scfill and scabort (R305, R306) -/

/-- The device witness of the issuing core's view, which a fill and a sweep return (R305, R308). -/
def cnpWitness (s : State) (w : Wave) : DWord := mkWit 2 w.glade 0 (s.coreSt w.core).view

/-- `scfill`: a global store tagged with the core's view; its witness is written at issue (R305). -/
def execScfill (d a : BitVec 7) (sf : BitVec 8) (fa : Bool) (s : State) : Out :=
  issueUnit 4 true s fun s wid eid w f => do
    noControl w
    saveGuard w
    let g ← getOpndsFor s wid w f
      { v := [{ fd := a.toNat, cnt := 4, tie := fa }], s := [{ fd := sf.toNat, cnt := 2 }], sd := some (d.toNat, 2, true) }
      (roomFor s wid w.core (some cTQ) true)
    trapIf (f.active != 0xFFFFFFFF#32) canopyBad
    let hm := g.s.getD 0 0
    let tex := (List.range 32).foldr (fun l acc => vecVal w (g.v.getD 0 0) 4 l + 2 ^ 128 * acc) 0
    let tag := (s.coreSt w.core).view
    let o : Op :=
      { mkOp wid eid w f .fill (some cTQ) with args := [hm % 2 ^ 32, hm / 2 ^ 32, tex], tag := some tag }
    let (_, s) ← addOp s o
    let s := (requestAdvance s w.glade).updWave wid fun w => w.setSPair g.sd (cnpWitness s w)
    .ok (publish (noteStore s wid 1 tag [0]) w.blk)

/-- LastSweep of a record's bit is later than an entry's SWQ (R309). -/
def sweptSince (s : State) (n bit swq : Nat) : Bool :=
  let d := ((Tab.valD s.lastSweep (32 * n + bit) 0).toNat + 2 ^ 32 - swq) % 2 ^ 32
  1 ≤ d && d < 2 ^ 31

/-- The entry a handle was made for, whatever its GEN is now. -/
def madeFor (s : State) (h : Word) : Option CnpEnt := Tab.val? s.canopy (handleOf h).1

/-- A fill arrives at its entry's slice (R305). -/
def applyFill (s : State) (g : Nat) (h mask : Word) (tex : Nat) : State := match handleEnt s h with
  | none => match madeFor s h with
    | some x => match nsFind s x.ns with
      | some n => nsBump s n 0x20
      | none => s
    | none => s
  | some e =>
    let x := cnpEnt s e
    match nsFind s x.ns with
    | none => s
    | some n =>
      if !writeRights s g x.ns then nsBump s n 0x20
      else if (lanesOf mask).any fun b => sweptSince s n b x.swq then dropCounted s e 0x20
      else
        let s := setEnt s e { x with st := 2, texels := tex, dep := mask, fillFrame := nsFrame s n, lastUse := nsFrame s n }
        notifyNs s x.ns

/-- CANOPY_FILL: a fill is accepted or discarded at its slice, and has then landed (R305). -/
def execCanopyFill (op : Nat) (s : State) : Out := runEvent s do
  let o ← need (s.op? op) "CANOPY_FILL"
  require (o.kind == .fill && !o.done) "CANOPY_FILL"
  let keys := match o.cnpEntry s with
    | some e => [(cnpEnt s e).key]
    | none => []
  require (!cnpEarlier s op o keys) "CANOPY_FILL"
  let s := applyFill s o.glade (BitVec.ofNat 32 (o.args.getD 0 0)) (BitVec.ofNat 32 (o.args.getD 1 0)) (o.args.getD 2 0)
  .ok (completeOp s op)

/-- `scabort` (R306). -/
def execScabort (a : BitVec 8) (s : State) : Out :=
  issueUnit 4 true s fun s wid eid w f => do
    noControl w
    let g ← getOpnds s wid w f { s := [{ fd := a.toNat }] }
    let (_, s) ← addOp s { mkOp wid eid w f .abort (some cTQ) with args := [g.s.getD 0 0] }
    .ok s

/-- CANOPY_ABORT: an abort arrives; an INFLIGHT entry of the handle becomes INVALID for a glade with write rights (R306). -/
def execCanopyAbort (op : Nat) (s : State) : Out := runEvent s do
  let o ← need (s.op? op) "CANOPY_ABORT"
  require (o.kind == .abort && !o.done) "CANOPY_ABORT"
  let keys := match o.cnpEntry s with
    | some e => [(cnpEnt s e).key]
    | none => []
  require (!cnpEarlier s op o keys) "CANOPY_ABORT"
  let s := match o.cnpEntry s with
    | some e => if writeRights s o.glade (cnpEnt s e).ns then dropEnt s e else s
    | none => s
  .ok (completeOp s op)

/-! ## Sweeps, frames and status (R307 to R311) -/

/-- `scinval`: the sweep pins its tag on the issuing core until it has completed (R307, R308). -/
def execScinval (d a : BitVec 8) (s : State) : Out :=
  issueUnit 4 true s fun s wid eid w f => do
    noControl w
    let g ← getOpnds s wid w f { s := [{ fd := a.toNat, cnt := 2 }], sd := some (d.toNat, 2, true) }
    let v := g.s.getD 0 0
    let ns := v % 2 ^ 32
    trapIf (ns / 2 ^ 16 != 0 || !writeRights s w.glade ns) canopyBad
    let o : Op :=
      { mkOp wid eid w f .sweep (some cTQ) with args := [ns, v / 2 ^ 32], tag := some (s.coreSt w.core).view }
    let (_, s) ← addOp s o
    .ok ((requestAdvance s w.glade).updWave wid fun w => w.setSPair g.sd (cnpWitness s w))

/-- SWEEP_POINT: SWEEPS advances and LastSweep is recorded for each bit of the mask (R309). -/
def execSweepPoint (op : Nat) (s : State) : Out := runEvent s do
  let o ← need (s.op? op) "SWEEP_POINT"
  require (o.kind == .sweep && o.stage == 0 && !o.done) "SWEEP_POINT"
  let s := match nsFind s (o.args.getD 0 0) with
    | none => s
    | some n =>
      let s := nsBump s n 0x24
      let v := BitVec.ofNat 32 (nsWord s n 0x24)
      { s with lastSweep := (lanesOf (BitVec.ofNat 32 (o.args.getD 1 0))).foldl (fun t b => Tab.putD t (32 * n + b) v 0) s.lastSweep }
  .ok (s.updOp op fun o => { o with stage := 1 })

/-- SWEEP_WALK: every VALID entry of the namespace whose DEP meets the mask becomes INVALID, and the sweep completes; during
a windthrow it waits (R308, R309, R366). The walk is one action in every slice (notes/assumptions 147). -/
def execSweepWalk (op : Nat) (s : State) : Out := runEvent s do
  let o ← need (s.op? op) "SWEEP_WALK"
  require (o.kind == .sweep && o.stage == 1 && !o.done && s.wind.isNone) "SWEEP_WALK"
  let mask := BitVec.ofNat 32 (o.args.getD 1 0)
  let s := discardEnts s fun _ x => x.st == 2 && x.ns == o.args.getD 0 0 && (x.dep &&& mask) != 0
  .ok (completeOp s op)

/-- `scframe` (R310). -/
def execScframe (a : BitVec 8) (s : State) : Out :=
  issueUnit 4 true s fun s wid eid w f => do
    noControl w
    trapIf (decide (192 ≤ a.toNat)) illegalOp
    let g ← getOpnds s wid w f { s := [{ fd := a.toNat }] }
    let ns := g.s.getD 0 0
    trapIf (ns / 2 ^ 16 != 0 || !writeRights s w.glade ns) canopyBad
    let (_, s) ← addOp s { mkOp wid eid w f .frame (some cTQ) with args := [ns] }
    .ok s

/-- FRAME_ADVANCE: FRAME of the namespace rises by 1 (R310). -/
def execFrameAdvance (op : Nat) (s : State) : Out := runEvent s do
  let o ← need (s.op? op) "FRAME_ADVANCE"
  require (o.kind == .frame && !o.done) "FRAME_ADVANCE"
  let s := match nsFind s (o.args.headD 0) with
    | some n => nsBump s n 0x14
    | none => s
  .ok (completeOp s op)

/-- An item of `scstat` (R311). -/
def statItem (s : State) (g ns item : Nat) : Nat :=
  let n := (nsFind s ns).getD 0
  if item == 0 then nsFrame s n else if item == 1 then nsWord s n 0x18 else if item == 2 then nsWord s n 0x1C
  else if item == 3 then nsWord s n 0x20 else if item == 4 then cnpUsed s g else cnpQuota s g

/-- `scstat`: the item is read at issue, and the fragment is held until d is written (R311, notes/assumptions 51). -/
def execScstat (d a : BitVec 8) (s : State) : Out :=
  issueUnit 4 true s fun s wid eid w f => match f.held with
    | some h => do
      fullS s w [d.toNat]
      .ok (s.setWave wid (w.setS d.toNat (BitVec.ofNat 32 h.a)))
    | none => do
      noControl w
      let g ← getOpnds s wid w f { s := [{ fd := a.toNat }], sd := some (d.toNat, 1, false) }
      let sel := g.s.getD 0 0
      let ns := bitsOf sel 15 0
      let item := bitsOf sel 19 16
      trapIf (sel / 2 ^ 20 != 0 || decide (5 < item) || (decide (item ≤ 3) && !permitted s w.glade ns)) canopyBad
      let h := heldOr s f .none 11 (statItem s w.glade ns item) 0
      .error (.hold .canopyWait (s.updFrag wid eid fun f => { f with held := some h }))

/-! ## Timers and notify words (R300, R312) -/

/-- CANOPY_TIMER_EXPIRY: an INFLIGHT entry's TIMER has expired (R312). -/
def execCanopyTimerExpiry (entry : Nat) (s : State) : Out := runEvent s do
  let x := cnpEnt s entry
  require (x.st == 1 && x.timer ≤ s.now) "CANOPY_TIMER_EXPIRY"
  .ok (dropCounted s entry 0x1C)

/-- NOTIFY_WORD_ADVANCE: addition `n` of a glade lands at its home slice, or is dropped where its word does not translate to
a writable page (R300). -/
def execNotifyWordAdvance (g n : Nat) (s : State) : Out := runEvent s do
  let o ← need (s.op? n) "NOTIFY_WORD_ADVANCE"
  require (o.kind == .notify && o.glade == g) "NOTIFY_WORD_ADVANCE"
  let s : State := { s with ops := Tab.del s.ops n }
  .ok (match writableHome s g o.ctx (o.args.headD 0) with
    | some h => if ctxState s g o.ctx == 1 then { s with mem := setMem s.mem h 4 (getMem s.mem h 4 + 1) } else s
    | none => s)

end Sys2Proof.Machine
end

