-- ==== Sys2Proof/Machine/Control.lean ====
section
/-! DEFINITION. Index, format and mask registers, branches and calls, ending, yielding, sleeping, and the user handler
(R141 to R155). -/

namespace Sys2Proof.Machine

open Sys2Proof

/-- Target of a BR or J offset (R109). -/
def target (pc : DWord) {n : Nat} (o : BitVec n) : DWord := pc + (o.signExtend 64 <<< 1)

/-- A value `sfmt` accepts (R75, R142). -/
def fmtOk (v : Word) : Bool := fld v 31 16 == 0 && fld v 3 3 == 0 && fld v 13 12 != 3

/-- A unit that reads one scalar and changes the issuing fragment. -/
def fragUnit (a : BitVec 8) (s : State) (control : Bool) (k : Frag → Word → Eff Frag) : Out :=
  issueUnit 4 true s fun s wid eid w f => do
    trapIf (w.control && !control) illegalOp
    let g ← getOpnds s wid w f { s := [{ fd := a.toNat }] }
    let f' ← k f (BitVec.ofNat 32 (g.s.getD 0 0))
    .ok (s.setFrag wid eid f')

/-- A unit that writes a value of the fragment or wave to a scalar register. -/
def readUnit (d : BitVec 8) (s : State) (control : Bool) (k : State → Nat → Wave → Frag → Word) : Out :=
  issueUnit 4 true s fun s wid _ w f => do
    trapIf (w.control && !control) illegalOp
    let g ← getOpnds s wid w f { sd := some (d.toNat, 1, false) }
    .ok (s.setWave wid (w.setS g.sd (k s wid w f)))

/-- `sxset` (R141). A field d above 1 traps ILLEGAL_OP (R116). -/
def execSxset (n : BitVec 1) (a : BitVec 8) (s : State) : Out :=
  fragUnit a s false fun f v =>
    .ok (if n == 0 then { f with x0 := v.extractLsb' 0 8 } else { f with x1 := v.extractLsb' 0 8 })

/-- `sxadd` (R141). -/
def execSxadd (n : BitVec 1) (a : BitVec 8) (s : State) : Out :=
  fragUnit a s false fun f v =>
    .ok (if n == 0 then { f with x0 := f.x0 + v.extractLsb' 0 8 } else { f with x1 := f.x1 + v.extractLsb' 0 8 })

/-- `sfmt` (R142). -/
def execSfmt (a : BitVec 8) (s : State) : Out :=
  fragUnit a s true fun f v => if fmtOk v then .ok { f with fmt := v } else trap fmtIllegal

/-- `sfmtr` (R142). -/
def execSfmtr (d : BitVec 8) (s : State) : Out := readUnit d s true fun _ _ _ f => f.fmt

/-- `sflags` reads and clears (R143). -/
def execSflags (d : BitVec 8) (s : State) : Out :=
  issueUnit 4 true s fun s wid _ w f => do
    let g ← getOpnds s wid w f { sd := some (d.toNat, 1, false) }
    .ok (s.setWave wid { w.setS g.sd w.fflags with fflags := 0 })

/-- `smrd` (R144). -/
def execSmrd (d : BitVec 8) (s : State) : Out := readUnit d s false fun _ _ _ f => f.emask

/-- `smwr` (R144, R58). -/
def execSmwr (a : BitVec 8) (s : State) : Out := fragUnit a s false fun f v => .ok { f with emask := v &&& f.memb }

/-- A unit that leaves the fragment's PC at an address. -/
def jumpUnit (s : State) (k : State → Nat → Nat → Wave → Frag → Eff (DWord × State)) : Out :=
  issueUnit 4 false s fun s wid eid w f => do
    let (pc, s) ← k s wid eid w f
    let s := s.updFrag wid eid fun f => { f with pc := pc }
    .ok (if pc == f.pc + 4 then s else s.updWave wid fun w => w.hashJump f.pc pc f.memb)

/-- `jmp` (R146). -/
def execJmp (o : BitVec 24) (s : State) : Out := jumpUnit s fun s _ _ _ f => .ok (target f.pc o, s)

/-- `call` links into s190:191 (R146). -/
def execCall (o : BitVec 24) (s : State) : Out :=
  jumpUnit s fun s wid _ w f => do
    fullS s w [190, 191]
    .ok (target f.pc o, s.setWave wid (w.setSPair 190 (f.pc + 4)))

/-- `rjset` (R147). -/
def execRjset (o : BitVec 24) (s : State) : Out :=
  issueUnit 4 true s fun s wid eid _ f => .ok (s.setFrag wid eid { f with pending := some (target f.pc o) })

/-- A scalar-conditional branch. -/
def condBranch (x : BitVec 8) (o : BitVec 16) (s : State) (control : Bool) (k : Frag → Word → Bool) : Out :=
  jumpUnit s fun s wid _ w f => do
    trapIf (w.control && !control) illegalOp
    let g ← getOpnds s wid w f { s := [{ fd := x.toNat }] }
    .ok (if k f (BitVec.ofNat 32 (g.s.getD 0 0)) then target f.pc o else f.pc + 4, s)

/-- `bz` (R146). -/
def execBz (x : BitVec 8) (o : BitVec 16) (s : State) : Out := condBranch x o s true fun _ v => v == 0

/-- `bnz` (R146). -/
def execBnz (x : BitVec 8) (o : BitVec 16) (s : State) : Out := condBranch x o s true fun _ v => v != 0

/-- `vbrall` (R149). -/
def execVbrall (x : BitVec 8) (o : BitVec 16) (s : State) : Out :=
  condBranch x o s false fun f v => (f.active &&& ~~~v) == 0

/-- `vbrany` (R149). -/
def execVbrany (x : BitVec 8) (o : BitVec 16) (s : State) : Out :=
  condBranch x o s false fun f v => (f.active &&& v) != 0

/-- `vbr` divides the fragment by membership (R148). -/
def execVbr (x : BitVec 8) (o : BitVec 16) (s : State) : Out :=
  issueUnit 4 false s fun s wid eid w f => do
    noControl w
    let g ← getOpnds s wid w f { s := [{ fd := x.toNat }] }
    let m := BitVec.ofNat 32 (g.s.getD 0 0)
    let t := f.memb &&& m
    let n := f.memb &&& ~~~m
    let tgt := target f.pc o
    let w' := if tgt == f.pc + 4 then w else w.hashJump f.pc tgt t
    if t == 0 then .ok (s.setFrag wid eid { f with pc := f.pc + 4 })
    else if n == 0 then .ok (s.setWave wid (w'.setFrag eid { f with pc := tgt }))
    else .ok (s.setWave wid (splitWave (freeEntries s w) w' eid f t n tgt (f.pc + 4)))

/-- A jump to the address in a pair (R146). -/
def jumpPair (a : BitVec 8) (s : State) : Out :=
  jumpUnit s fun s wid _ w f => do
    let g ← getOpnds s wid w f { s := [{ fd := a.toNat, cnt := 2, pair := true }] }
    let t := BitVec.ofNat 64 (g.s.getD 0 0)
    trapIf (t.getLsbD 0) misalign
    .ok (t, s)

/-- `jr` (R146). -/
def execJr (a : BitVec 8) (s : State) : Out := jumpPair a s

/-- `ret`: as `jr` (R146). -/
def execRet (a : BitVec 8) (s : State) : Out := jumpPair a s

/-- `nop` (R151). -/
def execNop (s : State) : Out := issueUnit 4 true s fun s _ _ _ _ => .ok s

/-- A running block whose waves have all ended is FINISHING (R49). -/
def noteFinished (s : State) (blk : Nat) : State :=
  if (s.blkD blk).waves.all fun k => (s.waveD k).over then
    s.updBlk blk fun b => { b with st := if b.st == .running then .finishing else b.st }
  else s

/-- The fragment, its lanes ended. -/
def exitLanes (s : State) (wid eid : Nat) (w : Wave) (f : Frag) : State :=
  let w := endLanes w eid f
  if w.control then s.setWave wid { w with ended := 0xFFFFFFFF#32 } else noteFinished (s.setWave wid w) w.blk

/-- `exit` ends every lane of the membership (R150). -/
def execExit (s : State) : Out := issueUnit 4 false s fun s wid eid w f => .ok (exitLanes s wid eid w f)

/-- `yield`: for the next 8 opportunities the fragment issues only where no other is ready (R151). -/
def execYield (s : State) : Out :=
  issueUnit 4 true s fun s wid eid _ f => .ok (s.setFrag wid eid { f with yieldLeft := 8 })

/-- `sleep` (R151). -/
def execSleep (a : BitVec 8) (s : State) : Out :=
  issueUnit 4 true s fun s wid eid w f => do
    let g ← getOpnds s wid w f { s := [{ fd := a.toNat }] }
    let n := min (g.s.getD 0 0) 0xFFFFF
    .ok (if n == 0 then s else s.setFrag wid eid { f with sleepEnd := some (coreClk s (w.coreNo wid) + n) })

/-- SLEEP_END: the count of a sleeping fragment has run out (R151). -/
def execSleepEnd (wid eid : Nat) (s : State) : Out := runEvent s do
  let w ← need (s.wave? wid) "SLEEP_END"
  let f ← need (w.frag? eid) "SLEEP_END"
  let t ← need f.sleepEnd "SLEEP_END"
  require (t ≤ coreClk s (w.coreNo wid)) "SLEEP_END"
  .ok (s.setFrag wid eid { f with sleepEnd := none })

/-- `trap`: USER_TRAP after completion, with a as argument (R153). -/
def execTrap (a : BitVec 8) (s : State) : Out :=
  issueUnit 4 false s fun s wid eid w f => do
    let g ← getOpnds s wid w f { s := [{ fd := a.toNat }] }
    let arg := BitVec.ofNat 32 (g.s.getD 0 0)
    if w.control || saveRefuses w then .error (.trap userTrap arg 0)
    else .ok (deliverUser s wid eid userTrap arg f.pc (f.pc + 4))

/-- `rett` ends a user handler (R155). -/
def execRett (s : State) : Out :=
  issueUnit 4 false s fun s wid eid w f => do
    trapIf (!f.trap.inHandler) illegalOp
    .ok (s.setWave wid ((w.setFrag eid (leaveHandler f)).hashJump f.pc f.trap.rpc f.memb))

end Sys2Proof.Machine
end

