-- ==== Sys2Proof/Machine/Save.lean ====
section
/-! DEFINITION. Setting a wave's fragments aside for a delivery and returning them (R384, R387, R414), the image of a
vacated block and its restoration (R190, R291, R385 to R389). -/

namespace Sys2Proof.Machine

open Sys2Proof

/-! ## Deliveries -/

/-- The fragment of a per-context handler: every lane that has not ended (R384, R414). -/
def handlerFrag (w : Wave) (pc : DWord) : Frag := { memb := ~~~w.ended, emask := ~~~w.ended, pc := pc }

/-- PREEMPT of a wave: its fragments, scalars, v0 and v1 are set aside; v0 receives 4L and v1 0 (R384, R387). -/
def Wave.deliverPreempt (w : Wave) (pc harea : DWord) (restore : Bool) : Wave :=
  let v0 := (List.range 32).foldl (fun w l => (w.setV 0 l (BitVec.ofNat 32 (4 * l))).setV 1 l 0) w
  let it : Intr := { cause := 0x18, restore := restore, ents := w.ents, sregs := w.sregs, v01 := w.vregs.filter fun e => e.1 < 64,
                     sEmpty := w.sEmpty, vEmpty := w.vEmpty, replay := w.replay, harea := harea }
  { v0 with ents := [(0, .frag (handlerFrag w pc))], vEmpty := [], replay := [], intr := some it }

/-- The wave as its delivery found it, with the hidden-register edits: a PREEMPT delivery reloads its registers. -/
def Wave.interrupted (w : Wave) : Wave := match w.intr with
  | none => w
  | some it =>
    if it.cause == 0x18 then
      { w with ents := it.ents, sregs := it.sregs, vregs := it.v01 ++ w.vregs.filter fun e => 64 ≤ e.1,
               sEmpty := it.sEmpty, vEmpty := it.vEmpty, replay := it.replay, intr := none }
    else { w with ents := it.ents, intr := none }

/-! ## Descriptors (R42, R317) -/

def Cmd.prio (k : Cmd) : Nat := k.b 0 27 26
def Cmd.ctx (k : Cmd) : Nat := if k.isPass then k.b 0 5 0 else k.b 0x3C 5 0

/-! ## Images -/

/-- What names a block, on which the unstated sizes of its image's sections depend. -/
def imageShape (s : State) (b : Block) : List Nat := [(s.cmdD b.cmd).glade, (s.cmdD b.cmd).seq, b.stage, b.lin]

/-- The glade and context of a block. -/
def blkCtx (s : State) (b : Block) : Nat × Nat := ((s.cmdD b.cmd).glade, (s.cmdD b.cmd).ctx)

/-- HAREA in bytes, SLOTSZ in bytes, SAVESLOTS and SAVEBASE of a context (R381). -/
def hareaBytes (s : State) (g c : Nat) : Nat := 1024 * regFld s (.gld g) (ctxOff c + 0x18) 31 24
def slotBytes (s : State) (g c : Nat) : Nat := 65536 * regFld s (.gld g) (ctxOff c + 0x18) 23 16
def saveSlots (s : State) (g c : Nat) : Nat := regFld s (.gld g) (ctxOff c + 0x18) 15 0
def saveBase (s : State) (g c : Nat) : Nat := reg64 s (.gld g) (ctxOff c + 0x10)

/-- Pattern tables of a block's parts that hold its context (R190): those of its cores, or of its image. -/
def imageTables (s : State) (b : Block) : List (Nat × Nat × Pattern) :=
  let own := blkCtx s b
  if b.cores.isEmpty then (b.image.getD {}).tables
  else (b.cores.zipIdx).flatMap fun (c, p) =>
    (s.coreSt c).tables.filterMap fun (n, t) => if t.owner == some own then some (p, n, t) else none

/-- The waves of a block, resident or in its image. -/
def blkWaves (s : State) (b : Block) : List Wave :=
  b.waves.map fun k => (s.wave? k).getD (Tab.valD (b.image.getD {}).waves k {})

/-- Parts of a block (R318). -/
def partCount (s : State) (b : Block) : Nat := if b.stage == 0 then (s.cmdD b.cmd).b 0 19 16 else 1

/-- ITEM of a section: wave, part, index (R389). -/
def item (wave part index : Nat) : Nat := wave + 2 ^ 8 * part + 2 ^ 11 * index

/-- A section of an image: TAG, ITEM, payload bytes. -/
structure Section where
  tag : Nat
  item : Nat
  len : Nat

/-- The device sections of a block's image, in the order of R389; their payloads' sizes are the device's
(notes/assumptions 17). -/
def deviceSections (s : State) (b : Block) : List Section :=
  let ws := blkWaves s b
  let parts := List.range (partCount s b)
  let per := fun (tag : Nat) => ws.map fun w => (tag, item w.widx 0 0)
  let l : List (Nat × Nat) := [(1, 0)] ++ per 2 ++ per 3 ++ per 4 ++
    (ws.flatMap fun w => (List.range w.nacc).map fun h => (5, item w.widx 0 h)) ++
    ((b.slots.filter fun (_, x) => x.st != 0 && x.st != 4).map fun (k, _) => (6, item 0 (k / 16) (k % 16))) ++
    (parts.map fun p => (7, item 0 p 0)) ++ ((imageTables s b).map fun (p, n, _) => (8, item 0 p n)) ++ per 9 ++
    (if b.stage == 3 then [(0xA, 0)] else []) ++ [(0xB, 0)]
  (l.mergeSort fun x y => x.1 < y.1 || (x.1 == y.1 && x.2 ≤ y.2)).map fun (t, i) =>
    { tag := t, item := i, len := Config.sectionSize (imageShape s b) t i }

/-- The handler sections: one for each wave (R389). -/
def handlerSections (s : State) (b : Block) : List Section :=
  let (g, c) := blkCtx s b
  (List.range b.waves.length).map fun i => { tag := 0x100, item := i, len := hareaBytes s g c }

/-- Bytes of sections with their headers, each payload padded to 16 bytes. -/
def Section.bytes (x : Section) : Nat := 16 + (x.len + 15) / 16 * 16
def sectionBytes (l : List Section) : Nat := (l.map Section.bytes).foldl (· + ·) 0

/-- Offset of the first handler section. -/
def areaOff (s : State) (b : Block) : Nat := 64 + sectionBytes (deviceSections s b)

/-- The size of a block's image: header, device sections, and with a handler the handler areas (R389). -/
def imageBytes (s : State) (b : Block) : Nat :=
  let (g, c) := blkCtx s b
  areaOff s b + (if ctxHandler s g c == 0 then 0 else sectionBytes (handlerSections s b))

/-- Address of a save slot. -/
def slotVa (s : State) (g c n : Nat) : Nat := saveBase s g c + n * slotBytes s g c

/-- Address of the handler area of a wave in the image of a delivery (R384, R389). -/
def hareaVa (s : State) (b : Block) (area widx : Nat) : Nat :=
  let (g, c) := blkCtx s b
  slotVa s g c (b.slotNo.getD 0) + area + widx * (16 + (hareaBytes s g c + 15) / 16 * 16) + 16

/-- Writes bytes to a context's memory where its pages grant it. -/
def writeBytes (s : State) (g c va : Nat) : List Byte → State
  | [] => s
  | b :: t => match writableHome s g c va with
    | some h => writeBytes { s with mem := setByte s.mem h b } g c (va + 1) t
    | none => writeBytes s g c (va + 1) t

/-- `n` free bytes. -/
def State.freeBytes (s : State) (n : Nat) : List Byte × State :=
  ((List.range n).map fun i => Config.freeByte (s.freeCount + i), { s with freeCount := s.freeCount + n })

/-- The image header (R389). -/
def imageHeader (s : State) (b : Block) (kind cause : Nat) (fallback handler : Bool) (len nsect : Word) : List Byte :=
  let (g, c) := blkCtx s b
  let k := s.cmdD b.cmd
  let flags := (if fallback then 2 ^ 25 else 0) + (if handler then 2 ^ 24 else 0) + kind * 2 ^ 16 + 1
  let time := timebase s (dieOf (b.cores.headD 256))
  let ws : List Word := [0x53365841#32, BitVec.ofNat 32 flags, len, nsect, BitVec.ofNat 32 (c * 256 + g), BitVec.ofNat 32 k.seq,
    BitVec.ofNat 32 b.lin, BitVec.ofNat 32 ((b.waves.length - 1) * 256 + partCount s b), k.ccpc.extractLsb' 0 32,
    k.ccpc.extractLsb' 32 32, time.extractLsb' 0 32, time.extractLsb' 32 32, BitVec.ofNat 32 cause, 0, 0, 0]
  toBytes 64 (ofWords ws)

/-- The header of a section. -/
def Section.header (x : Section) : List Byte :=
  toBytes 16 (x.tag + 2 ^ 16 + 2 ^ 32 * x.len + 2 ^ 64 * x.item)

/-- Writes sections one after the other. A payload that R389 does not lay out is free bytes (notes/assumptions 17); a handler
area stays as the handler wrote it; a fault record is given. -/
def writeSections (s : State) (g c va : Nat) (record : List Word) : List Section → State
  | [] => s
  | x :: t =>
    let s := writeBytes s g c va x.header
    let s :=
      if x.tag == 0x100 then s
      else if x.tag == 0x200 then writeBytes s g c (va + 16) (toBytes 64 (ofWords record))
      else
        let (bs, s) := s.freeBytes x.len
        writeBytes s g c (va + 16) bs
    writeSections s g c (va + x.bytes) record t

/-- Writes an image to a slot: header, then sections in ascending TAG (R389). A dump adds the fault record there is. -/
def writeImage (s : State) (b : Block) (slot kind cause : Nat) (fallback handler : Bool) (record : List Word) : State :=
  let (g, c) := blkCtx s b
  let l := deviceSections s b ++ (if handler then handlerSections s b else []) ++
    (if record.isEmpty then [] else [({ tag := 0x200, item := 0, len := 64 } : Section)])
  let va := slotVa s g c slot
  let s := writeBytes s g c va
    (imageHeader s b kind cause fallback handler (BitVec.ofNat 32 (64 + sectionBytes l)) (BitVec.ofNat 32 l.length))
  writeSections s g c (va + 64) record l

/-- A saved block: its waves go into the image, RELEASING slots become FREE, and its cores are released (R291, R385). -/
def saveBlock (s : State) (bid : Nat) : State :=
  let b := s.blkD bid
  let fell : Bool := match b.image with
    | some im => im.fallback
    | none => true
  let ws : Tab Wave := b.waves.map fun k => (k, (s.waveD k).interrupted)
  let s := match b.slotNo with
    | some n => writeImage s b n 1 0 fell (!fell) []
    | none => s
  let im : Image := { fallback := fell, handler := !fell, area := (b.image.getD {}).area, waves := ws.mergeSort (fun x y => x.1 ≤ y.1), tables := imageTables s b }
  let s := b.waves.foldl (fun s k => { s with waves := Tab.del s.waves k }) s
  let (g, c) := blkCtx s b
  let s := (s.noteStall g c).noteLeave g c
  s.updBlk bid fun b => { b with st := .saved, image := some im, cores := [], budgetAt := none, since := s.now,
                                 slots := b.slots.filter fun (_, x) => x.st != 4 }

/-- Registers from v2 on and the scalars of a wave whose handler is to reload them (R387): free values. -/
def Wave.freed (w : Wave) (seed : Nat) : Wave :=
  let vs : Tab Word := (List.range (32 * (w.nvreg - 2))).map fun i => (64 + i, Config.freeWord (seed + 64 + i))
  let ss : Tab Word := (List.range 192).map fun i => (i, Config.freeWord (seed + 8192 + i))
  { w with vregs := (w.vregs.filter fun e => e.1 < 64) ++ vs, sregs := ss }

/-- Units that a save withdrew or left held re-execute with a fresh timeout (R269). -/
def Wave.freshTimeouts (w : Wave) (now : Nat) : Wave :=
  w.mapAllFrags fun f => { f with held := f.held.map fun h => { h with limit := h.limit.map fun _ => now + 1000 * h.tcount } }

/-- A restored wave on its core and quadrant: with handler sections it receives PREEMPT with RESTORE (R387). -/
def restoreWave (s : State) (b : Block) (area : Nat) (handler : Bool) (wid core quad : Nat) (w : Wave) : State :=
  let w := { w.freshTimeouts s.now with core := core, quad := quad, born := s.nextId }
  let s := { s with nextId := s.nextId + 1 }
  if handler && !w.over then
    let pc := BitVec.ofNat 64 (ctxHandler s w.glade w.ctx)
    let w' := (w.freed s.freeCount).deliverPreempt pc (BitVec.ofNat 64 (hareaVa s b area w.widx)) true
    let w' := { w' with intr := w'.intr.map fun it => { it with sregs := w.sregs } }
    { s.setWave wid w' with freeCount := s.freeCount + 16384 }
  else s.setWave wid w

/-- Re-applies a replay entry: it is outstanding again, on the wave's new core, and holds the block until it is done. A pop or
push is a new request, on its way to the header's slice (R388). -/
def replayOp (s : State) (bid : Nat) (o : Op) : State :=
  let (id, s) := s.fresh
  let stage := if o.kind == .tqpop || o.kind == .tqpush then 0 else o.stage
  { s with ops := Tab.put s.ops id { o with core := (s.waveD o.wid).core, wait := some bid, cancel := false, issued := s.now,
                                            stage := stage } }

/-- Restores a saved block whose waves go to the given cores and quadrants (R387): tables, waves, then replay entries. One whose
waves have all ended has no handler to run. -/
def restoreBlock (s : State) (bid : Nat) (cores : List Nat) (place : List (Nat × Nat × Nat)) : State :=
  let b := s.blkD bid
  let im := b.image.getD {}
  let runs := im.handler && !(Tab.vals im.waves).all Wave.over
  let s := im.tables.foldl (fun s (p, n, t) => s.updCore (cores.getD p 0) fun x => { x with tables := Tab.put x.tables n t }) s
  let s := s.updBlk bid fun b => { b with cores := cores, st := if runs then .restoring else .running, entries := [], away := false,
                                          image := if runs then some im else none, slotNo := if runs then b.slotNo else none }
  let b' := s.blkD bid
  let s := place.foldl (fun s (wid, core, quad) => match Tab.val? im.waves wid with
    | some w => restoreWave s b' im.area runs wid core quad w
    | none => s) s
  let s := s.updBlk bid fun b => { b with image := b.image.map fun im => { im with waves := [] } }
  let s := if runs then s else noteFinished s bid
  b.entries.foldl (fun s o => replayOp s bid o) s

end Sys2Proof.Machine
end

