-- ==== Sys2Proof/Machine/Launch.lean ====
section
/-! DEFINITION. `launch` and the life of a command (R41 to R53, R159 to R161, R232): descriptors and their checks,
residency and placement, the initial state of waves, the end of a block and of a command. -/

namespace Sys2Proof.Machine

open Sys2Proof

/-! ## Descriptors (R42, R317, R318) -/

/-- Blocks of a grid. -/
def Cmd.blocks (k : Cmd) : Nat := k.b 0x10 15 0 * k.b 0x10 31 16 * k.b 0x14 15 0
def Cmd.coop (k : Cmd) : Bool := !k.isPass && k.b 0 25 25 == 1
def Cmd.idemp (k : Cmd) : Bool := !k.isPass && k.b 0 24 24 == 1
def Cmd.ndep (k : Cmd) : Nat := if k.isPass then k.b 0 9 8 else k.b 0 22 20
/-- The entry dependences that are not null. -/
def Cmd.deps (k : Cmd) : List DWord :=
  ((List.range k.ndep).map fun i => BitVec.ofNat 64 (k.d ((if k.isPass then 0x30 else 0x48) + 8 * i))).filter (· != 0)

/-- What the placement of a block depends on. -/
structure Shape where
  waves : Nat := 1
  parts : Nat := 1
  nvreg : Nat := 8
  nacc : Nat := 0
  rsv : Nat := 0
  scratch : Nat := 0
  entry : DWord := 0
  handler : DWord := 0
  fmt : Word := 0

/-- Base of a stage record: 1 task, 2 mesh, 3 resolve. -/
def stageOff (stage : Nat) : Nat := 0x20 + 0x20 * stage

/-- The shape of a grid's blocks, or of the groups of a stage; a resolve group's scratch holds two tile slots (R320). -/
def Cmd.shape (k : Cmd) (stage : Nat) : Shape :=
  if stage == 0 then
    { waves := k.b 0 15 8, parts := k.b 0 19 16, nvreg := 8 * k.b 4 31 26, nacc := k.b 4 25 21, rsv := k.b 4 20 17,
      scratch := k.b 8 20 0, entry := BitVec.ofNat 64 (k.d 0x18), handler := BitVec.ofNat 64 (k.d 0x20),
      fmt := BitVec.ofNat 32 (k.w 0x0C) }
  else
    let o := stageOff stage
    let scr := k.b (o + 0x0C) 20 0
    { waves := k.b (o + 8) 16 9, nvreg := 8 * k.b (o + 8) 31 26, nacc := k.b (o + 8) 25 21, rsv := k.b (o + 8) 20 17,
      scratch := if stage == 3 then k.slotOff 2 else scr,
      entry := BitVec.ofNat 64 (k.d o), handler := BitVec.ofNat 64 (k.d (o + 0x10)), fmt := BitVec.ofNat 32 (k.w (o + 0x1C)) }

/-- Waves of a part (R40). -/
def Shape.partWaves (x : Shape) (p : Nat) : Nat := x.waves / x.parts + (if p < x.waves % x.parts then 1 else 0)
/-- The first wave number of a part. -/
def Shape.firstWave (x : Shape) (p : Nat) : Nat := ((List.range p).map x.partWaves).foldl (· + ·) 0
/-- A part's scratchpad allotment (R50). -/
def Shape.allot (x : Shape) : Nat := roundUp x.scratch 65536

/-! ## Submission (R159 to R162) -/

/-- Commands of a glade that hold a place in its launch queue. -/
def queueLength (s : State) (g : Nat) : Nat := ((Tab.vals s.cmds).filter fun k => k.glade == g).length

/-- A command of a control core: held while the queue is full; it then takes its sequence number and its destination
becomes empty (R159 to R162). -/
def submit (isPass : Bool) (d a : BitVec 8) (s : State) : Out :=
  issueUnit 4 true s fun s wid _ w f => do
    trapIf (!w.control) illegalOp
    let n := if isPass then 2 else 1
    let g ← getOpnds s wid w f { s := [{ fd := a.toNat, cnt := 2, pair := true }], sd := some (d.toNat, n, isPass) }
    if 64 ≤ queueLength s w.glade then .error (.hold .other s)
    else
      let seq := if w.ccSeq == 0xFFFFFFFF then 1 else w.ccSeq + 1
      let (id, s) := s.fresh
      let k : Cmd := { isPass := isPass, glade := w.glade, seq := seq, ccpc := f.pc, addr := BitVec.ofNat 64 (g.s.getD 0 0), dst := d.toNat }
      let s := s.setWave wid ({ w with ccSeq := seq }.markEmptyS (range d.toNat n))
      .ok { s with cmds := Tab.put s.cmds id k }

/-- `launch` (R161). -/
def execLaunch (d a : BitVec 8) (s : State) : Out := submit false d a s

/-- `pass` (R162). -/
def execPass (d a : BitVec 8) (s : State) : Out := submit true d a s

/-- A command's destination receives its value. -/
def deliverCmd (s : State) (k : Cmd) (vs : List Word) : State :=
  s.updWave k.glade fun w => if w.over then w else (w.setSs k.dst vs).markFullS (range k.dst vs.length)

/-! ## Reading descriptors and team tables (R161, R439) -/

/-- A read by the command processor: its number, or a page missing at an address, or no way to read it. -/
inductive Fetched (α : Type) where
  | ok (x : α)
  | miss (va : Nat)
  | bad

/-- The first address of a range that its context does not map. -/
def missing (s : State) (g c va n : Nat) : Option Nat :=
  ((List.range ((va % 65536 + n + 65535) / 65536)).map fun i => max va ((va / 65536 + i) * 65536)).find? fun a =>
    (walkPage s g c a).isNone

/-- Reads `n` bytes of a context as a control core's system-scope load does; in a context that is not open nothing translates
(R439). -/
def fetchCtx (s : State) (g c va n : Nat) : Fetched Nat :=
  if 2 ^ 52 < va + n || ctxState s g c != 1 then .bad
  else match missing s g c va n with
    | some a => .miss a
    | none => .ok (ofBytes ((List.range n).map fun i => match readableHome s g c (va + i) with
        | some h => BitVec.ofNat 8 (homeUnderDirty s (256 + g) g c (va + i) h 1)
        | none => 0))

/-- The member list of one team: linear blocks and wave numbers; a COUNT above 6,144 is TEAM_BAD (R44, notes/assumptions 145). -/
def fetchTeam (s : State) (g : Nat) (entry : Nat) : Fetched (List (Nat × Nat)) :=
  let list := entry % 2 ^ 64
  let count := bitsOf entry 95 64
  if entry / 2 ^ 96 != 0 || count == 0 || 6144 < count || list % 4 != 0 || 2 ^ 52 ≤ list then .bad
  else match fetchCtx s g 0 list (4 * count) with
    | .ok x => .ok ((wordsOf count x).map fun r => (fld r 31 8, fld r 7 0))
    | .miss a => .miss a
    | .bad => .bad

/-- The team table (R44). -/
def fetchTeams (s : State) (g va : Nat) : Nat → Fetched (List (List (Nat × Nat)))
  | 0 => .ok []
  | n + 1 => match fetchCtx s g 0 va 16 with
    | .miss a => .miss a
    | .bad => .bad
    | .ok e => match fetchTeam s g e with
      | .miss a => .miss a
      | .bad => .bad
      | .ok t => match fetchTeams s g (va + 16) n with
        | .ok ts => .ok (t :: ts)
        | r => r

/-- A list names nothing twice. -/
def noRepeat : List (Nat × Nat) → Bool
  | [] => true
  | x :: t => !t.contains x && noRepeat t

/-- The member rules of R44. -/
def teamsOk (k : Cmd) (ts : List (List (Nat × Nat))) : Bool :=
  ts.all fun t => noRepeat t && t.all fun m =>
    m.1 < k.blocks && m.2 < (k.shape 0).waves && (ts.filter fun u => u.contains m).length ≤ 4

/-! ## Checks (R43) -/

/-- An address field is usable at an alignment. -/
def addrOk (a align : Nat) : Bool := a % align == 0 && a < 2 ^ 52

/-- The bits of a word outside a mask of its fields are zero. -/
def reservedZero (x : Nat) (fields : List (Nat × Nat)) : Bool :=
  fields.foldl (fun x (hi, lo) => setBits x hi lo 0) x == 0

/-- The descriptor of a grid holds what R43 asks for. -/
def gridOk (s : State) (k : Cmd) : Bool :=
  k.b 0 31 28 == 1 && reservedZero (k.w 0) [(31, 24), (22, 8)] && k.b 0 22 20 ≤ 4 &&
  1 ≤ k.b 0 19 16 && k.b 0 19 16 ≤ 8 && 1 ≤ k.b 0 15 8 && k.b 0 15 8 ≤ 192 && k.b 0 19 16 ≤ k.b 0 15 8 &&
  1 ≤ k.b 4 31 26 && k.b 4 31 26 ≤ 32 && k.b 4 25 21 ≤ 16 && k.b 4 16 0 == 0 &&
  k.b 8 31 21 == 0 && k.b 8 20 0 ≤ 1310720 && fmtOk (BitVec.ofNat 32 (k.w 0x0C)) &&
  1 ≤ k.b 0x10 15 0 && 1 ≤ k.b 0x10 31 16 && 1 ≤ k.b 0x14 15 0 && k.b 0x14 31 16 == 0 && k.blocks ≤ 16777216 &&
  addrOk (k.d 0x18) 2 && addrOk (k.d 0x20) 2 && addrOk (k.d 0x28) 1 &&
  k.b 0x38 31 9 == 0 && k.b 0x38 8 0 ≤ 256 && (k.b 0x38 8 0 == 0 || addrOk (k.d 0x30) 8) &&
  k.b 0x3C 31 6 == 0 && addrOk (k.d 0x40) 8 && (range 0x68 6).all (fun i => k.w (0x68 + 4 * (i - 0x68)) == 0) &&
  ctxState s k.glade k.ctx == 1

/-! ## Residency and placement (R50 to R53) -/

/-- Free resources of a core, per quadrant where so counted. -/
structure CoreRes where
  core : Nat
  slots : List Nat
  regs : List Nat
  tiles : List Nat
  scr : Nat
  split : Nat
  gran : Nat
  nslots : Nat
  /-- No wave is resident: the first part sets the scratchpad to its own allotment or this target (R51). -/
  target : Option Nat := none

/-- An empty core set to the largest scratchpad. -/
def emptyRes (c : Nat) : CoreRes :=
  { core := c, slots := [128, 128, 128, 128], regs := [6144, 6144, 6144, 6144], tiles := [32, 32, 32, 32],
    scr := 1310720, split := 2048, gran := 768, nslots := 96 }

/-- Waves that stand on a core. -/
def coreWaves (s : State) (c : Nat) : List Wave := (Tab.vals s.waves).filter fun w => !w.control && w.core == c

/-- Scratch of the parts on a core. -/
def scrAllotted (s : State) (c : Nat) : Nat :=
  (Tab.vals s.blocks).foldl (fun n b => n + b.scrSize * (b.cores.filter (· == c)).length) 0

/-- The scratch target of a glade's cores, in bytes (R51, R380). -/
def scrTarget (s : State) (g : Nat) : Nat := 65536 * regFld s (.gld g) 0x030 4 0

/-- The size a core's scratchpad takes with its first part (R51). -/
def scrFor (allot target : Nat) : Nat := min 1310720 (max allot target)

/-- The free resources of a core of a glade. -/
def coreRes (s : State) (g c : Nat) : CoreRes :=
  let ws := coreWaves s c
  let per := fun (n : Nat) (f : Wave → Nat) => (List.range 4).map fun q =>
    n - ((ws.filter fun w => w.quad == q).map f).foldl (· + ·) 0
  { core := c, slots := per 128 fun _ => 1, regs := per 6144 (·.nvreg), tiles := per 32 (·.nacc),
    scr := (if ws.isEmpty then 1310720 else (s.coreSt c).scrSize) - scrAllotted s c, split := freePool s c,
    gran := freeGranules s c, nslots := 96 - (coreSlots s c).length,
    target := if ws.isEmpty then some (scrTarget s g) else none }

/-- The lowest index of the greatest of four. -/
def argMax (l : List Nat) : Nat :=
  ((l.zipIdx).foldl (fun (b : Nat × Nat) (x, i) => if b.1 < x then (x, i) else b) (0, 0)).2

/-- Quadrant of wave `i` of a part that starts at `q0` (R50). -/
def quadOf (q0 i : Nat) : Nat := (q0 + i) % 4

/-- Waves of `n` that go to quadrant `q`. -/
def quadCount (q0 n q : Nat) : Nat := ((List.range n).filter fun i => quadOf q0 i == q).length

/-- A part of `n` waves with saved weight slots (granules, entries) fits: what it leaves (R50, R291). -/
def fitPart (x : Shape) (n gran nslots : Nat) (r : CoreRes) : Option CoreRes :=
  let q0 := argMax r.slots
  let take := fun (l : List Nat) (k : Nat) => (l.zipIdx).map fun (v, q) => (v, quadCount q0 n q * k)
  let ok := fun (l : List (Nat × Nat)) => l.all fun (v, u) => u ≤ v
  let sl := take r.slots 1
  let rg := take r.regs x.nvreg
  let tl := take r.tiles x.nacc
  if ok sl && ok rg && ok tl && x.allot ≤ r.scr && n * (1 + x.rsv) ≤ r.split && gran ≤ r.gran && nslots ≤ r.nslots then
    let sub := fun (l : List (Nat × Nat)) => l.map fun (v, u) => v - u
    let scr := match r.target with
      | some t => scrFor x.allot t
      | none => r.scr
    some { r with slots := sub sl, regs := sub rg, tiles := sub tl, scr := scr - x.allot, target := none, split := r.split - n * (1 + x.rsv),
                  gran := r.gran - gran, nslots := r.nslots - nslots }
  else none

/-- The core with the most free wave slots among those where the part fits, the lowest of equals: what it held and what is
left (R53). -/
def pickCore (fit : CoreRes → Option CoreRes) (used : List Nat) (rs : List CoreRes) : Option (CoreRes × CoreRes) :=
  let total := fun (r : CoreRes) => r.slots.foldl (· + ·) 0
  rs.foldl (fun best r =>
    if used.contains r.core then best
    else match fit r, best with
      | none, _ => best
      | some r', none => some (r, r')
      | some r', some (b, b') =>
        if total b < total r || (total b == total r && r.core < b.core) then some (r, r') else some (b, b')) none

/-- What the parts of a block hold in weight slots. -/
def partSlots (b : Block) (p : Nat) : Nat × Nat :=
  let l := b.slots.filter fun (k, x) => k / 16 == p && x.st != 0 && x.st != 4
  (l.foldl (fun n (_, x) => n + x.gran) 0, l.length)

/-- Places the parts from `p` on: cores and first quadrants, and what is left (R52). -/
def placeParts (x : Shape) (b : Block) : Nat → Nat → List Nat → List CoreRes → Option (List (Nat × Nat) × List CoreRes)
  | 0, _, _, rs => some ([], rs)
  | n + 1, p, used, rs =>
    let (gr, ns) := partSlots b p
    match pickCore (fitPart x (x.partWaves p) gr ns) used rs with
    | none => none
    | some (r, r') =>
      match placeParts x b n (p + 1) (r.core :: used) (rs.map fun y => if y.core == r.core then r' else y) with
      | some (l, rs) => some ((r.core, argMax r.slots) :: l, rs)
      | none => none

/-- Places several blocks together, or none. -/
def placeAll (shape : Block → Shape) : List (Nat × Block) → List CoreRes → Option (List (Nat × List (Nat × Nat)))
  | [], _ => some []
  | (id, b) :: t, rs =>
    let x := shape b
    match placeParts x b x.parts 0 [] rs with
    | none => none
    | some (l, rs) => (placeAll shape t rs).map fun r => (id, l) :: r

/-- Blocks of a set of teams closed under sharing a block (R52). -/
def teamGroup (teams : List (List (Nat × Nat))) : Nat → List Nat → List Nat
  | 0, l => l
  | n + 1, l =>
    let near := teams.filter fun t => t.any fun m => l.contains m.1
    teamGroup teams n ((near.flatMap fun t => t.map (·.1)).foldl (fun l b => if l.contains b then l else l ++ [b]) l)

/-- The team group of a block; only itself where it is in none. -/
def groupOf (k : Cmd) (lin : Nat) : List Nat := teamGroup k.teams k.teams.length [lin]

/-- Some blocks can be placed together on the glade's empty cores. -/
def fitsEmpty (s : State) (k : Cmd) (stage n : Nat) : Bool :=
  (placeAll (fun _ => k.shape stage) ((List.range n).map fun i => (i, ({} : Block)))
    ((s.gladeSt k.glade).cores.map emptyRes)).isSome

/-- The residency check of R52 for a grid: the status it ends with, 0 where it passes. -/
def residency (s : State) (k : Cmd) : Nat :=
  if !fitsEmpty s k 0 1 then 5
  else if k.coop && !fitsEmpty s k 0 k.blocks then 4
  else if (k.teams.flatMap fun t => t.map (·.1)).any fun b => !fitsEmpty s k 0 (groupOf k b).length then 3
  else 0

/-! ## Ending (R45, R370) -/

/-- Operations that outlive the block that issued them (R300, R316). -/
def Op.lasting (o : Op) : Bool := o.kind == .notify || o.kind == .sweep

/-- Discards the operations that satisfy `p`: an unperformed global store poisons its range (R225, R370). -/
def discardOps (s : State) (p : Nat → Op → Bool) : State :=
  let gone := s.ops.filter fun (k, o) => p k o && !o.lasting
  let s := gone.foldl (fun s (_, o) => match o.tag with
    | some t => if o.done then s else poisonTag s o.glade (o.pinCore.getD o.core) t
    | none => s) s
  { s with ops := s.ops.filter fun (k, o) => o.lasting || !p k o }

/-- Tags of pinned stores of a wave are poisoned as the wave goes (R225). -/
def poisonPins (s : State) (w : Wave) : State :=
  w.allFrags.foldl (fun s f => match f.pin with
    | some (t, c) => poisonTag s w.glade c t
    | none => s) s

/-- A replay entry that goes with its block poisons the range of its store, a copy's included (R225, R230). -/
def poisonEntry (s : State) (o : Op) : State := match o.tag with
  | some t => poisonTag s o.glade (o.pinCore.getD o.core) t
  | none => s

/-- Groups of a block leave the matrix units. -/
def dropGroups (s : State) (bid : Nat) : State :=
  let on := fun (m : MxQuad) =>
    { m with opened := m.opened.filter fun g => g.blk != bid, due := m.due.filter fun g => g.blk != bid,
             running := m.running.map fun g => if g.blk == bid then { g with ops := [] } else g,
             writing := m.writing.filter fun e => (s.op? e.1.1).isSome }
  { s with cores := Tab.mapV s.cores fun _ c => { c with mx := Tab.mapV c.mx fun _ m => on m } }

/-- Blocks of a glade that are quiescing or saving. -/
def preempting (s : State) (g : Nat) : Bool :=
  (Tab.vals s.blocks).any fun b => (s.cmdD b.cmd).glade == g && (b.st == .quiescing || b.st == .saving)

/-- BUSY of GLD_PSTAT falls once no block is quiescing or saving (R383). -/
def settleBusy (s : State) (g : Nat) : State :=
  if regFld s (.gld g) 0x4040 31 31 == 1 && !preempting s g then setRegFld s (.gld g) 0x4040 31 31 0 else s

/-- Releases a block's waves, slots, scratch and cores: it is DONE (R49). -/
def releaseBlock (s : State) (bid : Nat) : State :=
  let b := s.blkD bid
  let (g, c) := blkCtx s b
  let s : State := b.waves.foldl (fun s k => { s with waves := Tab.del s.waves k }) s
  let s := s.noteLeave g c
  let gone := fun (b : Block) =>
    { b with st := .done, cores := [], slots := [], scr := [], regions := [], image := none, slotNo := none, entries := [], away := false }
  settleBusy (s.updBlk bid gone) g

/-- The stores of a block's waves, resident or in its image, join its command's witness (R45, R338). -/
def mergeWitness (s : State) (bid : Nat) : State :=
  let b := s.blkD bid
  let ws := (b.waves.filterMap s.wave?) ++ (match b.image with
    | some im => Tab.vals im.waves
    | none => [])
  s.updCmd b.cmd fun c => { c with wit := ws.foldl (fun p w => wMerge p w.sw) c.wit }

/-- Ends a block at once: its operations are discarded, its waves leave every phase (R370, R371). -/
def killBlock (s : State) (bid : Nat) : State :=
  let b := s.blkD bid
  let s := mergeWitness s bid
  let s := discardOps s fun _ o => o.blk == bid
  let s := dropGroups s bid
  let ws := (b.waves.filterMap s.wave?) ++ (match b.image with
    | some im => Tab.vals im.waves
    | none => [])
  let s := ws.foldl poisonPins s
  let s := b.entries.foldl poisonEntry s
  let s := b.waves.foldl (fun s k => dropArrivals s k b.cmd) s
  releaseBlock s bid

/-- Blocks of a command. -/
def cmdBlocks (s : State) (cmd : Nat) : List (Nat × Block) := s.blocks.filter fun (_, b) => b.cmd == cmd

/-- `launch` receives its result: the grid has reached CHECKED or ends (R161). -/
def deliverLaunch (s : State) (cmd : Nat) (k : Cmd) (code : Word) : State :=
  (deliverCmd s k [code]).updCmd cmd fun k => { k with st := .checked }

/-- A grid that a context fault or a close ends while it is QUEUED fills its `launch` destination with a free code
(R161, notes/assumptions 118). -/
def fillLaunch (s : State) (cmd : Nat) : State :=
  let k := s.cmdD cmd
  if k.isPass || k.st != .queued then s
  else
    let (x, s) := s.freeWord
    deliverLaunch s cmd k (x &&& 0xFF#32)

/-- A command ends with a status; its blocks are released. -/
def endCmd (s : State) (cmd status detail : Nat) : State :=
  let s := fillLaunch s cmd
  let s := (cmdBlocks s cmd).foldl (fun s (id, b) => if b.st == .done then s else killBlock s id) s
  s.updCmd cmd fun k => { k with st := .ending, status := status, detail := detail, faultEnt := none }

/-- A command and its blocks go; its place in the queue is free (R160). -/
def dropCmd (s : State) (cmd : Nat) : State :=
  let g := (s.cmdD cmd).glade
  let s : State := { s with cmds := Tab.del s.cmds cmd, blocks := s.blocks.filter fun (_, b) => b.cmd != cmd }
  let s := s.updGlade g fun x => { x with preempts := x.preempts.filter fun p => p.cmd != cmd }
  { s with cores := Tab.mapV s.cores fun _ c => { c with freshGrids := c.freshGrids.filter fun n => n / 4 != cmd } }

/-! ## DESCRIPTOR_CHECK (R43, R44, R47, R52) -/

/-- A read that misses waits at an entry of the fault queue (R161, R374). -/
def awaitPage (s : State) (cmd : Nat) (k : Cmd) (c va kind : Nat) : State :=
  let (id, s) := enqueueFault s k.glade c false kind va k.glade k.ccpc
  s.updCmd cmd fun k => { k with faultEnt := some id }

/-- Every earlier load and store of the control core has performed (R161). -/
def ccQuiet (s : State) (cmd : Nat) (g : Nat) : Bool :=
  !(s.ops.any fun (k, o) => k < cmd && o.wid == g && !o.done && (o.kind == .load || o.kind == .store || o.kind == .atomic))

/-- `launch` receives its result, and the grid ends or is CHECKED (R47, R161). -/
def settleLaunch (s : State) (cmd : Nat) (k : Cmd) (code : Nat) : State :=
  let s := deliverLaunch s cmd k (BitVec.ofNat 32 code)
  if code == 0 then s else endCmd s cmd code 0

/-- Every event counter of a glade's cores is set for a pass of its replay session (R423). -/
def setReplayEvents (s : State) (g p : Nat) : State :=
  let sel := reg s .rpl (256 * g + 0x20 + 4 * min 3 (p - 1))
  let c := regFld s .rpl (256 * g) 29 24
  let one := fun (s : State) (core n : Nat) =>
    setReg (setReg s (.core core) (0x40 + 8 * n) 0) (.core core) (0x44 + 8 * n)
      (BitVec.ofNat 32 (fld sel (8 * n + 7) (8 * n) * 2 ^ 24 + c * 2 ^ 16))
  (s.gladeSt g).cores.foldl (fun s core => (List.range 4).foldl (fun s n => one s core n) s) s

/-- The glade's replay session is armed for grids of a context that were launched after ARM was set (R422, R423). -/
def replayArmed (s : State) (g cmd ctx : Nat) : Bool :=
  regFld s .rpl (256 * g) 31 31 == 1 && regFld s .rpl (256 * g) 29 24 == ctx && (Tab.val? s.replaySes g).isNone && (s.gladeSt g).armAt ≤ cmd

/-- A grid launched earlier may still be the one that an armed session takes: its context is unread, or it has not passed its checks
(R423). -/
def replayAwaits (s : State) (g cmd ctx : Nat) : Bool :=
  replayArmed s g cmd ctx && s.cmds.any fun (j, k) =>
    k.glade == g && !k.isPass && (s.gladeSt g).armAt ≤ j && j < cmd &&
    (k.st == .reading || ((k.st == .queued || k.st == .checked) && k.ctx == ctx))

/-- An armed session takes the first grid of its context that is launched (R422, R423). -/
def startReplay (s : State) (g cmd ctx : Nat) : State :=
  if replayArmed s g cmd ctx then
    let s := setRegFld s .rpl (256 * g) 31 31 0
    let s := setReg64 s .rpl (256 * g + 8) (2 ^ 63)
    setReplayEvents { s with replaySes := Tab.put s.replaySes g { cmd := cmd } } g 1
  else s

/-- The checks of R43 and R44 on a QUEUED grid. -/
def checkGrid (s : State) (cmd : Nat) (k : Cmd) : State :=
  if !gridOk s k then settleLaunch s cmd k 1
  else match fetchTeams s k.glade (k.d 0x30) (k.b 0x38 8 0) with
    | .miss a => awaitPage s cmd k 0 a aRead
    | .bad => settleLaunch s cmd k 2
    | .ok ts =>
      if !teamsOk k ts then settleLaunch s cmd k 2
      else settleLaunch (s.updCmd cmd fun k => { k with teams := ts }) cmd k 0

/-- A CHECKED command passes its residency check: it waits for its dependences (R47, R52). -/
def awaitDeps (s : State) (cmd : Nat) (k : Cmd) : State :=
  k.deps.foldl (fun s w => requestWitness s (256 + k.glade) k.glade k.ctx w) (s.updCmd cmd fun k => { k with st := .waitDep })

/-- DESCRIPTOR_CHECK: one step of a grid on its way to WAIT_DEP, in launch order where a replay session is to take the first (R423): its descriptor is read and it is QUEUED; descriptor and team
table are valid and it is CHECKED; its residency is checked (R43, R44, R47, R52, R161). -/
def execDescriptorCheck (cmd : Nat) (s : State) : Out := runEvent s do
  let k ← need (s.cmd? cmd) "DESCRIPTOR_CHECK"
  require (!k.isPass && k.faultEnt.isNone) "DESCRIPTOR_CHECK"
  if k.st == .queued then .ok (if k.readFail then settleLaunch s cmd k 2 else checkGrid s cmd k)
  else if k.st == .checked then do
    require (!replayAwaits s k.glade cmd k.ctx) "DESCRIPTOR_CHECK"
    let r := residency s k
    .ok (if r != 0 then endCmd s cmd r 0 else startReplay (awaitDeps s cmd k) k.glade cmd k.ctx)
  else do
    require (k.st == .reading && ccQuiet s cmd k.glade) "DESCRIPTOR_CHECK"
    if k.readFail || k.addr.toNat % 128 != 0 then .ok (settleLaunch s cmd k 1)
    else match fetchCtx s k.glade 0 k.addr.toNat 128 with
      | .bad => .ok (settleLaunch s cmd k 1)
      | .miss a => .ok (awaitPage s cmd k 0 a aRead)
      | .ok x => .ok (s.updCmd cmd fun k => { k with desc := wordsOf 32 x, st := .queued })

/-! ## Entry dependences (R47, R48) -/

/-- Enters blocks of a command as PENDING. -/
def addBlocks (s : State) (cmd stage n : Nat) : State :=
  (List.range n).foldl (fun s i =>
    let (id, s) := s.fresh
    { s with blocks := Tab.put s.blocks id { cmd := cmd, lin := i, stage := stage, since := s.now } }) s

/-- The first trap of a command's dependences. -/
def depTrap (s : State) (k : Cmd) : Option Nat := (k.deps.filterMap fun w => witnessTrap s k.glade w).head?

/-- BIN opens: the mesh queue header is read and checked, and the task groups become PENDING (R321, R325). -/
def openPass (s : State) (cmd : Nat) (k : Cmd) : State :=
  let va := k.d 0x18
  match walkPage s k.glade k.ctx va with
  | none => awaitPage s cmd k k.ctx va aRead
  | some p =>
    let q := readQueue s (p.homeOf va)
    if !q.ok || !areaOk s k.glade k.ctx (va + 64) (q.cap * 4 * q.rw) false then endCmd s cmd 1 0
    else
      let s := s.updCmd cmd fun k => { k with st := .active, pass := some {} }
      if k.b 0 10 10 == 1 then addBlocks s cmd 1 (k.w 0x58) else s

/-- ENTRY_DEPENDENCE_SATISFIED: every dependence of a command is satisfied and it becomes ACTIVE, or one traps and it ends
with DEP_FAULT (R48). -/
def execEntryDependenceSatisfied (cmd : Nat) (s : State) : Out := runEvent s do
  let k ← need (s.cmd? cmd) "ENTRY_DEPENDENCE_SATISFIED"
  require (k.st == .waitDep && k.faultEnt.isNone) "ENTRY_DEPENDENCE_SATISFIED"
  match depTrap s k with
  | some c => .ok (endCmd s cmd 6 c)
  | none => do
    require (k.deps.all fun w => satisfied s (256 + k.glade) k.glade w) "ENTRY_DEPENDENCE_SATISFIED"
    if k.readFail then .ok (endCmd s cmd 1 0)
    else if k.isPass then .ok (openPass s cmd k)
    else .ok (addBlocks (s.updCmd cmd fun k => { k with st := .active }) cmd 0 k.blocks)

/-! ## Placement (R46, R49 to R53, R65) -/

/-- Cores closed to a command by a pre-emption (R63). -/
def closedCores (s : State) (k : Cmd) (cmd : Nat) : List Nat :=
  ((s.gladeSt k.glade).preempts.filter fun p => p.cmd == cmd).flatMap (·.cores)

/-- Cores a command's blocks may go to: those of the glade that are in service, closed to it by nothing (R13, R63, R390). -/
def openCores (s : State) (k : Cmd) (cmd : Nat) : List CoreRes :=
  ((s.gladeSt k.glade).cores.filter fun c => s.boot.cores.contains c && !(closedCores s k cmd).contains c &&
    !(s.gladeSt k.glade).removing.contains c).map (coreRes s k.glade)

/-- A block that waits for its placement. -/
def Block.waits (b : Block) : Bool := b.st == .pending || b.st == .saved

/-- Blocks of a command that wait, in ascending linear identifier. -/
def waitingBlocks (s : State) (cmd : Nat) : List (Nat × Block) :=
  ((cmdBlocks s cmd).filter fun (_, b) => b.waits).mergeSort fun x y => x.2.stage < y.2.stage || (x.2.stage == y.2.stage && x.2.lin ≤ y.2.lin)

/-- Blocks of a command that a dispatch step may place. A new group of BIN waits while DRAW runs (R323); of a SUSPENDED grid
only the vacated blocks come back, once all of them wait (R65). -/
def readyBlocks (s : State) (cmd : Nat) (k : Cmd) : List (Nat × Block) :=
  let l := waitingBlocks s cmd
  if k.isPass then l.filter fun (_, b) => b.st == .saved || b.stage == 3 || k.pass.any fun p => p.phase == 0
  else if k.st == .suspended then
    (if (cmdBlocks s cmd).any fun (_, b) => b.away && !b.waits then [] else l.filter fun (_, b) => b.away)
  else l

/-- The blocks placed in the command's next dispatch step: a cooperative grid, a team group or what a SUSPENDED grid lost
whole, else the first that waits (R52, R53, R65). -/
def nextUnit (s : State) (cmd : Nat) (k : Cmd) : List (Nat × Block) := match readyBlocks s cmd k with
  | [] => []
  | (id, b) :: t =>
    if k.coop || k.st == .suspended then (id, b) :: t
    else
      let gr := groupOf k b.lin
      (id, b) :: t.filter fun (_, c) => !k.isPass && gr.contains c.lin

/-- Cores of a pass's resolve groups. -/
def resolveCores (s : State) (cmd : Nat) : List Nat :=
  (cmdBlocks s cmd).flatMap fun (_, b) => if b.stage == 3 then b.cores else []

/-- Resolve groups of a pass that have not ended. -/
def resolveGroups (s : State) (cmd : Nat) : Nat := ((cmdBlocks s cmd).filter fun (_, b) => b.stage == 3 && b.st != .done).length

/-- DRAW can take another resolve group (R331). -/
def wantsResolve (s : State) (cmd : Nat) (k : Cmd) : Bool := match k.pass with
  | some p =>
    p.phase == 1 && (p.tiles.any fun (_, t) => t.st == 0) &&
    resolveGroups s cmd < (if k.b 8 7 0 == 0 then (s.gladeSt k.glade).cores.length else k.b 8 7 0)
  | none => false

/-- What a command's next dispatch step would place: its blocks (none for a new resolve group) with cores and quadrants. -/
def plan (s : State) (cmd : Nat) (k : Cmd) : Option (List (Nat × Block) × List (Nat × List (Nat × Nat))) :=
  if !(k.st == .active || k.st == .suspended) || k.haltMark || !ctxRuns s k.glade k.ctx then none
  else
    let free := openCores s k cmd
    let apart := free.filter fun r => !(resolveCores s cmd).contains r.core
    let group : Option (List (Nat × Block) × List (Nat × List (Nat × Nat))) :=
      if wantsResolve s cmd k then
        (placeAll (fun b => k.shape b.stage) [(0, { cmd := cmd, stage := 3 })] apart).map fun l => ([], l)
      else none
    match nextUnit s cmd k with
    | [] => group
    | u =>
      let b := (u.headD (0, {})).2
      let gr := groupOf k b.lin
      if (cmdBlocks s cmd).any fun (_, b) => (b.st == .quiescing || b.st == .saving) && !k.isPass && (k.coop || gr.contains b.lin) then none
      else match placeAll (fun b => k.shape b.stage) u (if b.stage == 3 then apart else free) with
        | some l => some (u, l)
        | none => group

/-- A command is served before another (R53). -/
def Cmd.before (a b : Nat × Cmd) : Bool :=
  b.2.prio < a.2.prio || (a.2.prio == b.2.prio && ((a.2.isPass && !b.2.isPass) || (a.2.isPass == b.2.isPass && a.1 < b.1)))

/-- A block that has waited 64 µs bars the unit: it has equal or higher priority, and its wait is not behind that of the
unit's own first block (R53). -/
def barred (s : State) (cmd : Nat) (k : Cmd) (u : List (Nat × Block)) : Bool :=
  let own : Option (Nat × Block) := (u.find? fun (_, b) => b.starving)
  s.blocks.any fun (id, b) =>
    let o := s.cmdD b.cmd
    b.starving && b.waits && o.glade == k.glade && k.prio ≤ o.prio && !(u.any fun x => x.1 == id) &&
    !(own.any fun (i, x) => x.since < b.since || (x.since == b.since && (cmd < b.cmd || (cmd == b.cmd && i < id))))

/-- No command served earlier has something that may be placed now (R53). -/
def firstServed (s : State) (cmd : Nat) (k : Cmd) : Bool :=
  s.cmds.all fun (j, x) => x.glade != k.glade || j == cmd || !Cmd.before (j, x) (cmd, k) ||
    (plan s j x).all fun (u, _) => barred s j x u

/-- Team slots of a wave: its teams in ascending index (R46). -/
def teamSlots (k : Cmd) (stage lin widx : Nat) : List Nat :=
  if stage != 0 then [0, 0, 0, 0]
  else
    let l := ((k.teams.zipIdx).filter fun (t, _) => t.contains (lin, widx)).map fun (_, i) => 256 + i
    (l ++ [0, 0, 0, 0]).take 4

/-- The scalar registers of a new wave (R46, R324). -/
def initScalars (k : Cmd) (b : Block) (widx part : Nat) : List (Nat × Nat) :=
  let args := k.d (if k.isPass then 0x10 else 0x28)
  let common := [(0, args % 2 ^ 32), (1, args / 2 ^ 32), (2, b.lin), (6, widx), (7, part), (8, k.seq)]
  if k.isPass then
    let x := if b.stage == 1 then k.w 0x58 else if b.stage == 2 then b.record.length else ((k.pass.getD {}).round)
    common ++ [(3, x)] ++ ((b.record.zipIdx).map fun (v, i) => (12 + i, v.toNat))
  else
    let gx := k.b 0x10 15 0
    let gy := k.b 0x10 31 16
    common ++ [(3, b.lin % gx), (4, b.lin / gx % gy), (5, b.lin / gx / gy), (9, k.w 0x10), (10, k.b 0x14 15 0)]

/-- A new wave (R46). -/
def initWave (k : Cmd) (cmd bid : Nat) (b : Block) (x : Shape) (wid widx part core quad : Nat) : Wave :=
  let f : Frag := { memb := 0xFFFFFFFF#32, emask := 0xFFFFFFFF#32, pc := x.entry, fmt := x.fmt }
  let w : Wave :=
    { glade := k.glade, ctx := k.ctx, cmd := cmd, blk := bid, widx := widx, part := part, core := core, quad := quad,
      prio := k.prio, born := wid, nvreg := x.nvreg, nacc := x.nacc, rsv := x.rsv, ents := [(0, .frag f)],
      teams := teamSlots k b.stage b.lin widx, uhandler := x.handler, stage := b.stage }
  let w := (initScalars k b widx part).foldl (fun w (r, v) => w.setS r (BitVec.ofNat 32 v)) w
  (List.range 32).foldl (fun w l => (w.setV 0 l (BitVec.ofNat 32 l)).setV 1 l (BitVec.ofNat 32 (32 * widx + l))) w

/-- Wave numbers of a block with their part, core and quadrant. -/
def waveSpots (x : Shape) (at' : List (Nat × Nat)) : List (Nat × Nat × Nat × Nat) :=
  (at'.zipIdx).flatMap fun ((core, q0), p) =>
    (List.range (x.partWaves p)).map fun i => (x.firstWave p + i, p, core, quadOf q0 i)

/-- A core receives a part: with no resident wave its scratchpad size is set, and L1 keeps what the rest holds (R22); before the first wave there of a grid or of a
pass stage its instruction-cache lines of the glade go, and of a command it self-invalidates for the dependences (R51, R232,
R442). -/
def prepareCore (s : State) (cmd : Nat) (k : Cmd) (stage allot core : Nat) : State :=
  let s :=
    if (coreWaves s core).isEmpty then
      evictLines (s.updCore core fun c => { c with scrSize := scrFor allot (scrTarget s k.glade) }) core
    else s
  let fresh := (s.coreSt core).freshGrids
  if fresh.contains (4 * cmd + stage) then s
  else
    let s := if k.deps.isEmpty || fresh.any (fun n => n / 4 == cmd) then s else selfInvalidate s core k.glade
    (dropIcache s core k.glade).updCore core fun c => { c with freshGrids := (4 * cmd + stage) :: c.freshGrids }

/-- Places a new block on its cores: it is PLACED, and its waves hold their initial state (R46, R49). -/
def startBlock (s : State) (cmd : Nat) (k : Cmd) (bid : Nat) (at' : List (Nat × Nat)) : State :=
  let b := s.blkD bid
  let x := k.shape b.stage
  let spots := waveSpots x at'
  let first := s.nextId
  let s : State := { s with nextId := s.nextId + spots.length }
  let s := (spots.zipIdx).foldl (fun s ((widx, p, core, q), i) =>
    s.setWave (first + i) (initWave k cmd bid b x (first + i) widx p core q)) s
  let s := { s with freeCount := s.freeCount + 2 ^ 24 }
  s.updBlk bid fun b => { b with st := .placed, cores := at'.map (·.1), waves := range first spots.length, scrSize := x.allot,
                                 scrSeed := s.freeCount - 2 ^ 24, scr := [], regions := [], published := false, starving := false,
                                 away := false, since := s.now }

/-- Puts one block on its cores: a new one starts, a saved one is restored (R65). -/
def putBlock (s : State) (cmd : Nat) (k : Cmd) (bid : Nat) (at' : List (Nat × Nat)) : State :=
  let b := s.blkD bid
  let x := k.shape b.stage
  let s := (at'.map (·.1)).foldl (fun s c => prepareCore s cmd k b.stage x.allot c) s
  if b.st == .saved then
    let im := b.image.getD {}
    let place := (waveSpots x at').filterMap fun (widx, _, core, q) =>
      (im.waves.find? fun (_, w) => w.widx == widx).map fun (wid, _) => (wid, core, q)
    let s := restoreBlock s bid (at'.map (·.1)) place
    s.updBlk bid fun b => { b with starving := false }
  else startBlock s cmd k bid at'

/-- Blocks of a command that are PLACED. -/
def placedBlocks (s : State) (cmd : Nat) : List (Nat × Block) := (cmdBlocks s cmd).filter fun (_, b) => b.st == .placed

/-- BLOCK_PLACEMENT: the command's next blocks are placed in one dispatch step (R52, R53), and the next event of the command
finds their waves initialised: they are RUNNING (R49). A SUSPENDED grid whose vacated blocks are placed is ACTIVE again (R65). -/
def execBlockPlacement (cmd : Nat) (s : State) : Out := runEvent s do
  let k ← need (s.cmd? cmd) "BLOCK_PLACEMENT"
  if !(placedBlocks s cmd).isEmpty then
    .ok ((placedBlocks s cmd).foldl (fun s (id, _) => s.updBlk id fun b => { b with st := .running }) s)
  else do
  let (u, l) ← need (plan s cmd k) "BLOCK_PLACEMENT"
  require (firstServed s cmd k && !barred s cmd k u) "BLOCK_PLACEMENT"
  if u.isEmpty then
    match l with
    | (_, at') :: _ =>
      let (id, s) := s.fresh
      let b : Block := { cmd := cmd, stage := 3, lin := (at'.headD (0, 0)).1, since := s.now }
      .ok (putBlock { s with blocks := Tab.put s.blocks id b } cmd k id at')
    | [] => notNow "BLOCK_PLACEMENT"
  else
    let s := l.foldl (fun s (bid, at') => putBlock s cmd k bid at') s
    .ok (s.updCmd cmd fun k => { k with st := .active })

/-- PENDING_TIMEOUT: a block has been PENDING for 64 µs (R53). -/
def execPendingTimeout (blk : Nat) (s : State) : Out := runEvent s do
  let b ← need (s.blk? blk) "PENDING_TIMEOUT"
  require (b.waits && !b.starving && b.since + 64000 ≤ s.now) "PENDING_TIMEOUT"
  .ok (s.updBlk blk fun b => { b with starving := true })

/-! ## Ends (R45, R49, R371) -/

/-- A tile of a resolve group is being rasterised, or is on its way to its targets: every item of it has been handed out (R336). -/
def releasing (s : State) (bid : Nat) (b : Block) : Bool :=
  b.stage == 3 && (s.cmdD b.cmd).pass.any fun p => p.phase == 1 && p.tiles.any fun (_, t) =>
    t.grp == bid && (t.st == 1 || (t.st == 2 && t.items.isEmpty) || t.st == 3)

/-- What keeps a block whose waves have ended from DONE: its operations, replay entries still to be applied, and a tile that
is being released (R49, R64, R336). -/
def blockBusy (s : State) (bid : Nat) : Bool :=
  (s.ops.any fun (_, o) => o.blk == bid && (o.cls.isSome || o.kind == .prim)) || !(s.blkD bid).entries.isEmpty ||
  releasing s bid (s.blkD bid)

/-- Status and detail a command ends with once its blocks are done (R45, R371). -/
def gridStatus (k : Cmd) : Nat × Nat :=
  if k.st == .ending then (k.status, k.detail)
  else match k.firstTerm with
    | some c => (7, c)
    | none => (0, 0)

/-- A grid whose last block has reached DONE is ENDING (R47). -/
def noteEnding (s : State) (cmd : Nat) : State :=
  let k := s.cmdD cmd
  if k.isPass || !(k.st == .active || k.st == .suspended) || !(cmdBlocks s cmd).all (fun (_, b) => b.st == .done) then s
  else s.updCmd cmd fun k => { k with st := .ending, status := (gridStatus k).1, detail := (gridStatus k).2 }

/-- BLOCK_DONE: every wave of a block has ended and its counters are zero; or it was terminated, and its operations have
completed or 4 µs have passed (R49, R370, R371). With its last block a grid is ENDING (R47). -/
def execBlockDone (blk : Nat) (s : State) : Out := runEvent s do
  let b ← need (s.blk? blk) "BLOCK_DONE"
  if b.terminated && b.st != .done then do
    require (!blockBusy s blk || b.since + 4000 ≤ s.now) "BLOCK_DONE"
    .ok (noteEnding (killBlock s blk) b.cmd)
  else do
    require ((b.st == .running || b.st == .finishing || b.st == .quiescing) && !blockBusy s blk) "BLOCK_DONE"
    require (b.waves.all fun k => (s.waveD k).over) "BLOCK_DONE"
    .ok (noteEnding (releaseBlock (mergeWitness s blk) blk) b.cmd)

/-- Every store that a witness covers has landed. -/
def coveredLanded (s : State) (g : Nat) (w : DWord) : Bool :=
  if wKind w == 0 then true
  else if wKind w == 1 then allAfter (unlandedTags s (wCore w) g) (wEpoch w)
  else (gladeCores s g).all fun c => allAfter (unlandedTags s c g) (wEpoch w)

/-- A replay session still runs the command's grid (R423). -/
def inReplay (s : State) (cmd : Nat) : Bool := (Tab.vals s.replaySes).any fun r => r.cmd == cmd

/-- COMPLETION_RECORD_WRITE: the grid has ended and every store its witness covers has landed; the record is written in
its context with SCOPE sys, and the command leaves the queue (R45, R160, R232). -/
def execCompletionRecordWrite (cmd : Nat) (s : State) : Out := runEvent s do
  let k ← need (s.cmd? cmd) "COMPLETION_RECORD_WRITE"
  require (!k.isPass && k.st == .ending && !inReplay s cmd) "COMPLETION_RECORD_WRITE"
  let (st, det) := gridStatus k
  let wit : DWord := if st == 0 then k.wit else 0
  require (coveredLanded s k.glade wit) "COMPLETION_RECORD_WRITE"
  let va := k.d 0x40
  let x := st + det * 2 ^ 8 + k.seq * 2 ^ 32 + wit.toNat * 2 ^ 64
  let s := if k.desc.isEmpty || !addrOk va 8 then s else writeBytes s k.glade k.ctx va (toBytes 16 x)
  .ok (dropCmd s cmd)

end Sys2Proof.Machine
end

