-- ==== Sys2Proof/Machine/Raster.lean ====
section
/-! DEFINITION. The arithmetic of the raster pipeline: exact edge functions, coverage, depth, and the items of a tile (R329,
R332 to R334). FP32 values are integers in units of 2^-149. -/

namespace Sys2Proof.Machine

open Sys2Proof

/-! ## Exact values -/

/-- A finite FP32 value in units of 2^-149. -/
def fx (w : Word) : Int := (unpack FP32 w.toNat).over (-149)

/-- Neither NaN nor infinite. -/
def finite (w : Word) : Bool := match unpack FP32 w.toNat with
  | .num _ _ _ => true
  | _ => false

/-- Round32 of p / q × 2^e under a rounding mode, for q ≠ 0. -/
def roundRat (rnd : Nat) (p q e : Int) : Word :=
  if p == 0 then 0
  else
    let neg := (p < 0) != (q < 0)
    let n := q.natAbs
    let s := Nat.log2 n + 80
    let x := p.natAbs * 2 ^ s
    BitVec.ofNat 32 (roundFin FP32 rnd false neg (2 * (x / n) + (if x % n == 0 then 0 else 1)) (e - (s + 1 : Nat))).1

/-- A vertex coordinate of a triangle: vertex, component 0 x, 1 y, 2 z, 3 q. -/
def triWord (ws : List Word) (v c : Nat) : Word := ws.getD (4 * v + c) 0
def triVal (ws : List Word) (v c : Nat) : Int := fx (triWord ws v c)

/-- The signed area, doubled (R329). -/
def triArea (ws : List Word) : Int :=
  (triVal ws 1 0 - triVal ws 0 0) * (triVal ws 2 1 - triVal ws 0 1) - (triVal ws 2 0 - triVal ws 0 0) * (triVal ws 1 1 - triVal ws 0 1)

/-- The edge function opposite vertex `i` at a point (R332). -/
def edgeAt (ws : List Word) (i : Nat) (x y : Int) : Int :=
  let a := (i + 1) % 3
  let b := (i + 2) % 3
  (triVal ws b 0 - triVal ws a 0) * (y - triVal ws a 1) - (triVal ws b 1 - triVal ws a 1) * (x - triVal ws a 0)

/-- A top edge is horizontal with the interior at larger y; a left edge runs up for a positive area and down for a negative
one (R332). `ya`, `yb` are its ends, `yc` the third vertex. -/
def topLeft (area ya yb yc : Int) : Bool := if ya == yb then ya < yc else if 0 < area then yb < ya else area < 0 && ya < yb

/-- The point lies in the triangle under the fill rule. -/
def covers (ws : List Word) (x y : Int) : Bool :=
  let area := triArea ws
  (List.range 3).all fun i =>
    let e := edgeAt ws i x y
    if e == 0 then topLeft area (triVal ws ((i + 1) % 3) 1) (triVal ws ((i + 2) % 3) 1) (triVal ws i 1)
    else decide (0 < e) == decide (0 < area)

/-- The depth of the triangle at a point (R332). -/
def depthAt (ws : List Word) (x y : Int) : Word :=
  let sum := ((List.range 3).map fun i => edgeAt ws i x y * triVal ws i 2).foldl (· + ·) 0
  roundRat 0 sum (triArea ws) (-149)

/-- Perspective-correct weight of a vertex at a point; none where the denominator is 0 and no value is stated (R334). -/
def weightAt (ws : List Word) (k : Nat) (x y : Int) : Option Word :=
  let den := ((List.range 3).map fun i => edgeAt ws i x y * triVal ws i 3).foldl (· + ·) 0
  if den == 0 then none else some (roundRat 0 (edgeAt ws k x y * triVal ws k 3) den 0)

/-! ## Samples (R332) -/

/-- Offsets of a sample within its pixel in eighths. -/
def sampleOff (n i : Nat) : Nat × Nat :=
  if n == 1 then (4, 4)
  else if n == 2 then (if i == 0 then (6, 6) else (2, 2))
  else match i with
    | 0 => (3, 1)
    | 1 => (7, 3)
    | 2 => (1, 5)
    | _ => (5, 7)

/-- Eighths of a pixel in units of 2^-149. -/
def eighths (n : Nat) : Int := (n * 2 ^ 146 : Nat)

/-- The position of a sample of a pixel. -/
def samplePos (n i px py : Nat) : Int × Int := (eighths (8 * px + (sampleOff n i).1), eighths (8 * py + (sampleOff n i).2))

/-- The centre of a pixel. -/
def pixelCentre (px py : Nat) : Int × Int := (eighths (8 * px + 4), eighths (8 * py + 4))

/-! ## Tiles (R331) -/

def Cmd.width (k : Cmd) : Nat := k.b 4 15 0
def Cmd.height (k : Cmd) : Nat := k.b 4 31 16
def Cmd.tilesX (k : Cmd) : Nat := (k.width + k.edge - 1) / k.edge
def Cmd.tilesY (k : Cmd) : Nat := (k.height + k.edge - 1) / k.edge
def Cmd.tileCount (k : Cmd) : Nat := k.tilesX * k.tilesY
/-- The first pixel of a tile. -/
def Cmd.tileX (k : Cmd) (t : Nat) : Nat := t % k.tilesX * k.edge
def Cmd.tileY (k : Cmd) (t : Nat) : Nat := t / k.tilesX * k.edge

/-- Pixels of a tile in the render area, by index y × T + x. -/
def Cmd.pixels (k : Cmd) (t : Nat) : List Nat :=
  (List.range (k.edge * k.edge)).filter fun i => k.tileX t + i % k.edge < k.width && k.tileY t + i / k.edge < k.height

/-- The tiles that a rectangle in units of 2^-149 meets. -/
def Cmd.tilesMet (k : Cmd) (x0 x1 y0 y1 : Int) : List Nat :=
  (List.range k.tileCount).filter fun t =>
    eighths (8 * k.tileX t) ≤ x1 && x0 ≤ eighths (8 * min (k.tileX t + k.edge) k.width) &&
    eighths (8 * k.tileY t) ≤ y1 && y0 ≤ eighths (8 * min (k.tileY t + k.edge) k.height)

/-- Least and greatest of a coordinate of a triangle. -/
def triMin (ws : List Word) (c : Nat) : Int := min (triVal ws 0 c) (min (triVal ws 1 c) (triVal ws 2 c))
def triMax (ws : List Word) (c : Nat) : Int := max (triVal ws 0 c) (max (triVal ws 1 c) (triVal ws 2 c))

/-- The tiles of a triangle's list entries; none where the binner discards it (R329). The model counts q among the coordinates, so
that a q of NaN or +infinity discards the triangle (notes/assumptions 121). -/
def Cmd.binTiles (k : Cmd) (ws : List Word) : Option (List Nat) :=
  if !((List.range 12).all fun i => finite (ws.getD i 0)) then none
  else if (List.range 3).any fun v => triVal ws v 3 ≤ 0 then none
  else if triArea ws == 0 then none
  else
    let w := eighths (8 * k.width)
    let h := eighths (8 * k.height)
    if triMax ws 0 < 0 || w < triMin ws 0 || triMax ws 1 < 0 || h < triMin ws 1 then none
    else some (k.tilesMet (triMin ws 0) (triMax ws 0) (triMin ws 1) (triMax ws 1))

/-! ## Depth (R332) -/

/-- A depth that is not dropped: not below +0, not above 1, not NaN. -/
def depthOk (z : Word) : Bool := match unpack FP32 z.toNat with
  | .num neg m e => (!neg || m == 0) && (FV.num neg m e).over (-149) ≤ 2 ^ 149
  | _ => false

/-- The stored form of a depth: FP32, or under D16 an integer. -/
def storeDepth (dfmt : Nat) (z : Word) : Word :=
  if dfmt == 2 then
    match unpack FP32 z.toNat with
    | .num _ m e => BitVec.ofNat 32 (roundInt 0 false (m * 65535) e).1
    | _ => 0
  else z

/-- DFUNC between a new and a stored depth. -/
def depthPass (dfmt func : Nat) (new old : Word) : Bool :=
  if func == 4 then true
  else if dfmt == 2 then
    if func == 0 then new.toNat < old.toNat else if func == 1 then new.toNat ≤ old.toNat
    else if func == 2 then old.toNat < new.toNat else old.toNat ≤ new.toNat
  else
    let cmp := fun cc a b => (fcompare FP32 cc a b).1
    if func == 0 then cmp 2 new.toNat old.toNat else if func == 1 then cmp 3 new.toNat old.toNat
    else if func == 2 then cmp 2 old.toNat new.toNat else cmp 3 old.toNat new.toNat

/-- No triangle: the visibility word NONE. -/
def visNone : Word := 0xFFFFFFFF#32

/-- Depth and visibility of a sample of a tile. -/
def TileSt.depthOf (t : TileSt) (i : Nat) : Word := Tab.valD t.depth i 0
def TileSt.visOf (t : TileSt) (i : Nat) : Word := Tab.valD t.vis i visNone

/-- Rasterises one triangle at one sample of a tile. -/
def rasterSample (k : Cmd) (tile : Nat) (r : Tri) (t : TileSt) (pix smp : Nat) : TileSt :=
  let (x, y) := samplePos k.samples smp (k.tileX tile + pix % k.edge) (k.tileY tile + pix / k.edge)
  if !covers r.words x y then t
  else
    let z := depthAt r.words x y
    let dfmt := k.b 0 17 16
    let i := pix * k.samples + smp
    if !depthOk z || !depthPass dfmt (k.b 0 15 13) (storeDepth dfmt z) (t.depthOf i) then t
    else { t with depth := if dfmt == 0 then t.depth else Tab.put t.depth i (storeDepth dfmt z),
                  vis := Tab.putD t.vis i (BitVec.ofNat 32 r.ord) visNone }

/-- Rasterises the list of a tile in order. -/
def rasterTile (k : Cmd) (tile : Nat) (rs : List Tri) (t : TileSt) : TileSt :=
  let pix := k.pixels tile
  (rs.filter fun r => r.tiles.contains tile).foldl (fun t r =>
    pix.foldl (fun t p => (List.range k.samples).foldl (fun t i => rasterSample k tile r t p i) t) t) t

/-! ## Items (R333, R334) -/

/-- Samples of a pixel that share a visibility word, each set by its lowest sample. -/
def pixelSets (t : TileSt) (n pix : Nat) : List (Nat × Word) :=
  (List.range n).filterMap fun i =>
    let v := t.visOf (pix * n + i)
    if (List.range i).any fun j => t.visOf (pix * n + j) == v then none
    else some (((List.range n).filter fun j => t.visOf (pix * n + j) == v).foldl (fun m j => m + 2 ^ j) 0, v)

/-- The eight result words of an item; weights without a stated value are free, drawn from `seed`, as is all that a visibility
word of no triangle would name (R330). -/
def itemWords (k : Cmd) (p : PassSt) (tile pix mask : Nat) (v : Word) (seed : Nat) : List Word :=
  let px := k.tileX tile + pix % k.edge
  let py := k.tileY tile + pix / k.edge
  let pos := BitVec.ofNat 32 (px + 2 ^ 16 * py)
  match Tab.val? p.drawn v.toNat with
  | none =>
    if v == visNone then [pos, BitVec.ofNat 32 (mask + 32), visNone, 0, 0, 0, 0, visNone]
    else
      let x := fun i => Config.freeWord (seed + i)
      [pos, BitVec.ofNat 32 (mask + 32) ||| (x 0 &&& 16#32), x 1, x 2, x 3, x 4, x 5, v]
  | some r =>
    let (x, y) := pixelCentre px py
    let b := fun i => (weightAt r.words i x y).getD (Config.freeWord (seed + i))
    let front := if 0 < triArea r.words then 16 else 0
    [pos, BitVec.ofNat 32 (mask + 32 + front), r.words.getD 12 0, r.words.getD 13 0, b 1, b 2, depthAt r.words x y, v]

/-- The items of a tile: of every pixel, or where it has spill data of the pixels whose words changed since (R333). -/
def tileItems (k : Cmd) (p : PassSt) (tile : Nat) (t : TileSt) (seed : Nat) : List Item :=
  let n := k.samples
  let changed := fun (pix : Nat) => match Tab.val? p.spilled tile with
    | none => true
    | some sp => (List.range n).any fun i => Tab.valD sp.vis (pix * n + i) visNone != t.visOf (pix * n + i)
  ((k.pixels tile).filter changed).flatMap fun pix =>
    (pixelSets t n pix).map fun (mask, v) => { tile := tile, words := itemWords k p tile pix mask v (seed + 128 * pix + 8 * mask) }

end Sys2Proof.Machine
end

