-- ==== Sys2Proof/Machine/Pipe.lean ====
section
/-! DEFINITION. Render passes (R317 to R340): the descriptor check, the mesh dispatcher, the binner and its arena, the
rounds of DRAW, and the instructions of the stage waves. -/

namespace Sys2Proof.Machine

open Sys2Proof

/-! ## PASS_DESCRIPTOR_CHECK (R321) -/

/-- A stage record holds what R318 asks for; `task` allows COUNT. -/
def stageOk (k : Cmd) (stage : Nat) : Bool :=
  let o := stageOff stage
  addrOk (k.d o) 2 && 1 ≤ k.b (o + 8) 31 26 && k.b (o + 8) 31 26 ≤ 32 && k.b (o + 8) 25 21 ≤ 16 &&
  1 ≤ k.b (o + 8) 16 9 && k.b (o + 8) 16 9 ≤ 192 && addrOk (k.d (o + 0x10)) 2 &&
  (if stage == 1 then 1 ≤ k.w (o + 0x18) && k.w (o + 0x18) ≤ 2 ^ 24 else k.w (o + 0x18) == 0) &&
  fmtOk (BitVec.ofNat 32 (k.w (o + 0x1C)))

/-- Reserved bits of a stage record. -/
def stageReserved (k : Cmd) (stage : Nat) : Bool :=
  let o := stageOff stage
  k.b (o + 8) 8 0 == 0 && k.b (o + 0x0C) 31 21 == 0

/-- A colour target record holds what R319 asks for; an unused one only keeps its reserved bits zero. -/
def colourOk (k : Cmd) (i : Nat) : Bool :=
  let o := 0x100 + 32 * i
  k.b (o + 0x0C) 31 4 == 0 &&
  (k.ncolor ≤ i ||
    (k.cfmt i ≤ 3 && addrOk (k.d o) 256 && k.w (o + 8) % 256 == 0 && k.width * k.samples * k.colourBytes i ≤ k.w (o + 8) &&
      (List.range 4).all fun j => j < k.colourBytes i / 4 || k.w (o + 0x10 + 4 * j) == 0))

/-- Bytes of the arena's fixed part (R330). -/
def Cmd.arenaFixed (k : Cmd) : Nat := 64 * (k.tileCount + 2)
def Cmd.arenaFree (k : Cmd) : Nat := k.w 0xA8 * 4096 - k.arenaFixed

/-- The descriptor of a pass holds what R321 asks for. -/
def passOk (s : State) (k : Cmd) : Bool :=
  k.b 0 31 28 == 1 && k.b 0 25 24 ≤ 2 && k.b 0 23 22 ≤ 2 && k.ncolor ≤ 8 && k.b 0 17 16 ≤ 2 && k.b 0 15 13 ≤ 4 && k.b 0 9 8 ≤ 2 &&
  k.b 0 7 6 == 0 && 1 ≤ k.width && k.width ≤ 16384 && 1 ≤ k.height && k.height ≤ 16384 && k.b 8 31 8 == 0 && k.b 8 7 0 ≤ 160 &&
  k.w 0x0C == 0 && addrOk (k.d 0x10) 1 && addrOk (k.d 0x18) 64 && addrOk (k.d 0x20) 32 && k.d 0x28 == 0 &&
  (List.range 3).all (fun i => stageReserved k (i + 1)) && stageOk k 2 && stageOk k 3 &&
  (if k.b 0 10 10 == 1 then stageOk k 1 else k.w 0x58 == 0) &&
  addrOk (k.d 0xA0) 4096 && 64 * (k.tileCount + 3) ≤ k.w 0xA8 * 4096 && 1 ≤ k.w 0xAC && addrOk (k.d 0xB0) 4096 &&
  addrOk (k.d 0xB8) 256 && k.w 0xC0 % 256 == 0 && (k.b 0 17 16 != 2 || k.b 0xC4 31 16 == 0) &&
  (List.range 14).all (fun i => k.w (0xC8 + 4 * i) == 0) && (List.range 8).all (colourOk k) &&
  (k.b 0 17 16 != 0 || (k.b 0 15 13 == 4 && k.b 0 12 12 == 0 && k.b 0 11 11 == 0)) &&
  (k.shape 3).scratch ≤ 1310720 && ctxState s k.glade k.ctx == 1

/-- The stages of a pass. -/
def Cmd.stages (k : Cmd) : List Nat := if k.b 0 10 10 == 1 then [1, 2, 3] else [2, 3]

/-- PASS_DESCRIPTOR_CHECK: one step of a pass on its way to WAIT_DEP: its descriptor is read and it is QUEUED; the descriptor is
valid and it is CHECKED; one group of each stage fits (R162, R321, R323). -/
def execPassDescriptorCheck (cmd : Nat) (s : State) : Out := runEvent s do
  let k ← need (s.cmd? cmd) "PASS_DESCRIPTOR_CHECK"
  require (k.isPass && k.faultEnt.isNone) "PASS_DESCRIPTOR_CHECK"
  if k.st == .queued then .ok (if passOk s k then s.updCmd cmd fun k => { k with st := .checked } else endCmd s cmd 1 0)
  else if k.st == .checked then
    .ok (if k.stages.any fun i => !fitsEmpty s k i 1 then endCmd s cmd 5 0 else awaitDeps s cmd k)
  else do
    require (k.st == .reading && ccQuiet s cmd k.glade) "PASS_DESCRIPTOR_CHECK"
    if k.readFail || k.addr.toNat % 256 != 0 then .ok (endCmd s cmd 1 0)
    else match fetchCtx s k.glade 0 k.addr.toNat 512 with
      | .bad => .ok (endCmd s cmd 1 0)
      | .miss a => .ok (awaitPage s cmd k 0 a aRead)
      | .ok x => .ok (s.updCmd cmd fun k => { k with desc := wordsOf 128 x, st := .queued })

/-! ## Accesses of the binner and the rasteriser (R340) -/

/-- How a unit's access to a range ends: it can be made, waits at a fault queue entry, or has no permission. -/
inductive UnitAccess where
  | ok
  | wait (s : State)
  | perm

/-- Looks up every page of a range for a unit of a command. -/
def unitAccess (s : State) (cmd : Nat) (k : Cmd) (kind va n : Nat) : UnitAccess :=
  match missing s k.glade k.ctx va n with
  | some a => .wait (awaitPage s cmd k k.ctx a kind)
  | none =>
    if kind != aWrite then .ok
    else
      let pages := ((List.range ((va % 65536 + n + 65535) / 65536)).map fun i => max va ((va / 65536 + i) * 65536)).filterMap fun a =>
        (walkPage s k.glade k.ctx a).map fun p => (a, p)
      match pages.find? fun (_, p) => p.cow with
      | some (a, _) =>
        let (id, s) := enqueueFault s k.glade k.ctx true kind a k.glade k.ccpc
        .wait (s.updCmd cmd fun k => { k with faultEnt := some id })
      | none => if pages.all fun (_, p) => p.w then .ok else .perm

/-- A unit's access has failed: the pass ends with FAULTED and the cause, unless it is ending already; the tile writes `oid`
are given up (R340). -/
def failUnit (s : State) (cmd cause : Nat) (oid : Option Nat) : State :=
  let s := match oid with
    | some i => dropOp s i
    | none => s
  if (s.cmdD cmd).st == .ending then s.updCmd cmd fun k => { k with faultEnt := none } else endCmd s cmd 7 cause

/-- Makes the accesses of a unit: it goes on, waits, or ends the pass with FAULTED (R340). `oid` are the tile writes it makes. -/
def withAccess (s : State) (cmd : Nat) (k : Cmd) (kind : Nat) (oid : Option Nat) (rs : List (Nat × Nat)) (go : Eff State) : Eff State :=
  match rs with
  | [] => go
  | (va, n) :: t => match unitAccess s cmd k kind va n with
    | .ok => withAccess s cmd k kind oid t go
    | .wait s => .ok s
    | .perm => .ok (failUnit s cmd perm oid)

/-! ## Changing a pass -/

def State.updPass (s : State) (cmd : Nat) (f : PassSt → PassSt) : State := s.updCmd cmd fun k => { k with pass := k.pass.map f }
def State.updTile (s : State) (cmd tile : Nat) (f : TileSt → TileSt) : State :=
  s.updPass cmd fun p => { p with tiles := Tab.upd p.tiles tile f }

/-! ## What the device writes to the arena and the spill region (R330, R337) -/

/-- The bytes of a unit's range at their home. -/
def unitRead (s : State) (k : Cmd) (va n : Nat) : List Byte :=
  (List.range n).map fun i => match readableHome s k.glade k.ctx (va + i) with
    | some h => BitVec.ofNat 8 (getMem s.mem h 1)
    | none => 0

/-- The bytes from an address are still those that the device wrote there. -/
def ArenaPart.intact (x : ArenaPart) (s : State) (k : Cmd) (va : Nat) : Bool :=
  unitRead s k va x.len == (List.range x.len).map fun i => Config.freeByte (x.seed + i)

/-- Keys of the spill region's parts lie above those of the arena's. -/
def spillKey (va : Nat) : Nat := 2 ^ 52 + va

/-- The device writes bytes of its own to the arena (key = address) or the spill region: they are free. Software's change to bytes of
the arena that they replace stays felt (R330, notes/assumptions 122). -/
def devWrite (s : State) (cmd : Nat) (k : Cmd) (key n : Nat) (tiles : List Nat) : State :=
  let va := key % 2 ^ 52
  let p := (s.cmdD cmd).pass.getD {}
  let kept : Bool := match Tab.val? p.arena key with
    | some x => 2 ^ 52 ≤ key || x.intact s k va
    | none => true
  let seed := s.freeCount
  let (bs, s) := s.freeBytes n
  let s := writeBytes s k.glade k.ctx va bs
  s.updPass cmd fun p =>
    { p with arena := Tab.put p.arena key { len := n, seed := if kept then seed else s.freeCount, tiles := tiles } }

/-- An active pass in a phase, with no access of its units waiting. -/
def passIn (s : State) (cmd phase : Nat) (name : String) : Eff (Cmd × PassSt) := do
  let k ← need (s.cmd? cmd) name
  let p ← need k.pass name
  require (k.st == .active && p.phase == phase && k.faultEnt.isNone && ctxRuns s k.glade k.ctx) name
  .ok (k, p)

/-! ## The arena (R330) -/

/-- Bytes of the arena's state, before the first chunks. -/
def arenaState : Nat := 128

/-- The first chunk of a tile's list. -/
def Cmd.firstChunk (k : Cmd) (t : Nat) : Nat := k.d 0xA0 + arenaState + 64 * t

/-- The arena is laid out afresh: the binner's state, on which every tile depends, and an empty first chunk for each list. -/
def layArena (s : State) (cmd : Nat) (k : Cmd) : State :=
  let s := devWrite s cmd k (k.d 0xA0) arenaState []
  let s := (List.range k.tileCount).foldl (fun s t => devWrite s cmd k (k.firstChunk t) 64 [t]) s
  s.updPass cmd fun p => { p with laid := true, chunks := (List.range k.tileCount).map fun t => (t, k.firstChunk t) }

/-- Runs an event of BIN with the arena laid out: the first event after a reset lays it out (notes/assumptions 122). -/
def withArena (s : State) (cmd : Nat) (k : Cmd) (p : PassSt) (go : Eff State) : Eff State :=
  if p.laid then go
  else withAccess s cmd k aWrite none [(k.d 0xA0, k.arenaFixed)] (.ok (layArena s cmd k))

/-! ## Mesh stage (R326 to R328) -/

/-- Records of the mesh queue that no held pop is owed. -/
def meshRecords (s : State) (home : Nat) : Nat := (readQueue s home).used - (queued s home .tqpop).length

/-- MESH_DISPATCH: the dispatcher pops a record, as `tqpop` does, and places a mesh group for it, until the mesh stage closes
(R326). -/
def execMeshDispatch (cmd : Nat) (s : State) : Out := runEvent s do
  let (k, p) ← passIn s cmd 0 "MESH_DISPATCH"
  require (!p.flushing && !p.closed && !k.haltMark) "MESH_DISPATCH"
  let va := k.d 0x18
  withArena s cmd k p <| withAccess s cmd k aWrite none [(va, 64)] do
    let home ← need (readableHome s k.glade k.ctx va) "MESH_DISPATCH"
    let q := readQueue s home
    require (q.ok && meshRecords s home != 0) "MESH_DISPATCH"
    let rva := recordVa q va q.head
    withAccess s cmd k aRead none [(rva, 4 * q.rw)] do
      let ws ← need (getRecord s k.glade k.ctx rva q.rw) "MESH_DISPATCH"
      let b : Block := { cmd := cmd, stage := 2, lin := q.head, record := ws, since := s.now }
      let l ← need (placeAll (fun b => k.shape b.stage) [(0, b)] (openCores s k cmd)) "MESH_DISPATCH"
      require (firstServed s cmd k && !barred s cmd k []) "MESH_DISPATCH"
      let s : State := { s with mem := setMem s.mem (home + 4) 4 ((q.head + 1) % 2 ^ 32) }
      let (id, s) := s.fresh
      let s := putBlock { s with blocks := Tab.put s.blocks id b } cmd k id ((l.headD (0, [])).2)
      .ok (noteHeld s home)

/-- `primemit`: the triangles go to the binner, which accepts them one by one (R327). -/
def execPrimemit (a : BitVec 7) (fa : Bool) (s : State) : Out :=
  issueUnit 4 true s fun s wid eid w f => do
    noControl w
    trapIf (w.stage != 2 || w.meshend) illegalOp
    heldOp s wid eid f .rasterWait do
      let g ← getOpnds s wid w f { v := [{ fd := a.toNat, cnt := 14, tie := fa }] }
      let accs := (lanesOf f.active).map fun l => ({ lane := l, data := vecVal w (g.v.getD 0 0) 14 l } : Acc)
      if accs.isEmpty then .error (.ended (retireUnit s wid eid 4 true f))
      else .ok ({ mkOp wid eid w f .prim none with accs := accs, scr := true }, s)

/-- `meshend` ends the wave's emission (R328). -/
def execMeshend (s : State) : Out :=
  issueUnit 4 true s fun s wid _ w _ => do
    noControl w
    trapIf (w.stage != 2) illegalOp
    .ok (s.updWave wid fun w => { w with meshend := true })

/-- The tiles of a round: those with a list or spill data, or for the last round every tile (R337). -/
def roundTiles (k : Cmd) (p : PassSt) (last : Bool) : Tab TileSt :=
  (List.range k.tileCount).filterMap fun t =>
    if last || (p.tris.any fun r => r.tiles.contains t) || (Tab.val? p.spilled t).isSome then some (t, {}) else none

/-- A group has run and its waves have all ended. -/
def groupEnded (s : State) (b : Block) : Bool := b.st == .done || (!b.waves.isEmpty && b.waves.all fun k => (s.waveD k).over)

/-- All that closes the mesh stage holds together: the task groups have ended, every mesh wave has ended or issued `meshend`, and the
queue holds no record and no held push (R326). -/
def meshOver (s : State) (cmd : Nat) (k : Cmd) (p : PassSt) : Bool :=
  k.st == .active && (p.phase == 0 || p.flushing) &&
  ((cmdBlocks s cmd).all fun (_, b) => b.stage != 1 || groupEnded s b) &&
  ((allWaves s).all fun w => w.control || w.cmd != cmd || w.stage != 2 || w.meshend || w.over) &&
  (match readableHome s k.glade k.ctx (k.d 0x18) with
    | some home => (readQueue s home).used == 0 && (queued s home .tqpush).isEmpty
    | none => false)

/-- The mesh stage closes at the first moment at which it may: from then on the pass takes no record (R326). -/
def noteClosed (s : State) : State :=
  s.cmds.foldl (fun s (c, k) =>
    if k.pass.any fun p => !p.closed && meshOver s c k p then s.updPass c fun p => { p with closed := true } else s) s

/-- MESH_STAGE_CLOSE: the mesh stage has closed and its triangles are binned; DRAW begins the final round (R323, R326, R337). -/
def execMeshStageClose (cmd : Nat) (s : State) : Out := runEvent s do
  let (k, p) ← passIn s cmd 0 "MESH_STAGE_CLOSE"
  withArena s cmd k p do
    require ((p.closed || meshOver s cmd k p) && !p.flushing) "MESH_STAGE_CLOSE"
    require (!(s.ops.any fun (_, o) => o.kind == .prim && (s.blkD o.blk).cmd == cmd)) "MESH_STAGE_CLOSE"
    .ok (s.updPass cmd fun p => { p with phase := 1, closed := true, tiles := roundTiles k p true })

/-! ## The binner (R329, R330, R337) -/

/-- Entries of a tile's list. -/
def listLen (p : PassSt) (t : Nat) : Nat := (p.tris.filter fun r => r.tiles.contains t).length

/-- Free space a binned triangle takes: its record, and a chunk for each list whose last chunk is full (R330). -/
def arenaNeed (p : PassSt) (ts : List Nat) : Nat :=
  64 + 64 * (ts.filter fun t => listLen p t != 0 && listLen p t % 15 == 0).length

/-- A list takes an entry: in its last chunk, or in a new one at `va`, to which the last chunk then links; where the next new
chunk goes (R330). -/
def listEntry (cmd : Nat) (k : Cmd) (p : PassSt) (sv : State × Nat) (t : Nat) : State × Nat :=
  let (s, va) := sv
  let s := devWrite s cmd k (Tab.valD p.chunks t 0) 64 [t]
  if listLen p t != 0 && listLen p t % 15 == 0 then
    ((devWrite s cmd k va 64 [t]).updPass cmd fun p => { p with chunks := Tab.put p.chunks t va }, va + 64)
  else (s, va)

/-- A binned triangle enters the arena: its record at `va`, its list entries, and the binner's state (R330). -/
def enterArena (s : State) (cmd : Nat) (k : Cmd) (p : PassSt) (va : Nat) (ts : List Nat) : State :=
  let s := devWrite s cmd k (k.d 0xA0) arenaState []
  (ts.foldl (listEntry cmd k p) (devWrite s cmd k va 64 ts, va + 64)).1

/-- The next lane of an operation has been taken by the binner; the last one ends the operation. -/
def nextLane (s : State) (oid : Nat) (o : Op) : State :=
  if o.stage + 1 < o.accs.length then s.updOp oid fun o => { o with stage := o.stage + 1 }
  else releaseHeld (completeOp s oid) o.wid o.eid

/-- BINNER_ACCEPT: the next triangle of a `primemit` is discarded or binned; one that does not fit in the arena begins a
flush (R329, R330, R337). -/
def execBinnerAccept (op : Nat) (s : State) : Out := runEvent s do
  let o ← need (s.op? op) "BINNER_ACCEPT"
  require (o.kind == .prim) "BINNER_ACCEPT"
  let cmd := (s.blkD o.blk).cmd
  let (k, p) ← passIn s cmd 0 "BINNER_ACCEPT"
  require (!p.flushing && p.first.all fun j => j == op || (s.op? j).isNone) "BINNER_ACCEPT"
  require (!(s.ops.any fun (j, q) => j < op && q.wid == o.wid && q.kind == .prim)) "BINNER_ACCEPT"
  let ws := wordsOf 14 (o.accs.getD o.stage {}).data
  withArena s cmd k p <| match k.binTiles ws with
  | none => .ok (nextLane (s.updPass cmd fun p => { p with discarded := p.discarded + 1 }) op o)
  | some ts =>
    let need' := arenaNeed p ts
    if k.arenaFree < p.used + need' then
      .ok (s.updPass cmd fun p => { p with flushing := true, first := some op, phase := 1, tiles := roundTiles k p false })
    else
      let va := k.d 0xA0 + k.arenaFixed + p.used
      withAccess s cmd k aWrite none ((k.d 0xA0, arenaState) :: (va, need') :: ts.map fun t => (Tab.valD p.chunks t 0, 64)) do
        let s := enterArena s cmd k p va ts
        let r : Tri := { ord := p.binned, words := ws, tiles := ts }
        .ok (nextLane (s.updPass cmd fun p =>
          { p with tris := p.tris ++ [r], drawn := Tab.put p.drawn r.ord r, used := p.used + need', binned := p.binned + 1,
                   first := none }) op o)

/-! ## Tiles (R331, R335, R336) -/

/-- Bytes of a pixel row of a tile in a target: address and length, for each row in the render area. -/
def rowSpans (k : Cmd) (tile base pitch bytes : Nat) : List (Nat × Nat) :=
  let w := min k.edge (k.width - k.tileX tile)
  (List.range (min k.edge (k.height - k.tileY tile))).map fun r =>
    (base + (k.tileY tile + r) * pitch + k.tileX tile * k.samples * bytes, w * k.samples * bytes)

/-- Base, pitch and bytes of the depth target and of a colour target. -/
def Cmd.depthTarget (k : Cmd) : Nat × Nat × Nat := (k.d 0xB8, k.w 0xC0, k.depthBytes)
def Cmd.colourTarget (k : Cmd) (i : Nat) : Nat × Nat × Nat := (k.d (0x100 + 32 * i), k.w (0x108 + 32 * i), k.colourBytes i)

def targetSpans (k : Cmd) (tile : Nat) (t : Nat × Nat × Nat) : List (Nat × Nat) := rowSpans k tile t.1 t.2.1 t.2.2

/-- Address of a sample in a target (R319). -/
def sampleVa (k : Cmd) (t : Nat × Nat × Nat) (px py smp : Nat) : Nat := t.1 + py * t.2.1 + (px * k.samples + smp) * t.2.2

/-- `n` bytes of a context as a core reads them. -/
def coreRead (s : State) (core g c va n : Nat) : Nat := match readableHome s g c va with
  | some h => homeUnderDirty s core g c va h n
  | none => 0

/-- Samples of a tile in the render area: index, pixel coordinates, sample. -/
def tileSamples (k : Cmd) (tile : Nat) : List (Nat × Nat × Nat × Nat) :=
  (k.pixels tile).flatMap fun pix => (List.range k.samples).map fun i =>
    (pix * k.samples + i, k.tileX tile + pix % k.edge, k.tileY tile + pix / k.edge, i)

/-- Sets the words of a colour sample. -/
def TileSt.setColour (t : TileSt) (smp tgt : Nat) (ws : List Word) : TileSt :=
  { t with colour := (ws.zipIdx).foldl (fun c (v, j) => Tab.put c (colourKey smp tgt j) v) t.colour }
/-- The words of a colour sample, as a number. -/
def TileSt.getColour (t : TileSt) (smp tgt n : Nat) : Nat :=
  ofWords ((List.range n).map fun j => Tab.valD t.colour (colourKey smp tgt j) 0)

/-- Bytes of a spill log. -/
def logBytes (l : List (Nat × Nat)) : Nat := (l.map (·.2)).foldl (· + ·) 0

/-- A log's records with their offsets: offset, tile, bytes. -/
def logPlaces : Nat → List (Nat × Nat) → List (Nat × Nat × Nat)
  | _, [] => []
  | o, (t, n) :: l => (o, t, n) :: logPlaces (o + n) l

/-- A tile's latest record in the spill log: address and length, none where it takes no byte (R337). -/
def spillSpan (k : Cmd) (p : PassSt) (tile : Nat) : List (Nat × Nat) :=
  match ((logPlaces 0 p.log).filter fun e => e.2.1 == tile).getLast? with
  | some (o, _, n) => if n == 0 then [] else [(k.d 0xB0 + o, n)]
  | none => []

/-- The bytes of a tile's spill record are still those that the device wrote. -/
def spillIntact (s : State) (k : Cmd) (p : PassSt) (tile : Nat) : Bool :=
  (spillSpan k p tile).all fun (va, _) => (Tab.val? p.arena (spillKey va)).all fun x => x.intact s k va

/-- What a tile's slot is filled from (R331). -/
def fillSpans (k : Cmd) (p : PassSt) (tile : Nat) : List (Nat × Nat) :=
  let sp := (Tab.val? p.spilled tile).isSome
  (if sp then spillSpan k p tile else []) ++
  (if !sp && k.b 0 11 11 == 1 then targetSpans k tile k.depthTarget else []) ++
  (List.range k.ncolor).flatMap fun i => if sp || k.b (0x10C + 32 * i) 3 3 == 1 then targetSpans k tile (k.colourTarget i) else []

/-- Depth and visibility of every sample of a tile are free words from `seed` (R330, notes/assumptions 122). -/
def TileSt.unknown (k : Cmd) (seed : Nat) (t : TileSt) : TileSt :=
  let n := k.edge * k.edge * k.samples
  { t with depth := (List.range n).map fun i => (i, Config.freeWord (seed + i)),
           vis := (List.range n).map fun i => (i, Config.freeWord (seed + n + i)) }

/-- A tile's slot as the rasteriser fills it (R331). -/
def fillTile (s : State) (core : Nat) (k : Cmd) (p : PassSt) (tile : Nat) (t : TileSt) : TileSt :=
  let sp := Tab.val? p.spilled tile
  let ss := tileSamples k tile
  let rd := fun va n => coreRead s core k.glade k.ctx va n
  let t := match sp with
    | some x => if spillIntact s k p tile then { t with depth := x.depth, vis := x.vis } else t.unknown k s.freeCount
    | none =>
      if k.b 0 17 16 == 0 then { t with depth := [], vis := [] }
      else
        let dv := fun (px py i : Nat) => if k.b 0 11 11 == 1 then rd (sampleVa k k.depthTarget px py i) k.depthBytes else k.w 0xC4
        { t with depth := ss.map fun (j, px, py, i) => (j, BitVec.ofNat 32 (dv px py i)), vis := [] }
  (List.range k.ncolor).foldl (fun t i =>
    let n := k.colourBytes i
    let load := sp.isSome || k.b (0x10C + 32 * i) 3 3 == 1
    ss.foldl (fun t (j, px, py, m) =>
      let x := if load then rd (sampleVa k (k.colourTarget i) px py m) n
        else ofWords ((List.range 4).map fun q => BitVec.ofNat 32 (k.w (0x110 + 32 * i + 4 * q)))
      t.setColour j i (wordsOf (n / 4) x)) t) t

/-- Tiles of a group in a slot. -/
def groupTiles (p : PassSt) (blk : Nat) : List (Nat × TileSt) := p.tiles.filter fun (_, t) => t.grp == blk && 1 ≤ t.st && t.st ≤ 3

/-- TILE_RASTERISE: the next tile goes to a group with a free slot, which is filled (R331). -/
def execTileRasterise (cmd blk : Nat) (s : State) : Out := runEvent s do
  let (k, p) ← passIn s cmd 1 "TILE_RASTERISE"
  let b ← need (s.blk? blk) "TILE_RASTERISE"
  let (tile, t) ← need (p.tiles.find? fun (_, t) => t.st == 0) "TILE_RASTERISE"
  let held := groupTiles p blk
  require (b.cmd == cmd && b.stage == 3 && b.st == .running && held.length < 2 && held.all fun (_, t) => t.st != 1) "TILE_RASTERISE"
  withAccess s cmd k aRead none (fillSpans k p tile) do
    let slot := if held.any fun (_, t) => t.slot == 0 then 1 else 0
    let t := fillTile s (b.cores.headD 0) k p tile t
    let s := { s with freeCount := s.freeCount + 2 ^ 16 }
    .ok ((refreshSlot s k blk slot).updTile cmd tile fun _ => { t with st := 1, grp := blk, core := b.cores.headD 0, slot := slot })

/-- The group of a tile stands on its core. -/
def groupStands (s : State) (t : TileSt) : Bool := (s.blkD t.grp).st == .running || (s.blkD t.grp).st == .finishing

/-- The group of a tile has ended before its tile: block termination ended it (R371). -/
def groupGone (s : State) (t : TileSt) : Bool := (s.blkD t.grp).st == .done

/-- Parts of the arena that hold a tile's list: addresses and lengths. -/
def listParts (p : PassSt) (tile : Nat) : List (Nat × ArenaPart) :=
  p.arena.filter fun (a, x) => a < 2 ^ 52 && (x.tiles.isEmpty || x.tiles.contains tile)

/-- A tile after its list has been rasterised; where software has written to the arena's part of it, its depth and visibility are
free (R330). -/
def drawTile (s : State) (k : Cmd) (p : PassSt) (tile : Nat) (t : TileSt) : TileSt :=
  if (listParts p tile).all fun (a, x) => x.intact s k a then rasterTile k tile p.tris t else t.unknown k s.freeCount

/-- TILE_RASTER_END: the tile's list has been rasterised and its items are formed (R332, R333). -/
def execTileRasterEnd (cmd tile : Nat) (s : State) : Out := runEvent s do
  let (k, p) ← passIn s cmd 1 "TILE_RASTER_END"
  let t ← need (Tab.val? p.tiles tile) "TILE_RASTER_END"
  require (t.st == 1 && (groupStands s t || groupGone s t)) "TILE_RASTER_END"
  withAccess s cmd k aRead none ((listParts p tile).map fun (a, x) => (a, x.len)) do
    let t := drawTile s k p tile t
    let s := { s with freeCount := s.freeCount + 2 ^ 16 }
    let items := tileItems k p tile t s.freeCount
    let s := { s with freeCount := s.freeCount + 128 * (k.edge * k.edge + 1) }
    .ok ((refreshSlot s k t.grp t.slot).updTile cmd tile fun _ => { t with st := 2, items := items })

/-! ## Resolve waves (R334, R335) -/

/-- The pass of a resolve wave. -/
def resolvePass (s : State) (w : Wave) : Eff (Cmd × PassSt) := do
  noControl w
  trapIf (w.stage != 3) illegalOp
  match (s.cmdD w.cmd).pass with
  | some p => .ok (s.cmdD w.cmd, p)
  | none => trap illegalOp

/-- The round has no items left. -/
def roundOver (p : PassSt) : Bool := p.tiles.all fun (_, t) => 2 ≤ t.st && t.items.isEmpty

/-- The group's oldest tile with items left, or still to form them. -/
def oldestTile (p : PassSt) (blk : Nat) : Option (Nat × TileSt) :=
  (groupTiles p blk).find? fun (_, t) => t.st == 1 || (t.st == 2 && !t.items.isEmpty)

/-- The lanes give up their items (R334). -/
def Wave.giveUp (w : Wave) (m : Word) : Wave := { w with items := w.items.filter fun e => !m.getLsbD e.1 }

/-- The words of an item as `rsget` writes them: END once the round has no items left (R334). -/
def Item.result (x : Item) (last : Bool) : List Word :=
  (x.words.zipIdx).map fun (v, i) => if last && i == 1 then v ||| 64#32 else v

/-- Gives items to the active lanes in order: words written and items held (R334). -/
def giveItems (s : State) (wid d : Nat) (act : Word) (items : List Item) (last : Bool) : State :=
  let ls := (lanesOf act).zipIdx
  let hand := fun (t : Tab Item) => ls.foldl (fun t (l, i) => match items[i]? with
    | some x => Tab.put t l x
    | none => Tab.del t l) t
  let s := s.updWave wid fun w => { w with items := hand w.items }
  writeV s wid d 8 act fun l => match ls.find? fun (m, _) => m == l with
    | some (_, i) => match items[i]? with
      | some x => x.result last
      | none => [0, if last then 64 else 0, 0, 0, 0, 0, 0, 0]
    | none => []

/-- An `rsget` that finds no items yet has issued: its lanes have given up theirs (R336, notes/assumptions 120). -/
def awaitItems (s : State) (wid eid : Nat) (w : Wave) (f : Frag) : Eff State :=
  .error (.hold .rasterWait ((s.setWave wid (w.giveUp f.active)).updFrag wid eid fun f => { f with held := some (heldOr s f .none 9 0 0) }))

/-- `rsget` (R334). -/
def execRsget (d : BitVec 7) (s : State) : Out :=
  issueUnit 4 true s fun s wid eid w f => do
    let (_, p) ← resolvePass s w
    let g ← getOpnds s wid w f { vd := some (d.toNat, 8, false) }
    if f.active == 0 then .ok s
    else match oldestTile p w.blk with
      | some (tile, t) =>
        if t.st == 1 then awaitItems s wid eid w f
        else
          let n := popc 32 f.active.toNat
          let s := s.updTile w.cmd tile fun t => { t with items := t.items.drop n }
          let last := roundOver (((s.cmdD w.cmd).pass).getD {})
          .ok (giveItems s wid g.vd f.active (t.items.take n) last)
      | none => if roundOver p then .ok (giveItems s wid g.vd f.active [] true) else awaitItems s wid eid w f

/-- The pixel index and coverage of an item. -/
def Item.pixel (x : Item) (k : Cmd) : Nat :=
  let a := (x.words.headD 0)
  (fld a 31 16 - k.tileY x.tile) * k.edge + (fld a 15 0 - k.tileX x.tile)
def Item.samples (x : Item) : List Nat := (List.range 4).filter fun i => (x.words.getD 1 0).getLsbD i

/-- `rtwrite` (R335). -/
def execRtwrite (a : BitVec 7) (fa : Bool) (n : BitVec 3) (s : State) : Out :=
  issueUnit 4 true s fun s wid _ w f => do
    let (k, _) ← resolvePass s w
    trapIf (decide (k.ncolor ≤ n.toNat)) illegalOp
    let c := k.colourBytes n.toNat / 4
    let g ← getOpnds s wid w f { v := [{ fd := a.toNat, cnt := c, tie := fa }] }
    .ok ((lanesOf f.active).foldl (fun s l => match Tab.val? w.items l with
      | none => s
      | some x =>
        let s := refreshSlot s k w.blk (Tab.valD ((s.cmdD w.cmd).pass.getD {}).tiles x.tile {}).slot
        s.updTile w.cmd x.tile fun t => x.samples.foldl (fun t i =>
          t.setColour (x.pixel k * k.samples + i) n.toNat ((range (g.v.getD 0 0) c).map fun r => w.vreg r l)) t)
      (publish s w.blk))

/-- `rtread` (R335). -/
def execRtread (d : BitVec 7) (n : BitVec 3) (s : State) : Out :=
  issueUnit 4 true s fun s wid _ w f => do
    let (k, p) ← resolvePass s w
    trapIf (decide (k.ncolor ≤ n.toNat)) illegalOp
    let c := k.colourBytes n.toNat / 4
    let g ← getOpnds s wid w f { vd := some (d.toNat, c, false) }
    .ok (writeV s wid g.vd c f.active fun l => wordsOf c (match Tab.val? w.items l with
      | none => 0
      | some x => (Tab.valD p.tiles x.tile {}).getColour (x.pixel k * k.samples + x.samples.headD 0) n.toNat c))

/-! ## Release (R336, R337) -/

/-- A wave that has not ended holds an item of a tile. -/
def tileHeld (s : State) (cmd tile : Nat) : Bool :=
  (allWaves s).any fun w => !w.control && w.cmd == cmd && !w.over && w.items.any fun (_, x) => x.tile == tile

/-- The log without superseded records: a tile's latest stays. -/
def compact : List (Nat × Nat) → List (Nat × Nat)
  | [] => []
  | e :: t => if t.any fun x => x.1 == e.1 then compact t else e :: compact t

/-- Appends a record to the log, compacting where it does not fit: the new log and whether it was compacted; none where the
record still does not fit. The tile's own record in the log counts as its latest until the new one is in it (notes/assumptions
122). -/
def appendLog (room : Nat) (l : List (Nat × Nat)) (tile n : Nat) : Option (List (Nat × Nat) × Bool) :=
  if logBytes l + n ≤ room then some (l ++ [(tile, n)], false)
  else if logBytes (compact l) + n ≤ room then some (compact l ++ [(tile, n)], true)
  else none

/-- Compaction moves the records that have landed to their new places. -/
def moveRecords (s : State) (cmd : Nat) (k : Cmd) (l : List (Nat × Nat)) : State :=
  (logPlaces 0 l).foldl (fun s (o, t, n) =>
    if n == 0 || s.ops.any fun (_, x) => x.kind == .tile && x.slot == cmd && x.stage == t then s
    else devWrite s cmd k (spillKey (k.d 0xB0 + o)) n [t]) s

/-- The spans a released tile is written to. -/
def releaseSpans (k : Cmd) (tile : Nat) : List (Nat × Nat) :=
  ((List.range k.ncolor).flatMap fun i => targetSpans k tile (k.colourTarget i)) ++
  (if k.b 0 12 12 == 1 then targetSpans k tile k.depthTarget else [])

/-- Every span that the writes of a released tile reach: its targets, and in a flush round its spill record (R336, R337). -/
def landSpans (k : Cmd) (p : PassSt) (tile : Nat) : List (Nat × Nat) :=
  releaseSpans k tile ++ (if p.flushing then spillSpan k p tile else [])

/-- A released tile's writes, where it makes any, are on their way, tagged at the release (R336). -/
def sendTile (s : State) (cmd tile : Nat) (t : TileSt) : State :=
  let core := (s.blkD t.grp).cores.headD t.core
  let (id, s) := s.fresh
  let k := s.cmdD cmd
  let writes := !(landSpans k (k.pass.getD {}) tile).isEmpty
  let o : Op := { kind := .tile, wid := 2 ^ 40, core := core, glade := k.glade, ctx := k.ctx,
                  tag := if writes then some (s.coreSt core).view else none, slot := cmd, stage := tile, issued := s.now }
  { s with ops := Tab.put s.ops id o }.updTile cmd tile fun t => { t with st := 3 }

/-- TILE_RELEASE: every item has been handed out and given up; the tile is written, and in a flush round spilled; a record
that does not fit ends the pass with SPILL_SHORT (R336, R337). The items that a terminated group leaves are given up (R371,
notes/assumptions 143). -/
def execTileRelease (cmd tile : Nat) (s : State) : Out := runEvent s do
  let (k, p) ← passIn s cmd 1 "TILE_RELEASE"
  let t ← need (Tab.val? p.tiles tile) "TILE_RELEASE"
  require (t.st == 2 && !tileHeld s cmd tile && ((t.items.isEmpty && groupStands s t) || groupGone s t)) "TILE_RELEASE"
  if !p.flushing then .ok (sendTile s cmd tile t)
  else match appendLog (k.w 0xAC * 4096) p.log tile (Config.spillSize (t.depth ++ t.vis)) with
    | none => .ok (endCmd s cmd 0x10 0)
    | some (l, moved) =>
      let go : Eff State :=
        let s := s.updPass cmd fun p => { p with log := l, spilled := Tab.put p.spilled tile { depth := t.depth, vis := t.vis } }
        .ok (sendTile (if moved then moveRecords s cmd k (l.dropLast) else s) cmd tile t)
      withAccess s cmd k aWrite none (if moved then [(k.d 0xB0, logBytes l)] else []) go

/-- Writes a target of a tile. -/
def writeTarget (s : State) (k : Cmd) (tile : Nat) (tg : Nat × Nat × Nat) (val : Nat → Nat) : State :=
  (tileSamples k tile).foldl (fun s (j, px, py, i) => writeBytes s k.glade k.ctx (sampleVa k tg px py i) (toBytes tg.2.2 (val j))) s

/-- The 128-byte lines of ranges. -/
def spanLines (rs : List (Nat × Nat)) : List Nat :=
  (rs.flatMap fun (va, n) => (List.range ((va % 128 + n + 127) / 128)).map fun i => lineOf va + 128 * i).eraseDups

/-- TILE_WRITES_LANDED: every sample of the tile lands in its targets, its depth with DSTORE, and in a flush round its
spill record; its slot is free (R336). -/
def execTileWritesLanded (cmd tile : Nat) (s : State) : Out := runEvent s do
  let k ← need (s.cmd? cmd) "TILE_WRITES_LANDED"
  let p ← need k.pass "TILE_WRITES_LANDED"
  let t ← need (Tab.val? p.tiles tile) "TILE_WRITES_LANDED"
  let (oid, o) ← need (s.ops.find? fun (_, o) => o.kind == .tile && o.slot == cmd && o.stage == tile) "TILE_WRITES_LANDED"
  require (t.st == 3 && k.faultEnt.isNone) "TILE_WRITES_LANDED"
  let spans := landSpans k p tile
  withAccess s cmd k aWrite (some oid) spans do
    let s := (spanLines spans).foldl (fun s l => dropLine s o.core o.glade o.ctx l) s
    let s := (List.range k.ncolor).foldl (fun s i =>
      writeTarget s k tile (k.colourTarget i) fun j => t.getColour j i (k.colourBytes i / 4)) s
    let s := if k.b 0 12 12 == 1 then writeTarget s k tile k.depthTarget fun j => (t.depthOf j).toNat else s
    let s := (if p.flushing then spillSpan k p tile else []).foldl (fun s (va, n) => devWrite s cmd k (spillKey va) n [tile]) s
    let s := countBytes s o.glade (k.slotSize)
    let s := s.updPass cmd fun p => { p with wrote := p.wrote || !spans.isEmpty }
    .ok ({ s with ops := Tab.del s.ops oid }.updTile cmd tile fun t => { t with st := 4, depth := [], vis := [], colour := [] })

/-- FLUSH_ROUND_END: every tile of the round has been written and its groups have ended: BIN resumes after a flush, and the
pass ends after the final round (R323, R337). -/
def execFlushRoundEnd (cmd : Nat) (s : State) : Out := runEvent s do
  let (_, p) ← passIn s cmd 1 "FLUSH_ROUND_END"
  require (p.tiles.all fun (_, t) => t.st == 4) "FLUSH_ROUND_END"
  require ((cmdBlocks s cmd).all fun (_, b) => b.stage != 3 || b.st == .done) "FLUSH_ROUND_END"
  .ok (s.updPass cmd fun p =>
    if p.flushing then { p with phase := 0, flushing := false, flushes := p.flushes + 1, round := p.round + 1, used := 0,
                                tris := [], tiles := [], laid := false, chunks := [],
                                arena := p.arena.filter fun e => 2 ^ 52 ≤ e.1 }
    else { p with phase := 2, tiles := [] })

/-! ## The end of a pass (R322, R338) -/

/-- The pass witness (R338): null where the pass stored nothing; its epoch is the one in force when the last covered store had
landed. -/
def passWitness (s : State) (k : Cmd) : DWord :=
  if (k.pass.any fun p => p.wrote) || k.wit != 0 then
    mkWit 2 k.glade 0 ((k.pass.bind fun p => p.landed).getD (s.gladeSt k.glade).epoch)
  else 0

/-- The pass has run its last round or ended otherwise, its groups are done, and every covered store has landed (R322, R338). -/
def passLanded (s : State) (cmd : Nat) (k : Cmd) : Bool :=
  k.isPass && (k.st == .ending || (k.st == .active && k.pass.any fun p => p.phase == 2)) &&
  ((cmdBlocks s cmd).all fun (_, b) => b.st == .done) &&
  !(s.ops.any fun (_, o) => o.kind == .tile && o.slot == cmd) && coveredLanded s k.glade k.wit

/-- Every covered store that a pass has made has landed: its tiles' writes, and its stage waves' global stores (R338). -/
def passQuiet (s : State) (cmd : Nat) (k : Cmd) : Bool :=
  !(s.ops.any fun (_, o) => o.kind == .tile && o.slot == cmd && o.tag.isSome) &&
  coveredLanded s k.glade (((allWaves s).filter fun w => !w.control && w.cmd == cmd).foldl (fun p w => wMerge p w.sw) k.wit)

/-- Notes the epoch at which the last covered store of a pass has landed (R338, notes/assumptions 144). -/
def noteLanded (s : State) : State :=
  s.cmds.foldl (fun s (c, k) => match k.pass with
    | none => s
    | some p =>
      if !passQuiet s c k then (if p.pending then s else s.updPass c fun p => { p with pending := true })
      else if p.pending then s.updPass c fun p => { p with pending := false, landed := some (s.gladeSt k.glade).epoch }
      else s) s

/-- PASS_STATUS_WRITE: the pass has ended and every covered store has landed; the status record is written and the
destination receives the pass witness (R162, R322). -/
def execPassStatusWrite (cmd : Nat) (s : State) : Out := runEvent s do
  let k ← need (s.cmd? cmd) "PASS_STATUS_WRITE"
  let p := k.pass.getD {}
  require (passLanded s cmd k) "PASS_STATUS_WRITE"
  let wit := passWitness s k
  let (st, det) := gridStatus k
  let ws : List Word := [BitVec.ofNat 32 (st + det * 2 ^ 8), BitVec.ofNat 32 k.seq, BitVec.ofNat 32 p.flushes,
    BitVec.ofNat 32 p.binned, BitVec.ofNat 32 p.discarded, 0, wit.extractLsb' 0 32, wit.extractLsb' 32 32]
  let s := deliverCmd s k [wit.extractLsb' 0 32, wit.extractLsb' 32 32]
  let va := k.d 0x20
  let s := if k.desc.isEmpty || !addrOk va 32 then s else writeBytes s k.glade k.ctx va (toBytes 32 (ofWords ws))
  .ok (dropCmd s cmd)

end Sys2Proof.Machine
end

