-- ==== Sys2Proof/Machine/Ray.lean ====
section
/-! DEFINITION. The ray unit (R341 to R348). The order in which children are visited, on which only the counts of a hit
record and the meeting of bad nodes can depend, is a free value (notes/assumptions 18). -/

namespace Sys2Proof.Machine

open Sys2Proof

/-! ## Rays (R343, R346) -/

/-- A component of a ray of eight words: 0 to 2 origin, 3 tmin, 4 to 6 direction, 7 tmax. -/
def rayWord (r : Nat) (i : Nat) : Word := (wordsOf 8 r).getD i 0
def rayFx (r i : Nat) : Int := fx (rayWord r i)
def rayInf (r i : Nat) : Bool := match unpack FP32 (rayWord r i).toNat with
  | .inf _ => true
  | _ => false
def rayNan (r i : Nat) : Bool := (unpack FP32 (rayWord r i).toNat).isNan

/-- FP32 values compared, −0 as +0; false with a NaN. -/
def fle (a b : Word) : Bool := (fcompare FP32 3 a.toNat b.toNat).1
def flt (a b : Word) : Bool := (fcompare FP32 2 a.toNat b.toNat).1

/-- BAD_RAY of R346. -/
def badRay (r : Nat) : Bool :=
  (List.range 8).any (rayNan r) || (List.range 3).any (rayInf r) ||
  ((List.range 3).all fun i => rayFx r (4 + i) == 0 && !rayInf r (4 + i)) ||
  flt (rayWord r 3) 0 || flt (rayWord r 7) (rayWord r 3)

/-! ## Boxes (R344) -/

/-- FP32 bits of ±infinity. -/
def infWord (neg : Bool) : Word := if neg then 0xFF800000#32 else 0x7F800000#32

/-- (b − o) / d rounded down or up. -/
def slabBound (up : Bool) (b : Word) (o d : Int) : Word := match unpack FP32 b.toNat with
  | .num _ _ _ => roundRat (if up then 3 else 2) (fx b - o) d 0
  | v => infWord (v.isNeg != (d < 0))

/-- The slab of an axis along which the direction is finite: its bounds, or none where it is empty. -/
def slab (lo hi : Word) (o d : Int) : Option (Word × Word) :=
  if d == 0 then
    let at' := roundRat 0 o 1 (-149)
    if fle lo at' && fle at' hi then some (infWord true, infWord false) else none
  else if 0 < d then some (slabBound false lo o d, slabBound true hi o d)
  else some (slabBound false hi o d, slabBound true lo o d)

/-- The box test: a hit within [tmin, t*]. Of an infinite direction component R344 states no slab: where the other axes leave a hit
possible the result is the free value `guess` (notes/assumptions 18). -/
def boxHit (r : Nat) (box : List Word) (tstar : Word) (guess : Bool) : Bool :=
  let c := fun i => box.getD i 0
  if (List.range 6).any fun i => (unpack FP32 (c i).toNat).isNan then false
  else if (List.range 3).any fun i => flt (c (3 + i)) (c i) then false
  else
    let axes := (List.range 3).filter fun i => !rayInf r (4 + i)
    let ss := axes.map fun i => slab (c i) (c (3 + i)) (rayFx r i) (rayFx r (4 + i))
    if ss.any fun x => x.isNone then false
    else
      let bounds := ss.filterMap id
      let lows := rayWord r 3 :: bounds.map (·.1)
      let highs := tstar :: bounds.map (·.2)
      (axes.length == 3 || guess) && lows.all fun a => highs.all fun b => fle a b

/-! ## Leaves (R345) -/

/-- A vertex coordinate of a leaf relative to the origin, in units of 2^-149. -/
def leafRel (r : Nat) (leaf : List Word) (v c : Nat) : Int := fx (leaf.getD (3 * v + c) 0) - rayFx r c

/-- d · (a × b) for two vertices relative to the origin. -/
def tripleAt (r : Nat) (leaf : List Word) (a b : Nat) : Int :=
  let p := leafRel r leaf a
  let q := leafRel r leaf b
  let d := fun i => rayFx r (4 + i)
  d 0 * (p 1 * q 2 - p 2 * q 1) + d 1 * (p 2 * q 0 - p 0 * q 2) + d 2 * (p 0 * q 1 - p 1 * q 0)

/-- The axis of the largest direction component, the lowest of equals. -/
def bigAxis (r : Nat) : Nat :=
  let m := fun i => (rayFx r (4 + i)).natAbs
  if m 1 ≤ m 0 && m 2 ≤ m 0 then 0 else if m 2 ≤ m 1 then 1 else 2

/-- The fill rule for a zero weight of vertex `i`, in the plane normal to the largest axis. -/
def edgeFill (r : Nat) (leaf : List Word) (i : Nat) : Bool :=
  let ax := bigAxis r
  let u := fun v => leafRel r leaf v ((ax + 1) % 3)
  let w := fun v => leafRel r leaf v ((ax + 2) % 3)
  let area := (u 1 - u 0) * (w 2 - w 0) - (u 2 - u 0) * (w 1 - w 0)
  topLeft area (w ((i + 1) % 3)) (w ((i + 2) % 3)) (w i)

/-- A hit of a leaf: t, weights, and the back face. -/
structure LeafHit where
  t : Word
  b1 : Word
  b2 : Word
  back : Bool

/-- The hit of a leaf's triangle before tmin and t* are compared. -/
def leafHit (r : Nat) (leaf : List Word) : Option LeafHit :=
  let u := tripleAt r leaf 2 1
  let v := tripleAt r leaf 0 2
  let w := tripleAt r leaf 1 0
  let det := u + v + w
  let share := fun (e : Int) (i : Nat) => if e == 0 then edgeFill r leaf i else decide (0 < e) == decide (0 < det)
  let flags := leaf.getD 11 0
  if det == 0 || !share u 0 || !share v 1 || !share w 2 then none
  else if (det < 0 && flags.getLsbD 0) || (0 < det && flags.getLsbD 1) then none
  else
    let d := fun i => rayFx r (4 + i)
    let dd := d 0 * d 0 + d 1 * d 1 + d 2 * d 2
    let num := ((List.range 3).map fun i =>
      (u * leafRel r leaf 0 i + v * leafRel r leaf 1 i + w * leafRel r leaf 2 i) * d i).foldl (· + ·) 0
    some { t := roundRat 0 num (det * dd) 0, b1 := roundRat 0 v det 0, b2 := roundRat 0 w det 0, back := decide (det < 0) }

/-! ## Traversal (R341 to R344) -/

/-- Where a traversal stands: the closest hit so far with its leaf's address and words, counts, a bad node, a value the
specification does not state, an address with no translation, and the lines read, latest first. -/
structure Walker where
  hit : Option (LeafHit × Nat × List Word) := none
  boxes : Nat := 0
  leaves : Nat := 0
  bad : Bool := false
  openVal : Bool := false
  miss : Option Nat := none
  read : List Nat := []

/-- t*: the closest accepted hit, or tmax. -/
def Walker.tstar (x : Walker) (r : Nat) : Word := match x.hit with
  | some (h, _, _) => h.t
  | none => rayWord r 7

/-- The traversal goes no further. -/
def Walker.stop (x : Walker) : Bool := x.bad || x.openVal || x.miss.isSome

/-- Reads words at an address, if it translates. -/
abbrev Reader := Nat → Nat → Option (List Word)

/-- Tests one leaf. Of a vertex or a direction that is not finite R345 states no result. -/
def testLeaf (rd : Reader) (r va : Nat) (x : Walker) : Walker :=
  if x.stop then x
  else match rd va 12 with
    | none => { x with miss := some va }
    | some leaf =>
      let x := { x with leaves := x.leaves + 1, read := lineOf (va + 47) :: lineOf va :: x.read }
      if fld (leaf.getD 11 0) 31 2 != 0 then { x with bad := true }
      else if ((List.range 3).any fun i => rayInf r (4 + i)) || !((List.range 9).all fun i => finite (leaf.getD i 0)) then
        { x with openVal := true }
      else match leafHit r leaf with
        | none => x
        | some h =>
          let nearer : Bool := match x.hit with
            | none => true
            | some (h', va', _) => flt h.t h'.t || (fle h.t h'.t && va < va')
          if fle (rayWord r 3) h.t && fle h.t (rayWord r 7) && nearer then { x with hit := some (h, va, leaf) } else x

/-- Fields of a child reference. -/
def refType (x : Nat) : Nat := bitsOf x 63 62
def refAddr (x : Nat) : Nat := bitsOf x 51 4 * 16
def refCount (x : Nat) : Nat := bitsOf x 3 0

/-- BAD_NODE of a reference. -/
def badRef (x : Nat) : Bool :=
  refType x == 3 || bitsOf x 61 52 != 0 || (refType x ≤ 1 && refCount x != 0) || (refType x == 1 && refAddr x % 128 != 0)

/-- The four children in the order number `n` gives. -/
def childOrder (n : Nat) : List Nat :=
  let a := n % 4
  let r1 := (List.range 4).filter (· != a)
  let b := r1.getD (n / 4 % 3) 0
  let r2 := r1.filter (· != b)
  let c := r2.getD (n / 12 % 2) 0
  [a, b, c] ++ r2.filter (· != c)

/-- Visits a box node with `depth` more levels allowed. -/
def visitBox (rd : Reader) (order : Nat → Nat) (r : Nat) : Nat → Nat → Walker → Walker
  | 0, _, x => { x with bad := true }
  | n + 1, va, x =>
    if x.stop then x
    else match rd va 32 with
      | none => { x with miss := some va }
      | some ws =>
        (childOrder (order va)).foldl (fun x i =>
          let ref := (ws.getD (24 + 2 * i) 0).toNat + 2 ^ 32 * (ws.getD (25 + 2 * i) 0).toNat
          if x.stop then x
          else if badRef ref then { x with bad := true }
          else if refType ref == 0 || !boxHit r ((List.range 6).map fun j => ws.getD (6 * i + j) 0) (x.tstar r) (order (2 ^ 60 + 4 * va + i) % 2 == 1) then x
          else if refType ref == 1 then visitBox rd order r n (refAddr ref) x
          else (List.range (refCount ref + 1)).foldl (fun x j => testLeaf rd r (refAddr ref + 48 * j) x) x)
          { x with boxes := x.boxes + 1, read := va :: x.read }

/-- The traversal of one ray. A root with a nonzero bit in [63:52] is a bad node too (notes/assumptions 123). -/
def traceRay (rd : Reader) (order : Nat → Nat) (r root : Nat) : Walker :=
  if root % 128 != 0 || 2 ^ 52 ≤ root then { bad := true } else visitBox rd order r 64 root {}

/-- The result words and hit record of a lane (R346, R347); a miss has zero weights (notes/assumptions 124). Where a leaf's result is
not stated they are free, but for the bits that are zero in every result. -/
def traceResult (r : Nat) (x : Walker) (seed : Nat) : List Word × List Word :=
  let none' := fun (st : Nat) => ([infWord false, 0, 0, BitVec.ofNat 32 st], ([] : List Word))
  if badRay r then none' 2
  else if x.bad then none' 3
  else if x.openVal then
    ((List.range 4).map fun i => if i == 3 then Config.freeWord (seed + 3) &&& 0xF#32 else Config.freeWord (seed + i),
     (List.range 6).map fun i => Config.freeWord (seed + 4 + i))
  else match x.hit with
    | none => none' 0
    | some (h, va, leaf) =>
      ([h.t, h.b1, h.b2, if h.back then 9 else 1],
       [leaf.getD 9 0, leaf.getD 10 0, BitVec.ofNat 32 va, BitVec.ofNat 32 (va / 2 ^ 32), BitVec.ofNat 32 x.boxes, BitVec.ofNat 32 x.leaves])

/-! ## Instructions -/

/-- `trace` (R343). -/
def execTrace (d a : BitVec 7) (b : BitVec 8) (fa : Bool) (s : State) : Out :=
  issueUnit 4 true s fun s wid eid w f => do
    noControl w
    let g ← getOpndsFor s wid w f
      { v := [{ fd := a.toNat, cnt := 8, tie := fa }], s := [{ fd := b.toNat, cnt := 2, pair := true }], vd := some (d.toNat, 4, false) }
      (roomFor s wid w.core (some cTQ) true)
    if f.active == 0 then .ok s
    else do
      let accs := (lanesOf f.active).map fun l => ({ lane := l, data := vecVal w (g.v.getD 0 0) 8 l } : Acc)
      let o : Op := { mkOp wid eid w f .trace (some cTQ) with accs := accs, dst := range g.vd 4, args := [g.s.getD 0 0] }
      let (_, s) ← addOp s o
      .ok (s.updWave wid fun w => w.markEmptyV (range g.vd 4))

/-- Sixteen bytes as the ray unit of a core reads them: from a line that the core holds, else at the home (R348). -/
def rayBytes (s : State) (o : Op) (va : Nat) : Nat := match readableHome s o.glade o.ctx va with
  | none => 0
  | some h =>
    let own := if bypasses o.scope o.pol h || l1Misses s o.core o.glade o.ctx va 16 then none else lineFind s o.core o.glade o.ctx va
    match own with
    | some e => e.get (va % 128) 16
    | none => homeUnderDirty s o.core o.glade o.ctx va h 16

/-- Reads of the ray unit of a core, of nodes and leaves that are 16-byte aligned (R348). -/
def rayReader (s : State) (o : Op) : Reader := fun va n =>
  match missing s o.glade o.ctx va (4 * n) with
  | some _ => none
  | none => some ((List.range (n / 4)).flatMap fun i => wordsOf 4 (rayBytes s o (va + 16 * i)))

/-- The core holds the lines that the ray unit has read, as after loads (R348). -/
def fillRead (s : State) (o : Op) (lines : List Nat) : State :=
  let s := lines.foldl (fun s l => match readableHome s o.glade o.ctx l with
    | some h => (readWith false s o.core o.glade o.ctx o.scope o.pol 0 l h 128).2
    | none => s) s
  countReads s o.core o.glade o.ctx lines

/-- A line that the unit reads is served from one with a poison mark (R348, R364). -/
def readsMark (s : State) (o : Op) (lines : List Nat) : Bool := lines.any fun l => match readableHome s o.glade o.ctx l with
  | some h => markedAt s h 128 && (bypasses o.scope o.pol h || l1Misses s o.core o.glade o.ctx l 128)
  | none => false

/-- Lanes that a later `trace` of the wave has written (R347). -/
def laterLanes (s : State) (op : Nat) (o : Op) : Word :=
  s.ops.foldl (fun m (j, p) => if op < j && p.wid == o.wid && p.kind == .trace && p.done then m ||| p.active else m) 0

/-- TRACE_COMPLETE: the traversals of an operation finish and its lanes receive their results and hit records; a page that
does not translate waits for its answer (R346 to R348). -/
def execTraceComplete (op : Nat) (s : State) : Out := runEvent s do
  let o ← need (s.op? op) "TRACE_COMPLETE"
  require (o.kind == .trace && !o.done && o.target.isNone) "TRACE_COMPLETE"
  require (!(s.ops.any fun (j, p) => j < op && p.wid == o.wid && !p.done && !p.scr &&
    (p.kind == .store || p.kind == .atomic || (p.kind == .copy && p.stage != 0)))) "TRACE_COMPLETE"
  require (!(bwOver s o.glade)) "TRACE_COMPLETE"
  let rd := rayReader s o
  let root := o.args.headD 0
  let walks := o.accs.map fun a => (a, if badRay a.data then {} else traceRay rd (Config.visitOrder op a.lane) a.data root)
  if readsMark s o (walks.flatMap fun e => e.2.read).eraseDups then .error (.ended (blockTrap (dropOp s op) o copyFault)) else pure ()
  match walks.findSome? fun (_, x) => x.miss with
  | some va =>
    let (id, s) := enqueueFault s o.glade o.ctx false aRead (va / 65536 * 65536) o.wid o.pc
    .ok (s.updOp op fun o => { o with target := some id })
  | none =>
    let res := (walks.zipIdx).map fun ((a, x), i) => (a.lane, traceResult a.data x (s.freeCount + 16 * i))
    let s : State := { s with watchEv := [], freeCount := s.freeCount + 512 }
    let of := fun l => ((res.find? fun e => e.1 == l).map (·.2)).getD ([], [])
    let dst := liveDst s o
    let s := writeV s o.wid (o.dst.headD 0) dst.length o.active fun l => (of l).1
    let evs := s.watchEv
    let s := fillRead s o (walks.flatMap fun e => e.2.read).eraseDups
    let keep := fun (t : Tab Word) => (lanesOf (o.active &&& ~~~laterLanes s op o)).foldl (fun t l =>
      (List.range 6).foldl (fun t i => Tab.putD t (32 * i + l) ((of l).2.getD i 0) 0) t) t
    let s := s.updWave o.wid fun w => { w.markFullV dst with hits := keep w.hits }
    let s := completeOp { s with watchEv := [] } op
    .ok (watchOp s op o evs)

/-- `hitrd`: held until the wave's earlier traces have completed (R347). -/
def execHitrd (d a : BitVec 7) (fa : Bool) (s : State) : Out :=
  issueUnit 4 true s fun s wid _ w f => do
    noControl w
    let tracing := s.ops.any fun (_, o) => o.wid == wid && o.kind == .trace && !o.done
    let g ← getOpndsFor s wid w f { v := [{ fd := a.toNat, tie := fa }], vd := some (d.toNat, 1, false) }
      (if tracing then .error (.hold .other s) else .ok ())
    .ok (writeV s wid g.vd 1 f.active fun l =>
      let n := (w.vreg (g.v.getD 0 0) l).toNat
      [if n < 6 then Tab.valD w.hits (32 * n + l) 0 else 0])

end Sys2Proof.Machine
end

