-- ==== Sys2Proof/Machine/Preempt.lean ====
section
/-! DEFINITION. Pre-emption and the save path (R63 to R66, R269, R383 to R389), and the driver's requests of firmware as
far as they concern commands. -/

namespace Sys2Proof.Machine

open Sys2Proof

/-! ## Requests of a virtual function (R379, R395) -/

/-- Status codes of R379. -/
def rOk : Nat := 0
def rBadArg : Nat := 1
def rNotOwned : Nat := 2
def rOverlap : Nat := 3
def rNoMap : Nat := 4
def rBusy : Nat := 5
def rNoSpace : Nat := 6
def rBadOp : Nat := 7

/-- The glade a virtual function is bound to. -/
def vfGlade (s : State) (vf : Nat) : Option Nat :=
  if vf < 128 && regFld s .rlk (0x400 + 4 * vf) 31 31 == 1 then some (regFld s .rlk (0x400 + 4 * vf) 5 0) else none

/-- An answer to a request. -/
def State.reply (s : State) (ws : List Nat) : State := { s with replies := ws.map (BitVec.ofNat 32) :: s.replies }

/-- The words of a virtual function's BAR: its request window from 0, its doorbell at 0x40 (R395). -/
def vfOff (vf : Nat) : Nat := 4096 * vf

/-- Firmware's answer to a virtual function's request: STATUS goes into the record (R379). -/
def vfReply (s : State) (vf st : Nat) : State := setReg (s.reply [vf, st]) .vf (vfOff vf) (BitVec.ofNat 32 st)

/-- The doorbell of a virtual function: a record whose OP is none of R379's is refused, once no earlier request is in progress. A
request of R379 is served by its own row, which carries the record's arguments (notes/assumptions 92). -/
def vfDoorbell (s : State) (vf : Nat) : Eff State :=
  let op := regFld s .vf (vfOff vf) 7 0
  if 1 ≤ op && op ≤ 0x0B then .ok s
  else do
    require (!(s.changes.any fun c => c.vf == vf)) "REGISTER_WRITE"
    .ok (vfReply s vf rBadOp)

/-- A request of an enabled virtual function, no earlier one of it in progress: firmware answers with its status. -/
def vfRequest (s : State) (vf : Nat) (name : String) (k : Nat → Eff (Nat × State)) : Out := runEvent s do
  let g ← need (vfGlade s vf) name
  require (!(s.changes.any fun c => c.vf == vf)) name
  let (st, s) ← k g
  .ok (vfReply s vf st)

/-! ## Quiescing (R64, R269, R286) -/

/-- What happens to a fragment as its block quiesces: a sleep ends (R151), and an uncompleted wait is withdrawn and re-executes
(R269). The check of a `vdec` and an `scstat` that waits for its answer go on (R195, R316). -/
def quiesceFrag (s : State) (wid : Nat) (eid : Nat) : State := match s.frag? wid eid with
  | none => s
  | some f =>
    let s := s.updFrag wid eid fun f => { f with sleepEnd := none }
    match f.held with
    | none => s
    | some h =>
      let drop := fun (s : State) => s.updFrag wid eid fun f => { f with held := none }
      if h.kind == 10 || h.kind == 11 then s
      else if 12 ≤ h.kind then drop s
      else if h.kind ≤ 5 then drop s
      else if h.kind ≤ 8 then (if h.stage == 0 then drop (withdrawWait s wid f h) else s)
      else match s.op? h.op with
        | some o => if o.kind == .tqpush then drop (leaveQueue s wid h.op) else s
        | none => if h.op == 0 then drop s else s

/-- Quiescence of a block begins: issue stops, its groups become due, its held waits are withdrawn. -/
def quiesceBlock (s : State) (bid : Nat) (slot : Option Nat) : State :=
  let b := s.blkD bid
  let s := dueGroups s bid
  let s := b.waves.foldl (fun s k => ((s.waveD k).frags.map (·.1)).foldl (fun s e => quiesceFrag s k e) s) s
  s.updBlk bid fun b => { b with st := .quiescing, quiesceAt := s.now, slotNo := slot, image := none }

/-- A fragment of the block has a `vdec` in its check or an `scstat` that is to write its register (R195, R316). -/
def unfinished (s : State) (bid : Nat) : Bool :=
  (s.blkD bid).waves.any fun k => (s.waveD k).frags.any fun (_, f) => f.decoding || f.reading

/-- Nothing of a block is outstanding but notifications and reductions whose phase is open (R64, R269, R291, R300, R316). -/
def quiet (s : State) (bid : Nat) : Bool :=
  !unfinished s bid && s.ops.all fun (_, o) => o.blk != bid || o.done || o.kind == .notify || o.kind == .tred

/-! ## PREEMPT and WITHDRAW (R63, R65, R66, R383) -/

/-- The command of a glade with a sequence number. -/
def findCmd (s : State) (g seq : Nat) : Option (Nat × Cmd) := s.cmds.find? fun (_, k) => k.glade == g && k.seq == seq && k.st != .ended

/-- Resident waves of a command on a core. -/
def cmdWaves (s : State) (cmd core : Nat) : Nat := ((coreWaves s core).filter fun w => w.cmd == cmd).length

/-- The cores a request takes (R63). -/
def takenCores (s : State) (g cmd : Nat) (r : Sys2Proof.PreemptReq) : List Nat :=
  let cs := (s.gladeSt g).cores
  if r.mode == 1 then
    let held := (cmdBlocks s cmd).flatMap fun (_, b) => b.cores
    cs.filter fun c => r.mask.contains c && held.contains c
  else
    (cs.mergeSort fun a b => cmdWaves s cmd a < cmdWaves s cmd b || (cmdWaves s cmd a == cmdWaves s cmd b && b ≤ a)).take r.count

/-- A block that a pre-emption can vacate: it stands on its cores and is not being terminated. -/
def vacatable (b : Block) : Bool := (b.st == .placed || b.st == .running || b.st == .finishing) && !b.terminated

/-- The blocks to vacate: those on the taken cores, a cooperative grid or a team group whole (R63, R65). -/
def vacated (s : State) (cmd : Nat) (k : Cmd) (cores : List Nat) : List (Nat × Block) :=
  let run := (cmdBlocks s cmd).filter fun (_, b) => vacatable b
  let hit := run.filter fun (_, b) => b.cores.any fun c => cores.contains c
  if k.isPass then hit
  else if k.coop then (if hit.isEmpty then [] else run)
  else
    let lins := hit.flatMap fun (_, b) => groupOf k b.lin
    run.filter fun (_, b) => lins.contains b.lin

/-- Slots of a context's save area that no block of it holds. -/
def freeSlots (s : State) (g c : Nat) : List Nat :=
  let used := (Tab.vals s.blocks).filterMap fun b => if blkCtx s b == (g, c) then b.slotNo else none
  (List.range (saveSlots s g c)).filter fun n => !used.contains n

/-- GLD_PSTAT after a request: BUSY while blocks of the glade are quiescing or saving (R383). -/
def setPstat (s : State) (g result blocks : Nat) : State :=
  setReg s (.gld g) 0x4040 (BitVec.ofNat 32 ((if preempting s g then 2 ^ 31 else 0) + result * 2 ^ 16 + blocks))

/-- GLD_PREQ as firmware writes it (R383). -/
def setPreq (s : State) (g : Nat) (r : Sys2Proof.PreemptReq) : State :=
  let mask := r.mask.foldl (fun m c => m ||| 2 ^ c) 0
  let x := mask * 2 ^ 96 + r.seq % 2 ^ 32 * 2 ^ 64 + r.count % 256 * 2 ^ 32 + (if r.discard then 4 else 0) + r.mode % 2 * 2
  ((wordsOf 8 x).zipIdx).foldl (fun s (v, i) => setReg s (.gld g) (0x4000 + 4 * i) v) s

/-- An unpublished idempotent block goes back to PENDING, to start again (R66). -/
def restartBlock (s : State) (bid : Nat) : State :=
  let s := killBlock s bid
  s.updBlk bid fun b => { b with st := .pending, published := false, since := s.now, waves := [] }

/-- A cooperative grid or team group that has lost blocks is SUSPENDED until all of them can be placed again (R65). -/
def suspend (s : State) (cmd : Nat) (k : Cmd) (bs : List (Nat × Block)) : State :=
  let grouped := k.coop || bs.any fun (_, b) => decide (1 < (groupOf k b.lin).length)
  if bs.isEmpty || k.isPass || !grouped then s
  else (bs.foldl (fun s (id, _) => s.updBlk id fun b => { b with away := true }) s).updCmd cmd fun k => { k with st := .suspended }

/-- A request to restart blocks: a published one, or one of a grid without IDEMP, is a context fault IDEMP_LOST (R66). -/
def discardBlocks (s : State) (cmd : Nat) (k : Cmd) (bs : List (Nat × Block)) : State :=
  match bs.find? fun (_, b) => b.published || !k.idemp with
  | some (_, b) =>
    contextFault s k.glade k.ctx { cause := idempLost, seq := k.seq, ccpc := k.ccpc, core := b.cores.headD 0, blk := b.lin } (dieOf (b.cores.headD 256))
  | none => suspend (bs.foldl (fun s (id, _) => restartBlock s id) s) cmd k bs

/-- Vacates blocks into save slots, one each. -/
def vacate (s : State) (cmd : Nat) (k : Cmd) (bs : List (Nat × Block)) (slots : List Nat) : State :=
  suspend ((bs.zip slots).foldl (fun s ((id, _), n) => quiesceBlock s id (some n)) s) cmd k bs

/-- Works out a request and starts it (R383). -/
def startPreempt (s : State) (g cmd : Nat) (k : Cmd) (r : Sys2Proof.PreemptReq) : Nat × State :=
  let cores := takenCores s g cmd r
  let bs := vacated s cmd k cores
  let n := bs.length
  let close := fun (s : State) => s.updGlade g fun x => { x with preempts := x.preempts ++ [{ cmd := cmd, cores := cores }] }
  if r.discard then (rOk, setPstat (discardBlocks (close s) cmd k bs) g 0 n)
  else
    let slots := freeSlots s g k.ctx
    if slots.length < n || bs.any fun (_, b) => decide (slotBytes s g k.ctx < imageBytes s b) then (rNoSpace, setPstat s g 1 0)
    else (rOk, setPstat (vacate (close s) cmd k bs slots) g 0 n)

/-- A command is being vacated, so that another request for it waits (R383); while a block of it is being restored a request waits
too (notes/assumptions 125). -/
def inTransit (s : State) (cmd : Nat) : Bool :=
  (cmdBlocks s cmd).any fun (_, b) => b.st == .quiescing || b.st == .saving || b.st == .restoring

/-- PREEMPT: a request names a command and cores (R63, R383). -/
def execPreempt (vf : Nat) (req : Sys2Proof.PreemptReq) (s : State) : Out := vfRequest s vf "PREEMPT" fun g =>
  let bad := (req.mode == 0 && (req.count == 0 || 160 < req.count)) || 1 < req.mode || req.mask.any fun c => decide (159 < c)
  if bad then .ok (rBadArg, s)
  else
    let s := setPreq s g req
    match findCmd s g req.seq with
    | none => .ok (rBadArg, setPstat s g 2 0)
    | some (cmd, k) => do
      require (!inTransit s cmd) "PREEMPT"
      .ok (startPreempt s g cmd k req)

/-- WITHDRAW: the cores a request has taken are open to the command again (R63). -/
def execWithdraw (vf seq : Nat) (s : State) : Out := vfRequest s vf "WITHDRAW" fun g =>
  match findCmd s g seq with
  | none => .ok (rNoMap, s)
  | some (cmd, _) =>
    if (s.gladeSt g).preempts.any fun p => p.cmd == cmd then
      .ok (rOk, s.updGlade g fun x => { x with preempts := x.preempts.filter fun p => p.cmd != cmd })
    else .ok (rNoMap, s)

/-! ## Cancellation (R64, R388) -/

/-- Kinds of operation that can become a replay entry. -/
def Op.cancellable (o : Op) : Bool :=
  o.kind == .copy || o.kind == .barrive || o.kind == .gbarrive || o.kind == .atomic ||
  ((o.kind == .tqpop || o.kind == .tqpush) && (o.stage == 2 || o.wait.isSome))

/-- QUIESCE_CANCEL_TIMEOUT: 4 µs of quiescence have passed; every operation that has not landed is asked to cancel (R64). -/
def execQuiesceCancelTimeout (blk : Nat) (s : State) : Out := runEvent s do
  let b ← need (s.blk? blk) "QUIESCE_CANCEL_TIMEOUT"
  let asks := fun (o : Op) => o.blk == blk && o.cancellable && !o.done && !o.cancel
  require (b.st == .quiescing && b.quiesceAt + 4000 ≤ s.now && s.ops.any fun (_, o) => asks o) "QUIESCE_CANCEL_TIMEOUT"
  .ok { s with ops := Tab.mapV s.ops fun _ o => if asks o then { o with cancel := true } else o }

/-- A cancelled operation is recorded; its registers stay empty, and the unit that held its fragment for it has completed. -/
def recordEntry (s : State) (oid : Nat) (o : Op) : State :=
  let s := if o.kind == .barrive || o.kind == .gbarrive then releaseHeld s o.wid o.eid else s
  let pin := o.pinCore.getD o.core
  let s := s.updBlk o.blk fun b => { b with entries := b.entries ++ [{ o with pinCore := if o.tag.isSome then some pin else none }] }
  let s := completeOp s oid
  if o.kind == .tqpop || o.kind == .tqpush then noteHeld s o.header.home else s

/-! ## The save (R384 to R386) -/

/-- PREEMPT_DELIVERY: quiescence has reached step 3 of R64; the waves receive PREEMPT, or with no handler the fall-back
path is taken (R384, R385). -/
def execPreemptDelivery (blk : Nat) (s : State) : Out := runEvent s do
  let b ← need (s.blk? blk) "PREEMPT_DELIVERY"
  require (b.st == .quiescing && quiet s blk && b.waves.all fun k => (s.waveD k).intr.isNone) "PREEMPT_DELIVERY"
  let (g, c) := blkCtx s b
  let pc := ctxHandler s g c
  let area := areaOff s b
  if pc == 0 then .ok (s.updBlk blk fun b => { b with st := .saving, image := some { fallback := true, area := area } })
  else
    let us := regFld s (.gld g) (ctxOff c + 0x1C) 15 0
    let s := b.waves.foldl (fun s k => s.updWave k fun w =>
      if w.over then w else w.deliverPreempt (BitVec.ofNat 64 pc) (BitVec.ofNat 64 (hareaVa s b area w.widx)) false) s
    .ok (s.updBlk blk fun b => { b with st := .saving, image := some { handler := true, area := area },
                                        budgetAt := some (s.now + 1000 * (if us == 0 then 50 else us)) })

/-- HDONE_SAVE: a handler has written HDONE 1 and its wave is saved (R385). -/
def execHdoneSave (wid : Nat) (s : State) : Out := runEvent s do
  let w ← need (s.wave? wid) "HDONE_SAVE"
  let it ← need w.intr "HDONE_SAVE"
  require (it.cause == 0x18 && !it.restore && it.hdone == 1 && !it.saved) "HDONE_SAVE"
  .ok (s.setWave wid { w with intr := some { it with saved := true } })

/-- Every wave of a block that has not ended is saved by its handler. -/
def allSaved (s : State) (b : Block) : Bool :=
  b.waves.all fun k =>
    let w := s.waveD k
    w.over || w.intr.any fun it => it.saved

/-- SAVE_BUDGET_EXPIRY: the budget has run out; the fall-back path is taken (R385, R386). -/
def execSaveBudgetExpiry (blk : Nat) (s : State) : Out := runEvent s do
  let b ← need (s.blk? blk) "SAVE_BUDGET_EXPIRY"
  let t ← need b.budgetAt "SAVE_BUDGET_EXPIRY"
  require (b.st == .saving && t ≤ s.now && !allSaved s b) "SAVE_BUDGET_EXPIRY"
  .ok (fallBack s blk)

/-- BLOCK_SAVED: every wave is saved, or firmware saves the block on the fall-back path; its image is complete (R385, R386). -/
def execBlockSaved (blk : Nat) (s : State) : Out := runEvent s do
  let b ← need (s.blk? blk) "BLOCK_SAVED"
  let fell : Bool := b.image.any fun im => im.fallback
  require (b.st == .saving && (fell || allSaved s b) && quiet s blk) "BLOCK_SAVED"
  .ok (settleBusy (saveBlock s blk) (blkCtx s b).1)

/-- HDONE_RESTORE: a handler has written HDONE 2: the wave's scalars, full bits, v0, v1 and interrupted fragments return, its waits
with fresh timeouts (R269); once every wave has, the block runs and its slot is free (R387). -/
def execHdoneRestore (wid : Nat) (s : State) : Out := runEvent s do
  let w ← need (s.wave? wid) "HDONE_RESTORE"
  let it ← need w.intr "HDONE_RESTORE"
  require (it.cause == 0x18 && it.restore && it.hdone == 2) "HDONE_RESTORE"
  require (s.ops.all fun (_, o) => o.wid != wid || o.done || o.lasting || o.kind == .tred) "HDONE_RESTORE"
  let s := s.setWave wid (w.interrupted.freshTimeouts s.now)
  let b := s.blkD w.blk
  .ok (if b.waves.all fun k => (s.waveD k).intr.isNone then
    let s := b.waves.foldl (fun s k => s.updWave k fun w => w.freshTimeouts s.now) s
    noteFinished (s.updBlk w.blk fun b => { b with st := .running, image := none, slotNo := none, budgetAt := none }) w.blk else s)

/-! ## DUMP (R379, R389) -/

/-- Bytes of a dump image: the device sections, and the fault record where there is one (R389). -/
def dumpBytes (s : State) (b : Block) (record : List Word) : Nat := areaOff s b + (if record.isEmpty then 0 else 80)

/-- DUMP: an image of a block of a context is written to a save slot, with the context's fault record (R379, R389). -/
def execDump (vf ctx blk slot : Nat) (s : State) : Out := vfRequest s vf "DUMP" fun g =>
  match s.blocks.find? fun (_, b) => blkCtx s b == (g, ctx) && b.lin == blk && b.st != .done && b.st != .pending with
  | none => .ok (rNoMap, s)
  | some (_, b) =>
    let rec' := (s.ctxSt g ctx).drainRec
    if !(freeSlots s g ctx).contains slot || slotBytes s g ctx < dumpBytes s b rec' then .ok (rNoSpace, s)
    else .ok (rOk, writeImage s b slot 3 (fld (rec'.headD 0) 7 0) false false rec')

end Sys2Proof.Machine
end

