-- ==== Sys2Proof/Machine/Teardown.lean ====
section
/-! DEFINITION. The progress of a teardown: its phases and their units, and the queue of glades (R393, R394). -/

namespace Sys2Proof.Machine

open Sys2Proof

/-- The glade a core belongs to. -/
def gladeOf (s : State) (core : Nat) : Option Nat := (s.glades.find? fun (_, x) => x.cores.contains core).map (·.1)

/-- STATE of a glade: 0 FREE, 1 CONFIG, 2 ACTIVE, 3 TEARDOWN, 4 CLEARING (R380). -/
def gladeState (s : State) (g : Nat) : Nat := regFld s (.gld g) 0 31 29
def setGladeState (s : State) (g st : Nat) : State := setRegFld s (.gld g) 0 31 29 st

/-- A glade is configured: CONFIG or ACTIVE. -/
def configured (s : State) (g : Nat) : Bool := gladeState s g == 1 || gladeState s g == 2

/-- A glade that waits for its teardown or is being cleared. -/
def leaving (s : State) (g : Nat) : Bool := s.clear.queue.contains g || s.clear.cur == some g

/-- A glade is protected, and its key slot (R380, R392). -/
def isProt (s : State) (g : Nat) : Bool := regFld s (.gld g) 0 28 28 == 1
def keySlotOf (s : State) (g : Nat) : Nat := regFld s (.gld g) 0 21 16

/-- The units of a phase. -/
def clearUnits (s : State) (g phase : Nat) : List Nat :=
  if phase == 1 then (s.gladeSt g).cores
  else if phase == 2 then List.range (regFld s .mgt 0x10 23 16)
  else if phase == 3 then (List.range 1024).filter fun n => regFld s .cnp (nsOff n) 31 31 == 1 && nsOwner s n == g
  else if phase == 4 then (if isProt s g then [keySlotOf s g] else [])
  else if phase == 5 then (s.frames.filter fun (_, f) => f.valid && f.glade == g).map (·.1)
  else []

/-- CLR_PROG and CLR_TOTAL at the start of a phase. -/
def setClearPhase (s : State) (phase : Nat) (us : List Nat) : State :=
  let s : State := { s with clear := { s.clear with units := us } }
  let s := setRegFld s .clr 4 30 28 phase
  setReg (setReg s .clr 0 0) .clr 8 (BitVec.ofNat 32 us.length)

/-- Enters a phase, or the next that has units; phase 6 has none. -/
def enterPhase (s : State) (g : Nat) : Nat → Nat → State
  | 0, phase => setClearPhase s phase []
  | n + 1, phase =>
    let us := clearUnits s g phase
    if us.isEmpty && phase < 6 then enterPhase s g n (phase + 1) else setClearPhase s phase us

/-- WAITING of CLR_PROG. -/
def setWaiting (s : State) : State := setRegFld s .clr 4 7 0 (min 255 s.clear.queue.length)

/-- The engine takes the first glade that waits, once its contexts are closed. -/
def startClearing (s : State) : State := match s.clear.cur, s.clear.queue with
  | none, g :: rest =>
    if gladeState s g == 3 then
      let s := setGladeState s g 4
      let s : State := { s with clear := { s.clear with cur := some g, queue := rest } }
      let s := setRegFld (setRegFld (setWaiting s) .clr 4 31 31 1) .clr 4 27 22 g
      enterPhase s g 6 1
    else s
  | _, _ => s

/-- The glade's teardown is in progress: it is being cleared, or is the first that waits while none is (R393). -/
def tearing (s : State) (g : Nat) : Bool := s.clear.cur == some g || (s.clear.cur.isNone && s.clear.queue.head? == some g)

/-- A glade whose teardown is in progress and whose contexts are all closed is in TEARDOWN. -/
def teardownReady (s : State) (g : Nat) : State :=
  if s.clear.cur.isNone && s.clear.queue.head? == some g && configured s g && !(s.changes.any fun c => c.glade == g) &&
    (List.range 64).all fun c => ctxState s g c == 0
  then startClearing (setGladeState s g 3)
  else s

end Sys2Proof.Machine
end

