-- ==== Sys2Proof/Machine/Context.lean ====
section
/-! DEFINITION. Contexts: translation requests, opening and closing, replayable faults and their answers, context faults,
the hang watchdog, the bandwidth share and deduplication (R67, R356, R370 to R382, R391). -/

namespace Sys2Proof.Machine

open Sys2Proof

/-! ## Pages (R376, R379) -/

/-- Page sizes by code. -/
def pageSize (code : Nat) : Option Nat :=
  if code == 0 then some (2 ^ 16) else if code == 1 then some (2 ^ 21) else if code == 2 then some (2 ^ 30) else none

/-- Home base of a page's target: HBM, host memory, or the port in bits 63 to 56 of a peer address. -/
def pageHome (kind target : Nat) : Nat :=
  if kind == 0 then target
  else if kind == 1 then 2 ^ 56 + target % 2 ^ 56
  else (2 + target / 2 ^ 56) * 2 ^ 56 + target % 2 ^ 56

/-- The ownership record of a frame (R377). -/
def frameOf (s : State) (n : Nat) : Frame := Tab.valD s.frames n {}
def setFrame (s : State) (n : Nat) (f : Frame) : State := { s with frames := Tab.putD s.frames n f {} }

/-- The glade owns or has been granted what a page maps. -/
def pageOwned (s : State) (g kind target len : Nat) : Bool :=
  let gl := s.gladeSt g
  if kind == 0 then (List.range (len / 65536)).all fun i =>
    let f := frameOf s (target / 65536 + i)
    f.valid && f.glade == g
  else if kind == 1 then gl.hostRanges.any fun (lo, n) => lo ≤ target && target + len ≤ lo + n
  else gl.peerRanges.any fun (p, lo, n) => p == target / 2 ^ 56 && lo ≤ target % 2 ^ 56 && target % 2 ^ 56 + len ≤ lo + n

/-- Lines of a page's frame leave every L1 of the glade, whatever address they were reached by, dirty bytes landing first (R356). -/
def dropFrame (s : State) (g : Nat) (p : Page) : State :=
  let on := fun (e : L1Line) => e.glade == g && p.home ≤ e.home && e.home < p.home + p.len
  let s := s.cores.foldl (fun s (c, _) => landWhere s c on) s
  { s with cores := Tab.mapV s.cores fun _ c => { c with l1 := c.l1.filter fun e => !on e } }

/-- MAP: in force for every access that translates from now on; before a page with W is, its frame's lines go (R356, R379). -/
def execMap (vf ctx va : Nat) (page : Sys2Proof.PageReq) (s : State) : Out := vfRequest s vf "MAP" fun g =>
  match pageSize page.size with
  | none => .ok (rBadArg, s)
  | some len =>
    if 63 < ctx || va % len != 0 || page.target % 2 ^ 56 % len != 0 || 2 ^ 52 < va + len || 2 < page.kind then .ok (rBadArg, s)
    else if !pageOwned s g page.kind page.target len then .ok (rNotOwned, s)
    else if (s.ctxSt g ctx).pages.any fun p => decide (p.va < va + len) && decide (va < p.va + p.len) then .ok (rOverlap, s)
    else
      let p : Page := { va := va, len := len, kind := page.kind, home := pageHome page.kind page.target, rwx := page.rwx ||| 1 }
      let s := if p.w then dropFrame s g p else s
      .ok (rOk, s.updCtx g ctx fun x => { x with pages := p :: x.pages })

/-- The lines of a page's frame leave every L1 of the glade, as do its translations every TLB (R356, R379). -/
def dropPage (s : State) (g ctx : Nat) (p : Page) : State :=
  let cached := fun (e : TlbEnt) => e.glade == g && e.ctx == ctx && e.page.va == p.va && e.page.len == p.len
  let s := dropFrame s g p
  { s with
    cores := Tab.mapV s.cores fun _ c =>
      { c with tlb := c.tlb.filter fun e => !cached e,
               ic := c.ic.filter fun e => !(e.glade == g && e.ctx == ctx && p.va ≤ e.va && e.va < p.va + p.len) }
    clusterTlb := Tab.mapV s.clusterTlb fun _ l => l.filter fun e => !cached e }

/-- An operation has translated through a page and has not performed. -/
def Op.usesPage (o : Op) (g ctx : Nat) (p : Page) : Bool :=
  o.glade == g && o.ctx == ctx && !o.done && !o.scr &&
  o.accs.any fun a => (p.home ≤ a.home && a.home < p.home + p.len && p.va ≤ a.va && a.va < p.va + p.len) ||
    (p.home ≤ a.home2 && a.home2 < p.home + p.len)

/-- A held unit of a fragment has translated through a page and has not performed its access: a `wait.gbar`, `wait.mon` or
`wdesc` (R379). -/
def Frag.usesPage (f : Frag) (p : Page) : Bool := match f.held with
  | some h =>
    let home := if h.kind == 12 then h.b else h.a
    ((h.kind == 3 && h.stage == 0) || h.kind == 5 || h.kind == 12) && p.home ≤ home && home < p.home + p.len
  | none => false

/-- An access of a context has translated through a page and has not performed: an operation, a replay entry, or a held unit
(R260, R379). -/
def pageUsed (s : State) (g ctx : Nat) (p : Page) : Bool :=
  (s.ops.any fun (_, o) => o.usesPage g ctx p) ||
  (s.blocks.any fun (_, b) => b.entries.any fun o => o.usesPage g ctx p) ||
  s.waves.any fun (_, w) => w.glade == g && (if w.control then 0 else w.ctx) == ctx && w.allFrags.any fun f => f.usesPage p

/-- Starts a change of a page: it is in force once its conditions hold (R379). -/
def changePage (s : State) (vf g ctx va size : Nat) (rwx : Option (BitVec 3)) : Eff (Nat × State) :=
  match (s.ctxSt g ctx).pages.find? fun p => p.va == va && pageSize size == some p.len with
  | none => .ok (rNoMap, s)
  | some p =>
    let c : XlChange := { vf := vf, glade := g, ctx := ctx, old := p, new := rwx.map fun r => { p with rwx := r ||| 1 } }
    .error (.ended { s with changes := s.changes ++ [c] })

/-- UNMAP (R379). -/
def execUnmap (vf ctx va size : Nat) (s : State) : Out := vfRequest s vf "UNMAP" fun g => changePage s vf g ctx va size none

/-- PROTECT (R379). -/
def execProtect (vf ctx va size : Nat) (rwx : BitVec 3) (s : State) : Out :=
  vfRequest s vf "PROTECT" fun g => changePage s vf g ctx va size (some rwx)

/-- A mapping goes: a frame that it shares through deduplication has one sharer less (R377). -/
def unshare (s : State) (p : Page) : State :=
  let n := p.home / 65536
  if p.shared then setFrame s n { frameOf s n with sharers := (frameOf s n).sharers - 1 } else s

/-- TRANSLATION_CHANGE_COMPLETE: every access through the entry as it stands has performed; its translations and lines are
removed, its stores land, and the request completes: the page goes, or has its new permissions (R377, R379). A merge of the page
in progress ends first (R391). -/
def execTranslationChangeComplete (vf : Nat) (s : State) : Out := runEvent s do
  let c ← need (s.changes.find? fun c => c.vf == vf && !c.closing) "TRANSLATION_CHANGE_COMPLETE"
  let p := ((s.ctxSt c.glade c.ctx).pages.find? fun p => p.va == c.old.va).getD c.old
  require (!pageUsed s c.glade c.ctx p && p.merging.isNone) "TRANSLATION_CHANGE_COMPLETE"
  let s := dropPage s c.glade c.ctx p
  let on := fun (q : Page) => if q.va == p.va then c.new.map fun n => { p with rwx := n.rwx } else some q
  let s := s.updCtx c.glade c.ctx fun x => { x with pages := x.pages.filterMap on }
  let s := if c.new.isNone then unshare s p else s
  .ok (vfReply { s with changes := s.changes.filter fun d => d.vf != vf } vf rOk)

/-! ## Opening and closing (R381) -/

/-- The clk of the control core at which the watchdog's window in progress ends (R67). -/
def windowEnd (s : State) (g : Nat) : Nat := (coreClk s (256 + g) / 256 + 1) * 256

/-- The fields of a context record break the ranges of R381. -/
def recordBad (r : List Word) : Bool :=
  let w := fun (off : Nat) => (r.getD (off / 4) 0).toNat
  let d := fun (off : Nat) => w off + 2 ^ 32 * w (off + 4)
  !addrOk (d 0x08) 2 || !addrOk (d 0x10) 65536 || bitsOf (w 0x18) 31 24 == 0 || 64 < bitsOf (w 0x18) 31 24 ||
  bitsOf (w 0x18) 23 16 == 0 || bitsOf (w 0x1C) 31 22 != 0 ||
  (bitsOf (w 0x1C) 21 16 != 0 && (bitsOf (w 0x1C) 21 16 < 20 || 40 < bitsOf (w 0x1C) 21 16)) ||
  !addrOk (d 0x20) 4096 || !((List.range 15).any fun k => w 0x28 == 2 ^ (6 + k))

/-- CTX_OPEN writes the context record from the request; FQTAIL and FQLOST, which only the device writes, start at 0 (R381). -/
def execCtxOpen (vf ctx : Nat) (record : List Word) (s : State) : Out := vfRequest s vf "CTX_OPEN" fun g =>
  if 63 < ctx then .ok (rBadArg, s)
  else if ctxState s g ctx != 0 || tearing s g then .ok (rBusy, s)
  else if recordBad record then .ok (rBadArg, s)
  else
    let s := (range 2 10).foldl (fun s i => setReg s (.gld g) (ctxOff ctx + 4 * i) (record.getD i 0)) s
    let s := [0x30, 0x34, 0x38, 0x3C].foldl (fun s o => setReg s (.gld g) (ctxOff ctx + o) 0) s
    let s := setReg s (.gld g) (ctxOff ctx) 0
    let s := setCtxState s g ctx 1
    .ok (rOk, s.updCtx g ctx fun x => { x with hang := 0, drainFrom := none, drainRec := [], vf := vf, winAt := windowEnd s g })

/-- A context begins to close; a context fault whose operations still drain takes its own steps first (R370). -/
def startClose (s : State) (vf g ctx : Nat) : State :=
  let s := setCtxState s g ctx 3
  let s := s.updCtx g ctx fun x =>
    if x.drainFrom.isSome then x else { x with drainFrom := some s.now, drainRec := [] }
  { s with changes := s.changes ++ [{ vf := vf, glade := g, ctx := ctx, closing := true }] }

/-- A launch or pass of a glade whose descriptor is not yet read ends as R439 has it, context 0 closing: a grid DESC_BAD, a pass with
the null witness; its result register fills (R161, R162). -/
def endUnread (s : State) (cmd : Nat) (k : Cmd) : State :=
  dropCmd (if k.isPass then deliverCmd s k [0, 0] else deliverLaunch s cmd k 1) cmd

/-- Step 1 of a teardown: the control core halts, and every context begins to close (R393). -/
def beginTeardown (s : State) (g : Nat) : State :=
  let s := s.updWave g fun w => { w with haltCc := true }
  let s := (s.cmds.filter fun (_, k) => k.glade == g && k.desc.isEmpty).foldl (fun s (c, k) => endUnread s c k) s
  let s := (List.range 64).foldl (fun s c => if ctxState s g c == 0 then s else startClose s (128 + 64 * g + c) g c) s
  teardownReady s g

/-- Teardowns run one at a time, in request order: the first that waits begins once the engine is idle (R393). -/
def nextTeardown (s : State) : State := match s.clear.cur, s.clear.queue with
  | none, g :: _ => beginTeardown s g
  | _, _ => s

/-- CTX_CLOSE: issue stops in the context and its operations drain as in a context fault (R381). -/
def execCtxClose (vf ctx : Nat) (s : State) : Out := vfRequest s vf "CTX_CLOSE" fun g =>
  if 63 < ctx then .ok (rBadArg, s)
  else if ctxState s g ctx == 0 then .ok (rNoMap, s)
  else
    .error (.ended (startClose s vf g ctx))

/-- Commands of a context whose descriptor has been read. -/
def ctxCmds (s : State) (g c : Nat) : List Nat :=
  (s.cmds.filter fun (_, k) => k.glade == g && !k.desc.isEmpty && k.ctx == c).map (·.1)

/-- Closes a context whose commands have ended: its lines land, and its translations go (R377, R381). -/
def closeContext (s : State) (g c : Nat) : State :=
  let s := (s.ctxSt g c).pages.foldl (fun s p => unshare (dropPage s g c p) p) s
  let s := s.setCtx g c {}
  setCtxState s g c 0

/-- CTX_CLOSE_COMPLETE: the commands of a closing context have ended, and no access of it is outstanding, its control core's
included, nor a merge of a page of it (R379, R381, R391). A teardown's close of context c of glade g stands under the number 128 + 64 g + c (R393). -/
def execCtxCloseComplete (vf : Nat) (s : State) : Out := runEvent s do
  let c ← need (s.changes.find? fun c => c.vf == vf && c.closing) "CTX_CLOSE_COMPLETE"
  require ((s.ctxSt c.glade c.ctx).drainFrom.isNone && (ctxCmds s c.glade c.ctx).isEmpty) "CTX_CLOSE_COMPLETE"
  require (s.ops.all fun (_, o) => o.glade != c.glade || o.ctx != c.ctx || o.done || o.lasting) "CTX_CLOSE_COMPLETE"
  require ((s.ctxSt c.glade c.ctx).pages.all fun p => p.merging.isNone && !pageUsed s c.glade c.ctx p) "CTX_CLOSE_COMPLETE"
  let s := closeContext s c.glade c.ctx
  let s : State := { s with changes := s.changes.filter fun d => d.vf != vf }
  .ok (teardownReady (if vf < 128 then vfReply s vf rOk else s) c.glade)

/-! ## Context faults (R370) and the watchdog (R67) -/

/-- Operations of a context that its fault drains. -/
def ctxOp (g c : Nat) (o : Op) : Bool := o.glade == g && o.ctx == c && o.core < 256

/-- The dump that firmware writes after a context fault: an image of the block the record names, in the context's lowest
free save slot where that can hold it (R389, notes/assumptions 72). -/
def faultDump (s : State) (g c : Nat) (ws : List Word) : State :=
  let hit := s.blocks.find? fun (_, b) => blkCtx s b == (g, c) && BitVec.ofNat 32 (s.cmdD b.cmd).seq == ws.getD 1 0 &&
    BitVec.ofNat 32 b.lin == ws.getD 10 0 && fld (ws.getD 9 0) 31 24 != 0xFF && b.st != .done && b.st != .pending
  match hit, (freeSlots s g c).head? with
  | some (_, b), some n => if dumpBytes s b ws ≤ slotBytes s g c then writeImage s b n 3 (fld (ws.headD 0) 7 0) false false ws else s
  | _, _ => s

/-- CONTEXT_FAULT_DRAIN_EXPIRY: the context's operations have completed or 4 µs have passed; the rest are discarded, the
record and a dump are written, and the commands end FAULTED; where no fault but a close has begun they end ABORTED (R370, R381).
A context that was closed meanwhile stays CLOSING. -/
def execContextFaultDrainExpiry (g ctx : Nat) (s : State) : Out := runEvent s do
  let t ← need (s.ctxSt g ctx).drainFrom "CONTEXT_FAULT_DRAIN_EXPIRY"
  let out := s.ops.any fun (_, o) => ctxOp g ctx o && !o.lasting && !o.done
  require (!out || t + 4000 ≤ s.now) "CONTEXT_FAULT_DRAIN_EXPIRY"
  let rec' := (s.ctxSt g ctx).drainRec
  let s := discardOps s fun _ o => ctxOp g ctx o
  if rec'.isEmpty then
    let s := (ctxCmds s g ctx).foldl (fun s k => if (s.cmdD k).st == .ending then s else endCmd s k 8 0) s
    .ok (s.updCtx g ctx fun x => { x with drainFrom := none })
  else
    let cause := fld (rec'.headD 0) 7 0
    let s := faultDump (writeFaultRecord s g ctx rec') g ctx rec'
    let s := (ctxCmds s g ctx).foldl (fun s k => if (s.cmdD k).st == .ending then s else endCmd s k 7 cause) s
    let s := if ctxState s g ctx == 3 then s else setCtxState s g ctx 2
    let s := setRegFld s (.gld g) (ctxOff ctx) 7 0 cause
    .ok (s.updCtx g ctx fun x => { x with drainFrom := none })

/-- A fragment of the wave stands in a condition that keeps a window from counting (R67). -/
def excluded (s : State) (w : Wave) : Bool :=
  !w.replay.isEmpty || (w.allFrags.any fun f => f.halt.isSome) || heldByShare s w ||
  (s.blkD w.blk).st == .quiescing || (s.blkD w.blk).st == .saving

/-- The oldest command of a context with a resident wave, which a HANG names (R67, R369, notes/assumptions 126). -/
def hangCmd (s : State) (g c : Nat) : Cmd :=
  (((ctxCmds s g c).find? fun k => s.waves.any fun (_, w) => !w.control && w.cmd == k).map s.cmdD).getD {}

/-- WATCHDOG_WINDOW: 256 clk of an open context have passed; the window is counted or not, and at the limit the context
takes HANG (R67). -/
def execWatchdogWindow (g ctx : Nat) (s : State) : Out := runEvent s do
  let x := s.ctxSt g ctx
  require (ctxRuns s g ctx && x.winAt ≤ coreClk s (256 + g)) "WATCHDOG_WINDOW"
  let ws := (Tab.vals s.waves).filter fun w => !w.control && w.glade == g && w.ctx == ctx
  let stalled := ws.any (excluded s)
  let counted := x.residentAll && !ws.isEmpty && !x.retiredInWindow && !x.stalledInWindow && !stalled
  let hang := if counted then x.hang + 1 else x.hang
  let s := s.setCtx g ctx { x with hang := hang, winAt := windowEnd s g, retiredInWindow := false,
                                   stalledInWindow := stalled, residentAll := !ws.isEmpty }
  let wd := regFld s (.gld g) (ctxOff ctx + 0x1C) 21 16
  let k := hangCmd s g ctx
  let i : FaultInfo := { cause := hangCause, seq := k.seq, ccpc := k.ccpc, core := 0xFF }
  .ok (if 2 ^ (if wd == 0 then 32 else wd) ≤ 256 * hang then contextFault s g ctx i 12 else s)

/-! ## Answers to faults (R374, R375) -/

/-- Waves wait on an entry: resident, set aside by a delivery, or in an image. -/
def waiting (id : Nat) (w : Wave) : Bool := w.replay.contains id || w.intr.any fun it => it.replay.contains id

/-- Clears an entry's mark. -/
def Wave.clearReplay (w : Wave) (id : Nat) : Wave :=
  { w with replay := w.replay.filter (· != id), intr := w.intr.map fun it => { it with replay := it.replay.filter (· != id) } }

/-- Everything that waits on an entry goes on, and the entry goes. -/
def releaseEntry (s : State) (g id : Nat) : State :=
  let s := (s.waves.filter fun (_, w) => waiting id w).foldl (fun s (_, w) => s.noteStall w.glade w.ctx) s
  let fix := fun (_ : Nat) (w : Wave) => w.clearReplay id
  let s : State :=
    { s with
      waves := Tab.mapV s.waves fix
      blocks := Tab.mapV s.blocks fun _ b => { b with image := b.image.map fun im => { im with waves := Tab.mapV im.waves fix } }
      cmds := Tab.mapV s.cmds fun _ k => if k.faultEnt == some id then { k with faultEnt := none } else k
      ops := Tab.mapV s.ops fun _ o => if o.target == some id && o.kind == .trace then { o with target := none } else o }
  s.updGlade g fun x => { x with faultq := x.faultq.filter fun e => e.id != id }

/-- The queue entry of a glade. -/
def findEntry (s : State) (g id : Nat) (cow : Bool) : Option FaultEnt := (s.gladeSt g).faultq.find? fun e => e.id == id && e.cow == cow

/-- RESOLVE: every wave that waits on the entry replays its unit (R374). -/
def execResolve (vf entry : Nat) (s : State) : Out := vfRequest s vf "RESOLVE" fun g => match findEntry s g entry false with
  | none => .ok (rNoMap, s)
  | some _ => .ok (rOk, releaseEntry s g entry)

/-- What a record says of the fragment of a wave that waited on an entry (R369, R374). -/
def failInfo (s : State) (e : FaultEnt) (wid : Nat) (w : Wave) (cause : Nat) : FaultInfo :=
  let f := (w.allFrags.find? fun f => f.stall == .issued || f.stall == .faultReplay).getD {}
  { fragInfo s w f 3 cause 0 e.va with pc := if wid == e.wid then e.pc else f.pc }

/-- Tile writes of a pass that reach a 64 KiB page are given up (R340). -/
def dropTilesOn (s : State) (cmd va : Nat) : State :=
  let k := s.cmdD cmd
  let hit := fun (o : Op) => (landSpans k (k.pass.getD {}) o.stage).any fun (a, n) => a / 65536 ≤ va / 65536 && va / 65536 ≤ (a + n - 1) / 65536
  (s.ops.filter fun (_, o) => o.kind == .tile && o.slot == cmd && hit o).foldl (fun s (i, _) => dropOp s i) s

/-- A command whose unit waited on an entry: a pass in progress ends, or goes on ending without the writes that waited; what was to
be read cannot be (R161, R340). -/
def failCmd (s : State) (c : Nat) (k : Cmd) (va cause : Nat) : State :=
  if k.st == .active || k.st == .ending then failUnit (if k.st == .ending then dropTilesOn s c va else s) c cause none
  else s.updCmd c fun k => { k with readFail := true }

/-- A fault declared fatal: waiting waves' contexts take a context fault with KIND 3, or their save handler's block the fall-back
path; a control core halts, a descriptor is unreadable, a pass ends, a `trace` ends its block (R161, R225, R340, R348, R373, R374,
R385). -/
def failEntry (s : State) (g : Nat) (e : FaultEnt) (cause : Nat) : State :=
  let ws := s.waves.filter fun (_, w) => waiting e.id w
  let imaged : Tab Wave := (Tab.vals s.blocks).flatMap fun b => match b.image with
    | some im => im.waves.filter fun (_, w) => waiting e.id w
    | none => []
  let cs := s.cmds.filter fun (_, k) => k.faultEnt == some e.id
  let os := (Tab.vals s.ops).filter fun o => o.target == some e.id && o.kind == .trace
  let s := releaseEntry s g e.id
  let s := ws.foldl (fun s (k, w) =>
    let i := failInfo s e k w cause
    if w.control then
      let s := poisonPins s w
      ccHalt (s.updWave k fun w => w.mapFrags fun f => { f with pin := none }) g i
    else if w.replay.contains e.id then waveFault s w i
    else contextFault s g w.ctx i (dieOf w.core)) s
  let s := imaged.foldl (fun s (k, w) => contextFault s g w.ctx (failInfo s e k w cause) (dieOf w.core)) s
  let s := cs.foldl (fun s (c, k) => failCmd s c k e.va cause) s
  os.foldl (fun s o => blockTrap s o copyFault) s

/-- FAIL: the driver answers an entry with PERM or MEM_UNCORR (R374). -/
def execFail (vf entry cause : Nat) (s : State) : Out := vfRequest s vf "FAIL" fun g => match findEntry s g entry false with
  | none => .ok (rNoMap, s)
  | some e => if cause != perm && cause != memUncorr then .ok (rBadArg, s) else .ok (rOk, failEntry s g e cause)

/-- Frames of a glade that no page of it maps. -/
def freeFrame (s : State) (g : Nat) : Option Nat :=
  let pages := (Tab.vals (s.gladeSt g).ctxs).flatMap fun c => c.pages
  (s.frames.find? fun (n, f) => f.valid && f.glade == g &&
    !(pages.any fun p => p.kind == 0 && decide (p.home ≤ 65536 * n) && decide (65536 * n < p.home + p.len))).map (·.1)

/-- Copies a frame's bytes. -/
def copyFrame (m : List Host.Cell) (src dst : Nat) : List Host.Cell :=
  let m' := clearMem m dst 65536
  (m.filter fun c => src ≤ c.1 && c.1 < src + 65536).foldl (fun m c => setByte m (dst + (c.1 - src)) c.2) m'

/-- Replaces the page of a context at an address; the lines of both frames and its translations are removed (R356, R379). -/
def setPage (s : State) (g ctx : Nat) (p : Page) : State :=
  let old := ((s.ctxSt g ctx).pages.find? fun q => q.va == p.va).getD p
  let s := dropFrame (dropPage s g ctx old) g p
  s.updCtx g ctx fun x => { x with pages := x.pages.map fun q => if q.va == p.va then p else q }

/-- Mappings of a glade's pages onto a frame. -/
def mappings (s : State) (g n : Nat) : Nat :=
  (((Tab.vals (s.gladeSt g).ctxs).flatMap fun c => c.pages).filter fun p =>
    p.kind == 0 && p.home ≤ 65536 * n && 65536 * n < p.home + p.len).length

/-- COW_RESOLVED: firmware resolves a COW fault of a 64 KiB page, not while a merge of it is in progress (R375, R391). -/
def execCowResolved (g ctx page : Nat) (s : State) : Out := runEvent s do
  let va := 65536 * page
  let e ← need ((s.gladeSt g).faultq.find? fun e => e.cow && e.ctx == ctx && e.va / 65536 == page) "COW_RESOLVED"
  match findPage (s.ctxSt g ctx).pages va with
  | none => .ok (releaseEntry s g e.id)
  | some p => do
    require p.merging.isNone "COW_RESOLVED"
    let n := p.home / 65536
    if !p.cow then .ok (releaseEntry s g e.id)
    else if mappings s g n ≤ 1 then .ok (releaseEntry (setPage s g ctx { p with cow := false }) g e.id)
    else match freeFrame s g with
      | none => .ok (failEntry s g e perm)
      | some k =>
        let s := setPage (unshare s p) g ctx { p with home := 65536 * k, cow := false, rwx := p.rwx ||| 2, shared := false }
        .ok (releaseEntry { s with mem := copyFrame s.mem (65536 * n) (65536 * k) } g e.id)

/-- UNIT_XLATE_RESOLVED: the page that a rasteriser, binner or ray unit waits for is mapped, and the unit goes on (R340, R348). -/
def execUnitXlateResolved (op : Nat) (s : State) : Out := runEvent s do
  let found := fun (g id : Nat) => match (s.gladeSt g).faultq.find? fun e => e.id == id with
    | some e => !e.cow && (walkPage s g e.ctx e.va).isSome
    | none => true
  match s.op? op, s.cmd? op with
  | some o, _ => do
    let id ← need (if o.kind == .trace then o.target else none) "UNIT_XLATE_RESOLVED"
    require (found o.glade id) "UNIT_XLATE_RESOLVED"
    .ok (releaseEntry s o.glade id)
  | none, some k => do
    let id ← need k.faultEnt "UNIT_XLATE_RESOLVED"
    require ((k.st == .active || k.st == .ending) && found k.glade id) "UNIT_XLATE_RESOLVED"
    .ok (releaseEntry s k.glade id)
  | none, none => notNow "UNIT_XLATE_RESOLVED"

/-- CC_RESTART: a halted control core goes on at a PC (R373, R379). -/
def execCcRestart (vf : Nat) (pc : BitVec 64) (s : State) : Out := vfRequest s vf "CC_RESTART" fun g =>
  let w := s.waveD g
  if !w.haltCc then .ok (rBusy, s)
  else
    let s := s.setWave g { w.mapFrags (fun f => { f with pc := pc, held := none, sleepEnd := none, pin := none, storing := false }) with
                           haltCc := false, replay := [] }
    let s := setReg s .ccr (0x100 + 16 * g) 0
    .ok (rOk, setReg64 s .ccr (0x108 + 16 * g) 0)

/-! ## Bandwidth (R382) and deduplication (R391) -/

/-- BANDWIDTH_WINDOW: a window of 1 µs has ended, and its bytes no longer count (R382). -/
def execBandwidthWindow (g : Nat) (s : State) : Out := runEvent s do
  require ((s.gladeSt g).bwWin != bwWindow s) "BANDWIDTH_WINDOW"
  .ok (s.updGlade g fun x => { x with bytes := 0, bwWin := bwWindow s })

/-- Contexts with a wave held by the bandwidth share: the watchdog's window does not count (R67, R382). -/
def noteShare (s : State) : State :=
  if s.glades.any fun (g, _) => bwOver s g then
    s.waves.foldl (fun t (_, w) => if !w.control && heldByShare s w then t.noteStall w.glade w.ctx else t) s
  else s

/-- The bytes of two frames are equal. -/
def sameFrames (m : List Host.Cell) (a b : Nat) : Bool :=
  let part := fun (n : Nat) => (m.filter fun c => n ≤ c.1 && c.1 < n + 65536).map fun c => (c.1 - n, c.2)
  part a == part b

/-- One more mapping shares a frame through deduplication: `p` is the mapping that stays (R377). -/
def share (s : State) (p : Page) : State :=
  let n := p.home / 65536
  setFrame s n { frameOf s n with sharers := (frameOf s n).sharers + (if p.shared then 1 else 2) }

/-- DEDUP_COMPARE: the engine compares two pages of a glade, in two steps. The first finds them equal and marks both COW;
the second, of the same two, compares again, and merges them or clears COW. A merge that has begun ends also where the engine is
disabled or the glade's pages lose W meanwhile (R391, notes/assumptions 135). -/
def execDedupCompare (g ctxA vaA ctxB vaB : Nat) (s : State) : Out := runEvent s do
  let p ← need (findPage (s.ctxSt g ctxA).pages vaA) "DEDUP_COMPARE"
  let q ← need (findPage (s.ctxSt g ctxB).pages vaB) "DEDUP_COMPARE"
  require (p.va == vaA && q.va == vaB) "DEDUP_COMPARE"
  if p.merging.isNone then do
    require (regFld s .ddp 0 0 0 == 1 && regFld s (.gld g) 0 28 28 == 0) "DEDUP_COMPARE"
    require (p.len == 65536 && q.len == 65536 && p.kind == 0 && q.kind == 0) "DEDUP_COMPARE"
    require (p.w && q.w && p.home != q.home && !(ctxA == ctxB && vaA == vaB)) "DEDUP_COMPARE"
    require q.merging.isNone "DEDUP_COMPARE"
    require (!pageUsed s g ctxA p && !pageUsed s g ctxB q) "DEDUP_COMPARE"
    if !sameFrames s.mem p.home q.home then .ok s
    else
      let s := setPage s g ctxA { p with cow := true, merging := some (ctxB, vaB) }
      .ok (setPage s g ctxB { q with cow := true, merging := some (ctxA, vaA) })
  else do
    require (p.merging == some (ctxB, vaB) && q.merging == some (ctxA, vaA)) "DEDUP_COMPARE"
    if sameFrames s.mem p.home q.home then
      let freed := mappings s g (q.home / 65536) == 1
      let s := share (unshare s q) p
      let s := setPage s g ctxA { p with merging := none, shared := true }
      let s := setPage s g ctxB { q with home := p.home, merging := none, shared := true }
      .ok (if freed then setReg s .ddp 8 (reg s .ddp 8 + 1) else s)
    else
      let s := setPage s g ctxA { p with cow := p.shared, merging := none }
      let s := setPage s g ctxB { q with cow := q.shared, merging := none }
      .ok (setReg s .ddp 12 (reg s .ddp 12 + 1))

end Sys2Proof.Machine
end

