-- ==== Sys2Proof/Machine/Errors.lean ====
section
/-! DEFINITION. Error sources and their windows (R361 to R363). -/

namespace Sys2Proof.Machine

open Sys2Proof

def srcHbm : Nat := 0xC8
def srcCore : Nat := 0xE0
def srcLink : Nat := 0x190
def srcCount : Nat := 0x19D

/-- The class of a source. -/
def srcClass (n : Nat) : Nat := if n < srcHbm then 0 else if n < srcCore then 1 else if n < srcLink then 2 else 3

def errLen (s : State) (src : Nat) : Nat := regFld s .erw (4 * srcClass src) 31 16
def errThresh (s : State) (src : Nat) : Nat := regFld s .erw (4 * srcClass src) 15 0
/-- ERW_STATn. -/
def errOff (src : Nat) : Nat := 0x1000 + 8 * src

/-- The period of LEN ms in progress, counted from start-up. -/
def errPeriod (s : State) (src : Nat) : Nat := (s.now - s.boot.since) / (1000000 * errLen s src)

/-- What a source remembers, in the period in progress: the runs of the period just over go on where it had an event. Periods of
another start-up or of another length are not consecutive with it (R362). -/
def errSt (s : State) (src : Nat) : ErrSt :=
  let e := Tab.valD s.errors src {}
  let p := errPeriod s src
  let same := e.since == s.boot.since && e.len == errLen s src
  if same && e.period == p then e
  else { e with period := p, since := s.boot.since, len := errLen s src, seen := [],
                runs := if same && e.period + 1 == p then Tab.keep e.runs fun k _ => e.seen.contains k else [] }

/-- COUNT: correctable events of the last LEN ms. -/
def errCount (s : State) (src : Nat) : Nat :=
  ((errSt s src).times.filter fun t => decide (s.now < t + errLen s src * 1000000)).length

/-- Consecutive periods in which the location of the last event recurred. -/
def errRepeat (s : State) (src : Nat) : Nat := Tab.valD (errSt s src).runs (reg s .erw (errOff src + 4)).toNat 0

/-- The low word of ERW_STATn as a read finds it: COUNT and REPEAT are as they stand at that moment. -/
def errWord (s : State) (src : Nat) : Word :=
  setFld (setFld (reg s .erw (errOff src)) 15 0 (min 65535 (errCount s src))) 29 28 (min 3 (errRepeat s src))

/-- Slices that wait to retire, in order. -/
def waitingSlices (s : State) : List Nat := s.lasting.filter fun n => decide (n < srcHbm)

/-- QUEUED of SLC_WTSTAT (R367). -/
def setQueued (s : State) : State := setRegFld s .slc 0 27 24 (min 15 (waitingSlices s).length)

/-- A source becomes lasting: LASTING is set, and its retirement waits; a link's is reported only (R362, R363). -/
def makeLasting (s : State) (src : Nat) : State :=
  if s.lasting.contains src || s.acted.contains src then s
  else
    let s := setRegFld s .erw (errOff src) 31 31 1
    if srcClass src == 3 then { s with acted := src :: s.acted }
    else setQueued { s with lasting := s.lasting ++ [src] }

/-- A retirement starts. -/
def startAction (s : State) (src : Nat) : State :=
  setQueued { s with lasting := s.lasting.filter (· != src), acted := src :: s.acted }

/-- CORRECTABLE_ERROR: the event is counted, and its source becomes lasting where COUNT exceeds THRESH or REPEAT reaches 3
(R361, R362). -/
def execCorrectableError (src loc : Nat) (s : State) : Out := runEvent s do
  require (src < srcCount) "CORRECTABLE_ERROR"
  let e := errSt s src
  let e := { e with times := s.now :: e.times.take 65535,
                    runs := if e.seen.contains loc then e.runs else Tab.put e.runs loc (Tab.valD e.runs loc 0 + 1),
                    seen := ins loc e.seen }
  let s : State := { s with errors := Tab.put s.errors src e }
  let s := setReg s .erw (errOff src + 4) (BitVec.ofNat 32 loc)
  let s := if srcLink < src then setReg s .pyl (0x104 + 8 * (src - srcLink - 1)) (satAdd (reg s .pyl (0x104 + 8 * (src - srcLink - 1))) 1) else s
  .ok (if errThresh s src < errCount s src || 3 ≤ errRepeat s src then makeLasting s src else s)

/-- ERROR_PERIOD_END: a period of the source is over, and a location without an event in it starts again (R362). -/
def execErrorPeriodEnd (src : Nat) (s : State) : Out := runEvent s do
  require (src < srcCount && Tab.valD s.errors src {} != errSt s src) "ERROR_PERIOD_END"
  .ok { s with errors := Tab.put s.errors src (errSt s src) }

/-- ROW_SPARING: firmware spares a lasting HBM location; no value changes (R363). -/
def execRowSparing (src : Nat) (s : State) : Out := runEvent s do
  require (s.lasting.contains src && srcClass src == 1) "ROW_SPARING"
  .ok (startAction s src)

end Sys2Proof.Machine
end

