-- ==== Sys2Proof/Machine/Fabric.lean ====
section
/-! DEFINITION. Uncorrectable errors, windthrow, way drains and core removal (R210, R353, R362, R364 to R367, R390), and the events
of loads, atomics and cancellations, which may meet a poison mark. -/

namespace Sys2Proof.Machine

open Sys2Proof

/-! ## Uncorrectable errors (R66, R362) -/

/-- An unpublished block of a grid with IDEMP starts again, and the blocks of its grid or team group that must be resident with it are
vacated: the grid is SUSPENDED (R47, R61, R65, R66). None where they have no save slots (notes/assumptions 142). -/
def restartShared (s : State) (bid : Nat) : Option State :=
  let b := s.blkD bid
  let k := s.cmdD b.cmd
  let run := (cmdBlocks s b.cmd).filter fun (n, x) => vacatable x && n != bid
  let mates := if k.isPass then [] else if k.coop then run else run.filter fun (_, x) => (groupOf k b.lin).contains x.lin
  let slots := freeSlots s k.glade k.ctx
  if slots.length < mates.length || mates.any fun (_, x) => decide (slotBytes s k.glade k.ctx < imageBytes s x) then none
  else some (suspend ((mates.zip slots).foldl (fun s ((n, _), i) => quiesceBlock s n (some i)) (restartBlock s bid)) b.cmd k ((bid, b) :: mates))

/-- An operation meets an uncorrectable error: a copy, a fetch of weights or a trace ends its block, the tile writes of a pass end
it, and any other takes MEM_UNCORR: where no handler issued it, a block that may start again does (R66, R262, R275, R340, R348,
R369, R385). -/
def opUncorr (s : State) (oid : Nat) (o : Op) : State :=
  let s := dropOp s oid
  let w := s.waveD o.wid
  let b := s.blkD o.blk
  if o.kind == .copy || o.kind == .wload || o.kind == .trace then blockTrap s o copyFault
  else if o.kind == .tile then failUnit s o.slot memUncorr none
  else if !w.control && (s.cmdD b.cmd).idemp && !b.published && !(w.delivered && o.wait.isNone) then
    (restartShared s o.blk).getD (opTrap s o memUncorr 0)
  else opTrap s o memUncorr 0

/-- A wave meets one in a fetch or in a unit of its core; of control core g the wave is g (R66, R369, R373, R385). -/
def waveUncorr (s : State) (wid : Nat) (w : Wave) : State :=
  let b := s.blkD w.blk
  let fault := opTrap s { wid := wid, core := w.coreNo wid, glade := w.glade, ctx := w.ctx, blk := w.blk } memUncorr 0
  if !w.control && (s.cmdD w.cmd).idemp && !b.published && !w.delivered then (restartShared s w.blk).getD fault else fault

/-- `wdesc`: a descriptor in a line with a poison mark is MEM_UNCORR (R277, R364). -/
def execWdesc (d a : BitVec 8) (s : State) : Out := wdescUnit waveUncorr d a s

/-- A command meets one: its descriptor or team table is unreadable, or its pass ends (R43, R44, R340). -/
def cmdUncorr (s : State) (cmd : Nat) (k : Cmd) : State :=
  if k.isPass && (k.st == .active || k.st == .ending) then failUnit s cmd memUncorr none
  else s.updCmd cmd fun k => { k with readFail := true, faultEnt := none }

/-- A line of HBM whose home is a physical slice. -/
def lineOfSlice (s : State) (phys l : Nat) : Bool := l % 128 == 0 && l < hbmBytes && homeSlice s l == phys

/-- The write-back of windthrow's step 2 cannot correct a line of the slice: it is written with a poison mark (R364). -/
def lineUncorr (s : State) (l : Nat) : Option State := match s.wind with
  | some w => if w.step == 2 && lineOfSlice s w.phys l then some { s with marked := ins l s.marked } else none
  | none => none

/-- Who meets the error: an operation, a command or a wave by its name, control core g as 512 + g, the next fault record of
context c of glade g as 2^40 + 64 g + c (R372), or the write-back of the line at home address l, as 2^41 + l (R364). -/
def victimUncorr (s : State) (victim : Nat) : Option State :=
  if 2 ^ 41 ≤ victim then lineUncorr s (victim - 2 ^ 41)
  else if 2 ^ 40 ≤ victim then some (s.updCtx ((victim - 2 ^ 40) / 64) (victim % 64) fun x => { x with recordLost := true })
  else if 512 ≤ victim && victim < 560 then (s.wave? (victim - 512)).map fun w => waveUncorr s (victim - 512) w
  else match s.op? victim, s.cmd? victim, s.wave? victim with
    | some o, _, _ => if o.done || o.lasting then none else some (opUncorr s victim o)
    | none, some k, _ =>
      if k.st == .reading || k.st == .queued || (k.isPass && (k.st == .active || k.st == .ending)) then some (cmdUncorr s victim k) else none
    | none, none, some w => if w.control then none else some (waveUncorr s victim w)
    | none, none, none => none

/-- UNCORRECTABLE_ERROR: the source becomes lasting at once, and what meets the error, if anything does, takes it (R362); `victim`
is 0 for none. -/
def execUncorrectableError (src loc victim : Nat) (s : State) : Out := runEvent s do
  require (src < srcCount) "UNCORRECTABLE_ERROR"
  let s := setRegFld s .erw (errOff src) 30 30 1
  let s := makeLasting (setReg s .erw (errOff src + 4) (BitVec.ofNat 32 loc)) src
  if victim == 0 then .ok s else need (victimUncorr s victim) "UNCORRECTABLE_ERROR"

/-- What an operation does at its home, or MEM_UNCORR where it reads a line with a poison mark (R364 step 2). -/
def orUncorr (op : Nat) (s : State) (out : Out) : Out := match s.op? op, out with
  | some o, .next t => if o.meetsMark s && !(o.kind == .load && poisoned s o.glade o.wit) then .next (opUncorr s op o) else .next t
  | _, out => out

/-- LOAD_PERFORM. -/
def execLoadPerform (op : Nat) (s : State) : Out := orUncorr op s (performLoad op s)

/-- ATOMIC_EXECUTE. -/
def execAtomicExecute (op : Nat) (s : State) : Out := orUncorr op s (performAtomic op s)

/-- CANCEL_ANSWER: the target answers applied, and the operation has its effect, or cancelled, and it is recorded (R388). -/
def execCancelAnswer (op : Nat) (applied : Bool) (s : State) : Out := match s.op? op with
  | none => .refused (.notEnabled "CANCEL_ANSWER")
  | some o =>
    if !o.cancel || o.done then .refused (.notEnabled "CANCEL_ANSWER")
    else if !applied then .next (recordEntry s op o)
    else match o.kind with
      | .copy => execCopyLand op s
      | .barrive => execBarriveApply op s
      | .gbarrive => execGbarriveApply op s
      | .atomic => execAtomicExecute op s
      | .tqpush => execTqPushLanded op s
      | _ => execTqPopDeliver op s

/-! ## Windthrow (R364 to R367) -/

/-- STEP of SLC_WTSTAT. -/
def setStep (s : State) (n : Nat) : State := setRegFld (setRegFld s .slc 0 31 31 (if n == 0 then 0 else 1)) .slc 0 30 28 n
/-- LEFT of SLC_WTSTAT, which saturates (R367, notes/assumptions 150). -/
def setLeft (s : State) (n : Nat) : State := setRegFld s .slc 0 4 0 (min 31 (bucketsOf s n).length)

/-- WINDTHROW: the first waiting slice starts to retire; its logical number is given (R364, R366). -/
def execWindthrow (slice : Nat) (s : State) : Out := runEvent s do
  let p ← need (waitingSlices s).head? "WINDTHROW"
  require (s.wind.isNone && sliceEn s slice && slicePhys s slice == p) "WINDTHROW"
  let s := startAction s p
  let s := setRegFld (setStep s 1) .slc 0 23 16 slice
  .ok (setLeft { s with wind := some { slice := slice, phys := p }, failedSlices := ins p s.failedSlices } slice)

/-- The physical slices that a drain waits for have all finished (R210). -/
def drainOver (s : State) (g : Nat) : Bool := (enabledSlices s).all fun n => (s.gladeSt g).drained.contains (slicePhys s n)

/-- BUSY clears once every slice enabled at that moment has finished (R210, R366). -/
def endDrain (s : State) (g : Nat) : State :=
  if regFld s (.gld g) 0x1104 31 31 == 1 && drainOver s g then setRegFld (setRegFld s (.gld g) 0x1104 31 31 0) (.gld g) 0x1104 15 0 0 else s

/-- A physical slice has finished the way drain of a glade: DONE counts it, and BUSY clears with the last (R210, R366). -/
def drainSlice (s : State) (g phys : Nat) : State :=
  if regFld s (.gld g) 0x1104 31 31 == 0 then s
  else
    let s := s.updGlade g fun x => { x with drained := ins phys x.drained }
    endDrain (setRegFld s (.gld g) 0x1104 23 16 (min 192 (s.gladeSt g).drained.length)) g

/-- WAY_DRAIN_SLICE_DONE: a slice, by its logical number, has drained the glade's removed ways (R210). -/
def execWayDrainSliceDone (g slice : Nat) (s : State) : Out := runEvent s do
  require (regFld s (.gld g) 0x1104 31 31 == 1 && sliceEn s slice && !(s.gladeSt g).drained.contains (slicePhys s slice)) "WAY_DRAIN_SLICE_DONE"
  .ok (drainSlice s g (slicePhys s slice))

/-- Entries of a physical slice. -/
def entOf (phys e : Nat) : Bool := e / 16 / 2048 == phys

/-- The slice numbered highest takes the retired number; the counts follow (R364 step 6, R37). -/
def renameSlice (s : State) (n : Nat) : State :=
  let h := slicesOn s - 1
  let s :=
    if n == h then s
    else
      let s := (bucketsOf s h).foldl (fun s b => setBucket s b n) s
      setRegFld s .fab (0x2000 + 4 * n) 7 0 (slicePhys s h)
  let s := setRegFld s .fab (0x2000 + 4 * h) 8 8 0
  let s := setRegFld s .mgt 0x10 23 16 h
  let r := min 255 (regFld s .slc 0 15 8 + 1)
  let s := setRegFld s .slc 0 15 8 r
  if 8 < r then setRegFld s .mgt 0x10 31 31 1 else s

/-- WINDTHROW_STEP_DONE: the step in progress is complete in every slice, and the next begins (R364). -/
def execWindthrowStepDone (s : State) : Out := runEvent s do
  let w ← need s.wind "WINDTHROW_STEP_DONE"
  let go := fun (s : State) => setStep { s with wind := some { w with step := w.step + 1 } } (w.step + 1)
  if w.step == 2 then .ok (go ((Tab.keys s.glades).foldl (fun s g => drainSlice s g w.phys) s))
  else if w.step == 3 then .ok (go (migrateSync s w))
  else if w.step == 4 then .ok (go (discardEnts s fun e _ => entOf w.phys e))
  else if w.step == 5 then do
    require (bucketsOf s w.slice).isEmpty "WINDTHROW_STEP_DONE"
    .ok (go s)
  else if w.step == 6 then
    let s := renameSlice s w.slice
    .ok (setStep { (Tab.keys s.glades).foldl endDrain s with wind := none } 0)
  else .ok (go s)

/-- BUCKET_MOVE: the lowest bucket of the slice moves, as one step, so that every access, landing probe and lookup meets it at its
old slice or at its new one; Canopy entries it held are absent there (R315, R353, R364 step 5, R365). -/
def execBucketMove (s : State) : Out := runEvent s do
  let w ← need s.wind "BUCKET_MOVE"
  require (w.step == 5) "BUCKET_MOVE"
  let b ← need (bucketsOf s w.slice).head? "BUCKET_MOVE"
  let t ← need (moveTarget s w.slice) "BUCKET_MOVE"
  let s := discardEnts s fun e x => entOf w.phys e && Config.canopyHash 0 (ofWords x.key) % 4096 == b
  .ok (setLeft (setBucket s b t) w.slice)

/-! ## Core removal (R390) -/

/-- The physical core behind a logical number. -/
def physCore (s : State) (core : Nat) : Nat := Tab.valD s.boot.coreMap core 0

/-- A glade's cores, and CORES of its frame 0 (R380). -/
def setCores (s : State) (g : Nat) (cs : List Nat) : State :=
  let m := cs.foldl (fun m c => m ||| 2 ^ c) 0
  let s := ((wordsOf 5 m).zipIdx).foldl (fun s (w, i) => setReg s (.gld g) (0x10 + 4 * i) w) s
  s.updGlade g fun x => { x with cores := cs }

/-- Blocks that receive no slot are ended, and their grid or pass ends FAULTED with MEM_UNCORR (R390). -/
def endBlocks (s : State) (cmd : Nat) (k : Cmd) (bs : List (Nat × Block)) : State :=
  if bs.isEmpty then s
  else if k.isPass then failUnit s cmd memUncorr none
  else noteEnding ((bs.foldl (fun s (id, _) => killBlock s id) s).updCmd cmd fun k => { k with firstTerm := some (k.firstTerm.getD memUncorr) }) cmd

/-- Blocks of a command on a core leave it as by a mask request; one without a slot is ended (R390). -/
def vacateCore (s : State) (g cmd : Nat) (k : Cmd) (core : Nat) : State :=
  let bs := vacated s cmd k [core]
  let slots := freeSlots s g k.ctx
  let fits := fun (b : Nat × Block) => decide (imageBytes s b.2 ≤ slotBytes s g k.ctx)
  let fit := bs.filter fits
  endBlocks (vacate s cmd k (fit.take slots.length) slots) cmd k (fit.drop slots.length ++ bs.filter fun b => !fits b)

/-- A core with nothing on it is scrubbed and disabled, its dirty lines landing first; counts follow (R37, R390). -/
def dropCore (s : State) (core : Nat) : State :=
  let s := landWhere s core fun _ => true
  let s := match gladeOf s core with
    | some g =>
      let s := setCores s g ((s.gladeSt g).cores.filter (· != core))
      s.updGlade g fun x => { x with removing := x.removing.filter (· != core) }
    | none => s
  let s := setRegFld s .mgt 0x10 15 8 (regFld s .mgt 0x10 15 8 - 1)
  let s := setRegFld s .mgt 0x10 31 31 1
  { s with cores := Tab.del s.cores core, failedCores := ins (physCore s core) s.failedCores,
           boot := { s.boot with cores := s.boot.cores.filter (· != core) } }

/-- Nothing stands on a core: no wave, no block, and no operation but a write of a notify word (R390). -/
def coreEmpty (s : State) (core : Nat) : Bool :=
  (coreWaves s core).isEmpty && (s.blocks.all fun (_, b) => b.st == .saved || !b.cores.contains core) &&
  s.ops.all fun (_, o) => o.core != core || o.kind == .notify || o.done

/-- The core's removal has started and it is still in service, whatever its glade has become (R390, notes/assumptions 128). -/
def coreLeaves (s : State) (core : Nat) : Bool := s.boot.cores.contains core && s.acted.contains (srcCore + physCore s core)

/-- CORE_REMOVAL: a lasting core is closed and its blocks are vacated, those restored to it meanwhile too; once it is empty it is
scrubbed and leaves (R363, R390). -/
def execCoreRemoval (core : Nat) (s : State) : Out := runEvent s do
  let src := srcCore + physCore s core
  let first := s.lasting.contains src
  require (s.boot.cores.contains core && (first || coreLeaves s core)) "CORE_REMOVAL"
  let s := if first then startAction s src else s
  match gladeOf s core with
  | none => .ok (dropCore s core)
  | some g =>
    let s := s.updGlade g fun x => { x with removing := ins core x.removing }
    let cs := s.cmds.filter fun (c, k) => k.glade == g && !(vacated s c k [core]).isEmpty
    if !cs.isEmpty then .ok (cs.foldl (fun s (c, k) => vacateCore s g c k core) s)
    else if coreEmpty s core then .ok (dropCore s core)
    else do
      require first "CORE_REMOVAL"
      .ok s

end Sys2Proof.Machine
end

