-- ==== Sys2Proof/Machine/Power.lean ====
section
/-! DEFINITION. Power, temperature and clocks (R18, R437, R438). -/

namespace Sys2Proof.Machine

open Sys2Proof

/-- Control cores that run. -/
def controlCores (s : State) : List Nat := (s.glades.map fun (g, _) => 256 + g)

/-- Every core with a clock: those in service, and the control cores of configured glades. -/
def clockedCores (s : State) : List Nat := s.boot.cores ++ controlCores s

/-- A core steps down 25 MHz; at the floor its issue is gated instead. -/
def stepDown (s : State) (c : Nat) : State :=
  let x := s.coreSt c
  if 500 < x.mhz then setMhz s c (x.mhz - 25) else s.setCore c { x with gated := true }

/-- A core steps up 25 MHz. -/
def stepUp (s : State) (c : Nat) : State := setMhz s c (min 1100 ((s.coreSt c).mhz + 25))

/-- Gating ends. -/
def ungate (s : State) (c : Nat) : State := s.updCore c fun x => { x with gated := false, skips := [false, false, false, false] }

/-- THROTTLED of MGT_PWR (R437). -/
def setThrottled (s : State) : State :=
  setRegFld s .mgt 0x20 0 0 (if (clockedCores s).any fun c => decide ((s.coreSt c).mhz < 1100) then 1 else 0)

def powerLimit (s : State) : Nat := regFld s .mgt 0x20 27 16
def powerShare (s : State) (g : Nat) : Nat := regFld s (.gld g) 0x38 7 0

/-- Glades whose power exceeds their share, the largest excess first. -/
def exceeding (s : State) (ws : List Nat) : List Nat :=
  let excess := fun (g : Nat) => 256 * ws.getD g 0 - powerShare s g * powerLimit s
  ((Tab.keys s.glades).filter fun g => decide (0 < excess g)).mergeSort fun a b => excess b ≤ excess a

/-- The 100 °C rule holds: a step has found it, or a die has been sampled at 100 °C or more (R438). -/
def hotNow (s : State) : Bool := s.hot || s.temps.any fun (_, t) => 100 ≤ t

/-- Every die is below 95 °C. -/
def coolNow (s : State) : Bool := regFld s .mgt 0x20 15 8 < 95 && s.temps.all fun (_, t) => t < 95

/-- What a window of a device power and of each glade's does to the clocks. -/
def powerStep (watts : Nat) (gladeWatts : List Nat) (s : State) : State :=
  if powerLimit s < watts then
    let gs := exceeding s gladeWatts
    let cs := if gs.isEmpty then clockedCores s else gs.flatMap fun g => gladeCores s g
    setThrottled (cs.foldl stepDown s)
  else if 100 * watts < 98 * powerLimit s then
    let gated := (clockedCores s).filter fun c => (s.coreSt c).gated
    if hotNow s then s
    else if gated.isEmpty then setThrottled ((clockedCores s).foldl stepUp s)
    else if coolNow s then gated.foldl ungate s else s
  else s

/-- POWER_WINDOW: a window of 1 ms ends, once in each ms (R438). -/
def execPowerWindow (watts : Nat) (gladeWatts : List Nat) (s : State) : Out := runEvent s do
  require (msFree s 64) "POWER_WINDOW"
  .ok (powerStep watts gladeWatts (noteMs s 64))

/-- THERMAL_STEP: from 100 °C on any die every core steps down, once in each ms, until every die is below 95 °C (R438). -/
def execThermalStep (celsius : Nat) (s : State) : Out := runEvent s do
  require (celsius < 115 && (s.hot || 100 ≤ celsius) && msFree s 65) "THERMAL_STEP"
  let s := noteMs s 65
  let s := setRegFld s .mgt 0x20 15 8 celsius
  if s.hot && celsius < 95 then .ok { s with hot := false }
  else .ok (setThrottled ((clockedCores s).foldl stepDown { s with hot := true }))

end Sys2Proof.Machine
end

