-- ==== Sys2Proof/Machine/Links.lean ====
section
/-! DEFINITION. RolcyLink and Pyura: requests from outside the device, and links that go down (R223, R392, R395, R396). -/

namespace Sys2Proof.Machine

open Sys2Proof

/-- Frames that a range touches. -/
def framesOf (s : State) (pa n : Nat) : List Frame :=
  ((List.range (n / 65536 + 2)).filter fun i => 65536 * (pa / 65536 + i) < pa + n).map fun i => frameOf s (pa / 65536 + i)

/-- A range touches no frame of a protected glade (R392). -/
def openRange (s : State) (pa n : Nat) : Bool := (framesOf s pa n).all fun f => !(f.valid && f.key.isSome)

/-- A range lies in frames of one glade that is paired with a glade behind a port: one that has been granted a range there (R396,
notes/assumptions 102). -/
def pairedRange (s : State) (port pa n : Nat) : Bool :=
  s.glades.any fun (g, x) => (x.peerRanges.any fun r => r.1 == port) && (framesOf s pa n).all fun f => f.valid && f.glade == g

/-- Answers of outside requests: 0 done, 1 an error completion, with the bytes read. -/
def busReply (s : State) (err : Bool) (data : List Byte) : State :=
  { s with replies := ((if err then 1#32 else 0#32) :: data.map fun b => b.setWidth 32) :: s.replies }

/-- Bytes a request covers. -/
def busLen (op : BusOp) : Nat := match op with
  | .read n => n
  | .write bs => bs.length
  | .atomic aop _ _ _ => atomSize aop
  | .register n => n

/-- A request for memory, not for registers. -/
def forMemory (op : BusOp) : Bool := match op with
  | .register _ => false
  | _ => true

/-- A request answered with an error completion; it reads as all ones. -/
def refuseBus (s : State) (op : BusOp) : State := match op with
  | .write _ => busReply s true []
  | _ => busReply s true (List.replicate (busLen op) 0xFF#8)

/-- Carries out a request of the host or of a peer at the home slice; on a frame of a protected glade it is answered with an
error completion and reads as all ones (R392). -/
def serveBus (s : State) (pa : Nat) (op : BusOp) : State :=
  if hbmBytes < pa + busLen op || !openRange s pa (busLen op) then refuseBus s op
  else match op with
    | .read n => busReply s false (toBytes n (getMem s.mem pa n))
    | .write bs => busReply { s with mem := setMem s.mem pa bs.length (ofBytes bs) } false []
    | .atomic aop au rnd x =>
      let n := atomSize aop
      let old := getMem s.mem pa n
      busReply { s with mem := setMem s.mem pa n (atomNew s 64 aop au rnd old x) } false (toBytes n old)
    | .register _ => s

/-- HOST_STORE: a host store over RolcyLink lands at its home slice (R223). -/
def execHostStore (pa : Nat) (bytes : List Byte) (s : State) : Out := runEvent s do
  require s.hostUp "HOST_STORE"
  .ok (serveBus s pa (.write bytes))

/-- UP of PYL_STATn. -/
def portUp (s : State) (port : Nat) : Bool := regFld s .pyl (0x100 + 8 * port) 0 0 == 1

/-- PEER_REQUEST: a remote read, write or atomic arrives over a port; it reaches only a glade that is paired there (R396). -/
def execPeerRequest (port pa : Nat) (op : BusOp) (s : State) : Out := runEvent s do
  require (port < 12 && portUp s port && forMemory op) "PEER_REQUEST"
  .ok (if pairedRange s port pa (busLen op) then serveBus s pa op else refuseBus s op)

/-- An operation reaches the peer behind a port and has not performed. -/
def Op.onPort (o : Op) (port : Nat) : Bool :=
  !o.done && !o.scr && o.accs.any fun a => a.home / 2 ^ 56 == 2 + port || a.home2 / 2 ^ 56 == 2 + port

/-- An access is lost with its port: a store is discarded and poisons its range, anything else is an error (R396). -/
def losePeer (s : State) (oid : Nat) (o : Op) : State := match o.kind with
  | .store => dropOp s oid
  | _ => opUncorr s oid o

/-- VALID of a skew register clears as its path goes down (R427). -/
def clearSkew (s : State) (n : Nat) : State := setRegFld s .tmb (0x10C + 16 * n) 31 31 0

/-- PYURA_PORT_DOWN: a port goes down, and outstanding accesses over it are lost; so are those made while it is down (R396). -/
def execPyuraPortDown (port : Nat) (s : State) : Out := runEvent s do
  let lost := s.ops.filter fun (_, o) => o.onPort port
  require (port < 12 && (portUp s port || !lost.isEmpty)) "PYURA_PORT_DOWN"
  let s := if portUp s port then setRegFld (setRegFld s .pyl (0x100 + 8 * port) 0 0 0) .pyl (0x100 + 8 * port) 1 1 1 else s
  .ok (clearSkew (lost.foldl (fun s (k, o) => if (s.op? k).isSome then losePeer s k o else s) s) (13 + port))

/-- PYURA_PORT_UP: the link has trained (R396). -/
def execPyuraPortUp (port : Nat) (s : State) : Out := runEvent s do
  require (port < 12 && !portUp s port) "PYURA_PORT_UP"
  .ok (setRegFld s .pyl (0x100 + 8 * port) 0 0 1)

/-- ROLCYLINK_DOWN: the path to the host goes down (R427). -/
def execRolcylinkDown (s : State) : Out := runEvent s do
  require s.hostUp "ROLCYLINK_DOWN"
  .ok (clearSkew { s with hostUp := false } 12)

/-- ROLCYLINK_UP: the path to the host is up again (R427). -/
def execRolcylinkUp (s : State) : Out := runEvent s do
  require (!s.hostUp) "ROLCYLINK_UP"
  .ok { s with hostUp := true }

end Sys2Proof.Machine
end

