-- ==== Sys2Proof/Machine/Sched.lean ====
section
/-! DEFINITION. Readiness of a fragment apart from its operands, and issue classes (R59, R60). -/

namespace Sys2Proof.Machine

open Sys2Proof

/-- Replay entries of a restored block are still to be applied, before any of its fragments issues (R64, R388). -/
def replaying (s : State) (blk : Nat) : Bool := s.ops.any fun (_, o) => o.wait == some blk && o.unapplied

/-- Why a fragment may not issue now, apart from fetch and operands (R59, R418); none where it may. The check of a `vdec` goes
on through halts, steps and pre-emption (R195), and an `scstat` that waits for its answer ends before its block is saved, whatever
else holds its fragment (R316). -/
def blocked (s : State) (w : Wave) (f : Frag) : Option Stall :=
  let b := s.blkD w.blk
  let stopped : Bool := match w.intr with
    | some it =>
      let fell : Bool := match b.image with
        | some im => im.fallback
        | none => false
      it.hdone != 0 || (it.cause == 0x18 && (fell || replaying s w.blk))
    | none => b.st != .running || replaying s w.blk
  if f.decoding || (f.reading && b.st == .quiescing) then (if !ctxRuns s w.glade w.ctx || b.terminated then some .other else none)
  else if f.halt.isSome || !f.haltDue.isEmpty || (w.frags.any fun (_, g) => g.stepping != 0 && g.memb != f.memb) then some .haltedDebug
  else if w.control then
    if w.haltCc then some .other else if !w.replay.isEmpty then some .faultReplay
    else if f.sleepEnd.isSome then some .other else none
  else if stopped then some .preemptQuiesce
  else if !w.replay.isEmpty then some .faultReplay
  else if !ctxRuns s w.glade w.ctx || b.terminated || f.parked.isSome || f.sleepEnd.isSome then some .other
  else none

/-- The issue class of a wave: 4 at handler level, else its launch priority (R60). -/
def issueClass (s : State) (w : Wave) : Nat := if w.intr.isSome || isDebugWave s w then 4 else w.prio

end Sys2Proof.Machine
end

