-- ==== Sys2Proof/Machine/System.lean ====
section
/-! DEFINITION. System and hidden registers and the timebase (R126, R156 to R158, R384, R417). -/

namespace Sys2Proof.Machine

open Sys2Proof

/-- The privilege level of a wave: 0 user, 1 handler (R368, R398). -/
def levelOf (s : State) (w : Wave) : Nat := if w.intr.isSome || isDebugWave s w then 1 else 0

/-- Numbers within the range of a level (R125). -/
def sysInRange (level n : Nat) : Bool := n < (if level == 0 then 0x40 else if level == 1 then 0x80 else 0x100)

/-- Assigned system register numbers below 0x80. -/
def sysAssigned (n : Nat) : Bool := n ≤ 0x0C || (0x40 ≤ n && n ≤ 0x44) || (0x60 ≤ n && n ≤ 0x72)

/-- Read-only numbers. -/
def sysReadOnly (n : Nat) : Bool :=
  n ≤ 0x03 || (0x06 ≤ n && n ≤ 0x0C) || (0x40 ≤ n && n ≤ 0x43) || n == 0x72

/-- µs of the save budget left, rounded down (R384). -/
def budgetLeft (s : State) (w : Wave) : Nat := match w.intr, (s.blkD w.blk).budgetAt with
  | some it, some t => if it.cause == 0x18 && !it.restore then (t - s.now) / 1000 else 0
  | _, _ => 0

/-- The value of a system register (R126, R156, R384, R417). -/
def sysValue (s : State) (w : Wave) (f : Frag) (n : Nat) : Word :=
  let hi := fun (v : DWord) => v.extractLsb' 32 20
  let t := fun i => BitVec.ofNat 32 (w.teams.getD i 0)
  if n == 0x00 then f.trap.cause.setWidth 32
  else if n == 0x01 then f.trap.tpc.extractLsb' 0 32
  else if n == 0x02 then (hi f.trap.tpc).setWidth 32
  else if n == 0x03 then f.trap.targ
  else if n == 0x04 then w.uhandler.extractLsb' 0 32
  else if n == 0x05 then (hi w.uhandler).setWidth 32
  else if n == 0x06 then (if w.control then 0 else BitVec.ofNat 32 (w.widx % 256 + w.quad * 2 ^ 8 + w.core * 2 ^ 16))
  else if n == 0x07 then (if w.control then 0 else BitVec.ofNat 32 ((s.blkD w.blk).lin % 2 ^ 24))
  else if n == 0x08 then (if w.control then 0 else BitVec.ofNat 32 w.part)
  else if n == 0x09 then BitVec.ofNat 32 (if w.control then w.ccSeq else (s.cmdD w.cmd).seq)
  else if n == 0x0A then (if w.control then 0 else t 0 + (t 1 <<< 16))
  else if n == 0x0B then (if w.control then 0 else t 2 + (t 3 <<< 16))
  else if n == 0x0C then BitVec.ofNat 32 (if w.control then w.glade else w.glade + w.ctx * 2 ^ 8)
  else if n == 0x40 then (match w.intr with
    | some it => BitVec.ofNat 32 (it.cause + (if it.restore then 2 ^ 8 else 0))
    | none => 0)
  else if n == 0x41 then (match w.intr with
    | some it => it.harea.extractLsb' 0 32
    | none => 0)
  else if n == 0x42 then (match w.intr with
    | some it => (hi it.harea).setWidth 32
    | none => 0)
  else if n == 0x43 then BitVec.ofNat 32 (budgetLeft s w)
  else if 0x60 ≤ n && n ≤ 0x6F then (Tab.valD (s.coreSt w.core).preds (n - 0x60) {}).hits
  else if n == 0x70 then w.dselLo
  else if n == 0x71 then w.dselHi
  else if n == 0x72 then w.dstat
  else 0

/-- `sysrd` (R156). -/
def execSysrd (d n : BitVec 8) (s : State) : Out :=
  issueUnit 4 true s fun s wid _ w f => do
    trapIf (!sysInRange (levelOf s w) n.toNat) priv
    trapIf (!sysAssigned n.toNat) illegalOp
    let g ← getOpnds s wid w f { sd := some (d.toNat, 1, false) }
    .ok (s.setWave wid (w.setS g.sd (sysValue s w f n.toNat)))

/-- A value HDONE accepts in the wave's delivery (R384, R414). -/
def hdoneOk (w : Wave) (v : Word) : Bool := match w.intr with
  | some it =>
    if it.cause == 0x19 then v == 3 else if it.restore then v == 2 else v == 1
  | none => false

/-- Writes a writable system register. -/
def sysWrite (s : State) (wid : Nat) (w : Wave) (n : Nat) (v : Word) : Eff State :=
  if n == 0x04 then do
    trapIf (v.getLsbD 0) misalign
    .ok (s.setWave wid { w with uhandler := w.uhandler.extractLsb' 32 32 ++ v })
  else if n == 0x05 then do
    trapIf (fld v 31 20 != 0) illegalOp
    .ok (s.setWave wid { w with uhandler := v ++ w.uhandler.extractLsb' 0 32 })
  else if n == 0x44 then do
    trapIf (!hdoneOk w v) illegalOp
    .ok (s.setWave wid { w with intr := w.intr.map fun it => { it with hdone := v.toNat } })
  else if 0x60 ≤ n && n ≤ 0x6F then
    let p := Tab.valD (s.coreSt w.core).preds (n - 0x60) {}
    .ok (s.updCore w.core fun c => { c with preds := Tab.putD c.preds (n - 0x60) { p with hits := v } {} })
  else if n == 0x70 then .ok (s.setWave wid { w with dselLo := v })
  else .ok (s.setWave wid { w with dselHi := v })

/-- `syswr` (R156). -/
def execSyswr (n a : BitVec 8) (s : State) : Out :=
  issueUnit 4 true s fun s wid _ w f => do
    trapIf (!sysInRange (levelOf s w) n.toNat) priv
    trapIf (!sysAssigned n.toNat) illegalOp
    trapIf (sysReadOnly n.toNat) priv
    let g ← getOpnds s wid w f { s := [{ fd := a.toNat }] }
    sysWrite s wid w n.toNat (BitVec.ofNat 32 (g.s.getD 0 0))

/-- `clock`: the timebase of the issuing core's die, sampled at issue (R157). -/
def execClock (d : BitVec 8) (s : State) : Out :=
  issueUnit 4 true s fun s wid _ w f => do
    let g ← getOpnds s wid w f { sd := some (d.toNat, 2, true) }
    .ok (s.setWave wid (w.setSPair g.sd (timebase s (dieOf (w.coreNo wid)))))

/-! ## Hidden registers (R158) -/

/-- The set-aside fragments of a delivery, in ascending lowest member lane. -/
def hiddenFrags (it : Intr) : List (Nat × Frag) :=
  (it.ents.filterMap fun (k, e) => match e with
    | .frag f => some (k, f)
    | .join _ => none).mergeSort fun a b => lowLane a.2.memb ≤ lowLane b.2.memb

/-- 32 full bits from register `32 k`, of `n` registers. -/
def fullBits (empties : List Nat) (n k : Nat) : Word :=
  (List.range 32).foldl (fun m i =>
    if 32 * k + i < n && !empties.contains (32 * k + i) then m ||| laneBit i else m) 0

/-- Four 6-bit counters. HCNT0, HCNT1 and the full bits are read as they stand now, not as they stood at the delivery, so a
handler's own operations show in them (notes/assumptions 129). -/
def packCounts (s : State) (wid : Nat) (cs : List Nat) : Word :=
  BitVec.ofNat 32 ((cs.zipIdx).foldl (fun a (c, i) => a + outstanding s wid c * 2 ^ (6 * i)) 0)

/-- The value of a hidden register of the selected fragment. -/
def hiddenFragValue (f : Frag) (rj : DWord) (n : Nat) : Word :=
  let lo := fun (v : DWord) => v.extractLsb' 0 32
  let hi := fun (v : DWord) => (v.extractLsb' 32 20).setWidth 32
  if n == 0x01 then lo f.pc
  else if n == 0x02 then hi f.pc
  else if n == 0x03 then f.memb
  else if n == 0x04 then f.emask
  else if n == 0x05 then f.fmt
  else if n == 0x06 then f.x0.setWidth 32 + (f.x1.setWidth 32 <<< 8)
  else if n == 0x07 then lo rj
  else if n == 0x08 then hi rj + (if f.pending.isSome then 0x80000000#32 else 0)
  else if n == 0x09 then (if f.trap.inHandler then 1 else 0)
  else if n == 0x0A then lo f.trap.rpc
  else if n == 0x0B then hi f.trap.rpc
  else if n == 0x0C then f.trap.cause.setWidth 32
  else if n == 0x0D then f.trap.targ
  else if n == 0x0E then lo f.trap.tpc
  else hi f.trap.tpc

/-- Assigned hidden register numbers. -/
def hidAssigned (n : Nat) : Bool := n ≤ 0x15 && (n ≤ 0x0F || 0x10 ≤ n) || (0x18 ≤ n && n ≤ 0x21)

/-- The selected fragment of a delivery. -/
def hiddenSel (it : Intr) : Eff (Nat × Frag) := match (hiddenFrags it)[it.hsel]? with
  | some x => .ok x
  | none => trap illegalOp

/-- The delivery a hidden register access needs. -/
def hiddenAccess (s : State) (w : Wave) (n : Nat) : Eff Intr := do
  trapIf (levelOf s w == 0) priv
  match w.intr with
  | none => trap illegalOp
  | some it => do
    trapIf (!hidAssigned n) illegalOp
    .ok it

/-- ADDR of HRJP_LO and HRJP_HI of an entry. -/
def hiddenRj (it : Intr) (k : Nat) (f : Frag) : DWord := Tab.valD it.rj k (f.pending.getD 0)

/-- The value of a hidden register. -/
def hiddenValue (s : State) (wid : Nat) (w : Wave) (it : Intr) (n : Nat) : Eff Word :=
  let es := if it.cause == 0x18 then it.sEmpty else w.sEmpty
  let ev := if it.cause == 0x18 then it.vEmpty else w.vEmpty
  if n == 0 then .ok (BitVec.ofNat 32 (it.hsel + (hiddenFrags it).length * 2 ^ 8))
  else if n ≤ 0x0F then do
    let (k, f) ← hiddenSel it
    .ok (hiddenFragValue f (hiddenRj it k f) n)
  else if n ≤ 0x15 then .ok (fullBits es 192 (n - 0x10))
  else if n ≤ 0x1F then .ok (fullBits ev w.nvreg (n - 0x18))
  else if n == 0x20 then .ok (packCounts s wid [cLD, cST, cCP, cMX])
  else .ok (packCounts s wid [cWL, cAT, cTQ, cTR])

/-- `hidrd` (R158). -/
def execHidrd (d n : BitVec 8) (s : State) : Out :=
  issueUnit 4 true s fun s wid _ w f => do
    let it ← hiddenAccess s w n.toNat
    let g ← getOpnds s wid w f { sd := some (d.toNat, 1, false) }
    let v ← hiddenValue s wid w it n.toNat
    .ok (s.setWave wid (w.setS g.sd v))

/-- A 64-bit address with its low or high part replaced. -/
def withLo (v : DWord) (x : Word) : DWord := v.extractLsb' 32 32 ++ x
def withHi (v : DWord) (x : Word) : DWord := (x &&& 0xFFFFF#32) ++ v.extractLsb' 0 32

/-- A write to a field of the selected fragment. -/
def hiddenFragWrite (f : Frag) (rj : DWord) (n : Nat) (v : Word) : Eff Frag :=
  if n == 0x01 then do
    trapIf (v.getLsbD 0) misalign
    .ok { f with pc := withLo f.pc v }
  else if n == 0x02 then do
    trapIf (fld v 31 20 != 0) illegalOp
    .ok { f with pc := withHi f.pc v }
  else if n == 0x04 then .ok { f with emask := v &&& f.memb }
  else if n == 0x05 then if fmtOk v then .ok { f with fmt := v } else trap fmtIllegal
  else if n == 0x06 then do
    trapIf (fld v 31 16 != 0) illegalOp
    .ok { f with x0 := v.extractLsb' 0 8, x1 := v.extractLsb' 8 8 }
  else if n == 0x07 then .ok { f with pending := f.pending.map fun p => withLo p v }
  else if n == 0x08 then do
    trapIf (fld v 30 20 != 0) illegalOp
    .ok { f with pending := if v.getLsbD 31 then some (withHi rj v) else none }
  else if n == 0x09 then do
    trapIf (fld v 31 1 != 0) illegalOp
    .ok { f with trap := { f.trap with inHandler := v.getLsbD 0 } }
  else if n == 0x0A then do
    trapIf (v.getLsbD 0) misalign
    .ok { f with trap := { f.trap with rpc := withLo f.trap.rpc v } }
  else if n == 0x0B then do
    trapIf (fld v 31 20 != 0) illegalOp
    .ok { f with trap := { f.trap with rpc := withHi f.trap.rpc v } }
  else if n == 0x0C then do
    trapIf (fld v 31 8 != 0) illegalOp
    .ok { f with trap := { f.trap with cause := v.extractLsb' 0 8 } }
  else if n == 0x0D then .ok { f with trap := { f.trap with targ := v } }
  else if n == 0x0E then .ok { f with trap := { f.trap with tpc := withLo f.trap.tpc v } }
  else if n == 0x0F then do
    trapIf (fld v 31 20 != 0) illegalOp
    .ok { f with trap := { f.trap with tpc := withHi f.trap.tpc v } }
  else trap illegalOp

/-- `hidwr` (R158). -/
def execHidwr (n a : BitVec 8) (s : State) : Out :=
  issueUnit 4 true s fun s wid _ w f => do
    let it ← hiddenAccess s w n.toNat
    let g ← getOpnds s wid w f { s := [{ fd := a.toNat }] }
    let v := BitVec.ofNat 32 (g.s.getD 0 0)
    if n.toNat == 0 then do
      trapIf (fld v 31 14 != 0 || fld v 7 5 != 0) illegalOp
      .ok (s.setWave wid { w with intr := some { it with hsel := fld v 4 0 } })
    else if n.toNat ≤ 0x0F then do
      let (k, h) ← hiddenSel it
      let rj := hiddenRj it k h
      let h ← hiddenFragWrite h rj n.toNat v
      let it := if n == 0x07 then { it with rj := Tab.put it.rj k (withLo rj v) }
        else if n == 0x08 then { it with rj := Tab.put it.rj k (withHi rj v) } else it
      .ok (s.setWave wid { w with intr := some { it with ents := Tab.put it.ents k (.frag h) } })
    else trap illegalOp

end Sys2Proof.Machine
end

