-- ==== Sys2Proof/Machine/Debug.lean ====
section
/-! DEFINITION. The DBG functions, STEP delivery, the taproot's halts, and periodic samples (R397 to R420). -/

namespace Sys2Proof.Machine

open Sys2Proof

/-! ## DSTAT codes (R410) -/

def dOk : Nat := 0
def dNoWave : Nat := 1
def dNotHalted : Nat := 2
def dBadArg : Nat := 3
def dEmpty : Nat := 4
def dParked : Nat := 5
def dNoEntry : Nat := 6
def dEnded : Nat := 7
def dBadVal : Nat := 8

/-- A DBG function: no instruction of a control core (R124); any wave but a debug handler traps PRIV (R398). -/
def dbgUnit (s : State) (body : Body) : Out :=
  issueUnit 4 true s fun s wid eid w f => do
    noControl w
    trapIf (!isDebugWave s w) priv
    body s wid eid w f

/-- Writes DSTAT. -/
def setDstat (s : State) (wid code : Nat) : State := s.updWave wid fun w => { w with dstat := BitVec.ofNat 32 code }

/-- One scalar source of a DBG function. -/
def dbgArg (s : State) (wid : Nat) (w : Wave) (f : Frag) (a : BitVec 8) : Eff Nat := do
  let g ← getOpnds s wid w f { s := [{ fd := a.toNat }] }
  .ok (g.s.getD 0 0)

/-! ## Targets (R410, R417) -/

/-- The target wave of a debug handler wave: wave WAVE of block BLOCK of command SEQ of TCTX, where resident. -/
def dbgWave (s : State) (w : Wave) : Option (Nat × Wave) :=
  s.waves.find? fun (_, v) =>
    !v.control && v.glade == w.glade && v.ctx == dbgTarget s w.glade && (s.cmdD v.cmd).seq == w.dselHi.toNat &&
    (s.blkD v.blk).lin == fld w.dselLo 31 8 && v.widx == fld w.dselLo 7 0

/-- Some fragment of the wave is HALTED, those set aside included. -/
def Wave.anyHalted (w : Wave) : Bool := w.allFrags.any fun f => f.halt.isSome

/-- A halt of the wave has not taken effect yet. -/
def Wave.halting (w : Wave) : Bool := w.haltReq.isSome || w.allFrags.any fun f => !f.haltDue.isEmpty

/-- Every fragment of the wave is HALTED or PARKED. -/
def Wave.stopped (w : Wave) : Bool := w.allFrags.all fun f => f.halt.isSome || f.parked.isSome

/-- A fragment leaves its halt: its timeout count goes on where it paused (R409). -/
def Frag.resume (now : Nat) (f : Frag) : Frag := match f.halt with
  | none => f
  | some h => { f with halt := none, held := f.held.map fun x => { x with limit := x.limit.map (· + (now - h.since)) } }

/-! ## wpset and wpget (R411) -/

/-- A predicate that `wpset` accepts as number `n` (R400, R411). -/
def predOk (n : Nat) (p : Pred) : Bool :=
  p.fld 61 59 ≤ 5 && p.fld 58 56 ≤ 4 && p.fld 47 46 ≤ 1 && !(p.fld 50 50 == 1 && n == 15) && p.fld 45 38 ≤ 191

/-- Writes a predicate on a core. -/
def putPred (s : State) (core n : Nat) (p : Pred) : State := s.updCore core fun c => { c with preds := Tab.put c.preds n p }

/-- `wpset`: with SPREAD the fragment is held until SPREAD_WRITE_DONE has written every core (R411). -/
def execWpset (n : BitVec 4) (a : BitVec 8) (s : State) : Out :=
  dbgUnit s fun s wid eid w f => match f.held with
    | some h => if h.stage == 1 then .ok s else .error (.hold .other s)
    | none => do
      let g ← getOpnds s wid w f { s := [{ fd := a.toNat, cnt := 6, pair := true }] }
      let x := g.s.getD 0 0
      let p : Pred := { ctl := BitVec.ofNat 64 x, a := BitVec.ofNat 64 (x / 2 ^ 64), b := BitVec.ofNat 64 (x / 2 ^ 128) }
      trapIf (!predOk n.toNat p) illegalOp
      let (gen, s) := s.fresh
      if p.fld 62 62 == 0 then .ok (putPred s w.core n.toNat { p with gen := gen })
      else
        let o := { mkOp wid eid w f .spread none with scr := true, args := [n.toNat, p.ctl.toNat, p.a.toNat, p.b.toNat, gen] }
        let (id, s) := putOp s o
        .error (.hold .other (s.updFrag wid eid fun f => { f with held := some { since := s.now, op := id } }))

/-- SPREAD_WRITE_DONE: every core of the glade holds the predicate, and the `wpset` completes (R411). -/
def execSpreadWriteDone (wid eid : Nat) (s : State) : Out := runEvent s do
  let (k, o) ← need (s.ops.find? fun (_, o) => o.kind == .spread && o.wid == wid && o.eid == eid) "SPREAD_WRITE_DONE"
  let v := fun i => BitVec.ofNat 64 (o.args.getD i 0)
  let p : Pred := { ctl := v 1, a := v 2, b := v 3, gen := o.args.getD 4 0 }
  let s := (s.gladeSt o.glade).cores.foldl (fun s c => putPred s c (o.args.getD 0 0) p) s
  .ok (releaseHeld (completeOp s k) wid eid)

/-- `wpget`: the issuing core's predicate n (R411). -/
def execWpget (d : BitVec 8) (n : BitVec 4) (s : State) : Out :=
  dbgUnit s fun s wid _ w f => do
    let g ← getOpnds s wid w f { sd := some (d.toNat, 6, true) }
    let p := Tab.valD (s.coreSt w.core).preds n.toNat {}
    .ok (s.setWave wid (((w.setSPair g.sd p.ctl).setSPair (g.sd + 2) p.a).setSPair (g.sd + 4) p.b))

/-! ## dhalt and dresume (R412) -/

/-- Waves in scope: the target wave, or every wave of its command. -/
def inScope (whole : Bool) (t : Nat × Wave) (k : Nat) (v : Wave) : Bool := if whole then v.cmd == t.2.cmd && !v.control else k == t.1

/-- `dhalt`: held until every fragment in scope has stopped (R410, R412). -/
def execDhalt (a : BitVec 8) (s : State) : Out :=
  dbgUnit s fun s wid eid w f => do
    let x ← dbgArg s wid w f a
    match f.held with
    | some h =>
      if s.waves.any fun (k, v) => v.halting && (if h.a == 1 then v.cmd == h.b else k == h.b) then .error (.hold .other s)
      else .ok (setDstat s wid dOk)
    | none => match dbgWave s w with
      | none => .ok (setDstat s wid dNoWave)
      | some t =>
        if 1 < x then .ok (setDstat s wid dBadArg)
        else
          let s := haltWhere s w.core (fun _ => { origin := 0, since := s.now }) (inScope (x == 1) t)
          let s := if x == 1 then s.updCmd t.2.cmd fun c => { c with haltMark := true } else s
          let s := haltNotify s w.glade
          let h : Held := { since := s.now, a := x, b := if x == 1 then t.2.cmd else t.1 }
          if s.waves.any fun (k, v) => v.halting && inScope (x == 1) t k v then
            .error (.hold .other (s.updFrag wid eid fun f => { f with held := some h }))
          else .ok (setDstat s wid dOk)

/-- HALT_BROADCAST: a halt reaches a wave through the taproot (R359, R407). -/
def execHaltBroadcast (wid : Nat) (s : State) : Out := runEvent s do
  let w ← need (s.wave? wid) "HALT_BROADCAST"
  let h ← need w.haltReq "HALT_BROADCAST"
  let late := vdecOut s wid
  let s := s.setWave wid (haltWave late { h with since := s.now } w)
  .ok (if late then s else dueGroups s w.blk)

/-- `dresume`: every HALTED fragment in scope is ready again (R412). -/
def execDresume (a : BitVec 8) (s : State) : Out :=
  dbgUnit s fun s wid _ w f => do
    let x ← dbgArg s wid w f a
    match dbgWave s w with
    | none => .ok (setDstat s wid dNoWave)
    | some t =>
      if x == 0 && !t.2.anyHalted then .ok (setDstat s wid dNotHalted)
      else if 1 < x then .ok (setDstat s wid dBadArg)
      else
        let now := s.now
        let s := if t.2.anyHalted || x == 1 then s.noteStall w.glade t.2.ctx else s
        let on := fun (k : Nat) (v : Wave) => if inScope (x == 1) t k v then v.mapAllFrags (Frag.resume now) else v
        let s : State := { s with waves := Tab.mapV s.waves on }
        let s := if x == 1 then s.updCmd t.2.cmd fun c => { c with haltMark := false } else s
        .ok (setDstat s wid dOk)

/-! ## dstep, STEP (R413, R414) -/

/-- Why a lane's fragment is not HALTED and able to step, if it is not. -/
def stepBar (w : Wave) (lane : Nat) : Option Nat :=
  if w.ended.getLsbD lane then some dEnded
  else match w.frags.find? fun (_, f) => f.memb.getLsbD lane with
    | none => some dNotHalted
    | some (_, f) => if f.parked.isSome then some dParked else if f.halt.isNone then some dNotHalted else none

/-- The entry of the lane's own fragment, split off where it holds other lanes. -/
def isolate (s : State) (wid : Nat) (w : Wave) (lane : Nat) : Option (State × Nat) :=
  match w.frags.find? fun (_, f) => f.memb.getLsbD lane with
  | none => none
  | some (eid, f) =>
    if f.memb == laneBit lane then some (s, eid)
    else (splitOff (freeEntries s w) w eid f (laneBit lane)).map fun (w, k) => (s.setWave wid w, k)

/-- `dstep`: held until the lane's fragment has issued one unit (R413). -/
def execDstep (a : BitVec 8) (s : State) : Out :=
  dbgUnit s fun s wid eid w f => do
    let x ← dbgArg s wid w f a
    match f.held with
    | some h =>
      let going : Bool := match s.frag? h.a h.b with
        | some g => g.stepping != 0
        | none => false
      if going then .error (.hold .other s) else .ok (setDstat s wid dOk)
    | none => match dbgWave s w with
      | none => .ok (setDstat s wid dNoWave)
      | some (k, v) =>
        let lane := x % 32
        if x / 32 % 8 != 0 || 512 ≤ x then .ok (setDstat s wid dBadArg)
        else match stepBar v lane with
          | some c => .ok (setDstat s wid c)
          | none => match isolate s k v lane with
            | none => .ok (setDstat s wid dNoEntry)
            | some (s, e) =>
              let mode := if 256 ≤ x then 2 else 1
              let now := s.now
              let s := s.updFrag k e fun g => { g.resume now with stepping := mode }
              let s := s.noteStall w.glade v.ctx
              let h : Held := { since := s.now, a := k, b := e }
              .error (.hold .other (s.updFrag wid eid fun f => { f with held := some h }))

/-- The stepped unit of an entry has completed: the fragment has halted, and no operation of the unit is outstanding (R414). -/
def stepDone (s : State) (wid eid : Nat) : Bool := match s.frag? wid eid with
  | none => true
  | some f => (f.parked.isSome || f.halt.isSome) && match f.halt with
    | some h => !(s.ops.any fun (_, o) => o.wid == wid && o.eid == eid && o.pc == h.trig && !o.done)
    | none => true

/-- STEP_DELIVERY: a stepped unit has completed under DELIVER and the context has a HANDLER: every fragment is set aside, and
one handler fragment runs (R414). Neither a `vdec` that is being checked nor one that has not completed is stopped (R195), nor an
`scstat`, a pre-emption's matter, before it has its answer. -/
def execStepDelivery (wid : Nat) (s : State) : Out := runEvent s do
  let w ← need (s.wave? wid) "STEP_DELIVERY"
  let e ← need w.stepDue "STEP_DELIVERY"
  let pc := ctxHandler s w.glade w.ctx
  require (w.intr.isNone && pc != 0 && stepDone s wid e && !vdecOut s wid && !(w.frags.any fun (_, f) => f.reading) && (s.blkD w.blk).st == .running && ctxRuns s w.glade w.ctx) "STEP_DELIVERY"
  let it : Intr := { cause := 0x19, ents := w.ents, replay := w.replay, stepped := e, first := s.nextId }
  .ok (s.setWave wid { w with ents := [(64, .frag (handlerFrag w (BitVec.ofNat 64 pc)))], replay := [], intr := some it, stepDue := none })

/-- HDONE_STEP: the handler has written HDONE 3; the set-aside fragments return with their edits (R414). -/
def execHdoneStep (wid : Nat) (s : State) : Out := runEvent s do
  let w ← need (s.wave? wid) "HDONE_STEP"
  let it ← need w.intr "HDONE_STEP"
  require (it.cause == 0x19 && it.hdone == 3) "HDONE_STEP"
  .ok (s.setWave wid { w.interrupted with replay := it.replay })

/-! ## dlist (R415) -/

/-- Resident waves of TCTX with a HALTED fragment, by sequence number, block and wave. -/
def haltedWaves (s : State) (g : Nat) : List Wave :=
  let ws := (Tab.vals s.waves).filter fun v => !v.control && v.glade == g && v.ctx == dbgTarget s g && v.anyHalted
  let key := fun (v : Wave) => ((s.cmdD v.cmd).seq * 2 ^ 24 + (s.blkD v.blk).lin) * 256 + v.widx
  ws.mergeSort fun a b => key a ≤ key b

/-- The four words that describe a halted wave. -/
def haltedWords (s : State) (v : Wave) : List Word :=
  let fs := v.allFrags.filter fun f => f.halt.isSome
  let lanes := fs.foldl (fun m f => m ||| f.memb) 0
  let h : HaltSt := ((fs.find? fun f => f.memb.getLsbD (lowLane lanes)).bind fun f => f.halt).getD {}
  [BitVec.ofNat 32 ((s.blkD v.blk).lin * 256 + v.widx), BitVec.ofNat 32 (s.cmdD v.cmd).seq, lanes,
   BitVec.ofNat 32 (h.origin * 2 ^ 28 + h.pred * 2 ^ 24)]

/-- `dlist`: entry i of the halted waves (R415). -/
def execDlist (d a : BitVec 8) (s : State) : Out :=
  dbgUnit s fun s wid _ w f => do
    let g ← getOpnds s wid w f { s := [{ fd := a.toNat }], sd := some (d.toNat, 4, true) }
    let l := haltedWaves s w.glade
    let ws := match l[g.s.getD 0 0]? with
      | some v => haltedWords s v
      | none => [0xFFFFFFFF#32, 0, 0, 0]
    .ok (setDstat (s.setWave wid (w.setSs g.sd ws)) wid dOk)

/-! ## drdv, dwrv, drds, dwrs (R416) -/

/-- A read form: the value and DSTAT go to the issuing wave. -/
def dbgRead (d a : BitVec 8) (s : State) (k : State → Nat → Wave → Word × Nat) : Out :=
  dbgUnit s fun s wid _ w f => do
    let g ← getOpnds s wid w f { s := [{ fd := a.toNat }], sd := some (d.toNat, 1, false) }
    let (v, c) := match dbgWave s w with
      | none => (0, dNoWave)
      | some (_, t) => if t.anyHalted then k s (g.s.getD 0 0) t else (0, dNotHalted)
    .ok (setDstat (s.setWave wid (w.setS g.sd v)) wid c)

/-- A write form: the change to the target wave, or why there is none. -/
def dbgWrite (d a : BitVec 8) (s : State) (k : Nat → Word → Wave → Wave × Nat) : Out :=
  dbgUnit s fun s wid _ w f => do
    let g ← getOpnds s wid w f { s := [{ fd := d.toNat }, { fd := a.toNat }] }
    match dbgWave s w with
    | none => .ok (setDstat s wid dNoWave)
    | some (t, v) =>
      let (v, c) := k (g.s.getD 1 0) (BitVec.ofNat 32 (g.s.getD 0 0)) v
      .ok (setDstat (s.setWave t v) wid c)

/-- A vector selector names a register of the wave. -/
def vselOk (x : Nat) (w : Wave) : Bool := x < 2 ^ 13 && x % 256 < w.nvreg

/-- `drdv`: a vector register in one lane (R416). -/
def execDrdv (d a : BitVec 8) (s : State) : Out :=
  dbgRead d a s fun _ x w =>
    if !vselOk x w then (0, dBadArg)
    else (w.vreg (x % 256) (x / 256 % 32), if w.vEmpty.contains (x % 256) then dEmpty else dOk)

/-- `dwrv` (R416). -/
def execDwrv (d a : BitVec 8) (s : State) : Out :=
  dbgWrite d a s fun x v w =>
    if !w.stopped then (w, dNotHalted)
    else if !vselOk x w then (w, dBadArg)
    else if w.vEmpty.contains (x % 256) then (w, dEmpty)
    else (w.setV (x % 256) (x / 256 % 32) v, dOk)

/-- A scalar or field selector within its ranges. -/
def sselOk (x : Nat) : Bool :=
  let space := x / 2 ^ 14 % 4
  x < 2 ^ 16 && x / 2 ^ 13 % 2 == 0 &&
  ((space == 0 && x % 256 ≤ 191 && x / 256 % 32 == 0) || (space == 1 && x % 256 ≤ 10))

/-- The value of a field of a fragment (R416). -/
def fragField (f : Frag) (n : Nat) : Word :=
  let lo := fun (v : DWord) => v.extractLsb' 0 32
  let hi := fun (v : DWord) => v.extractLsb' 32 32
  let trig : DWord := match f.halt with
    | some h => h.trig
    | none => 0
  if n == 0 then lo f.pc
  else if n == 1 then hi f.pc
  else if n == 2 then f.memb
  else if n == 3 then f.emask
  else if n == 4 then f.fmt
  else if n == 5 then f.x0.setWidth 32 + (f.x1.setWidth 32 <<< 8)
  else if n == 6 then (match f.rejoin with
    | some r => lo r
    | none => 0xFFFFFFFF#32)
  else if n == 7 then (match f.rejoin with
    | some r => hi r
    | none => 0xFFFFFFFF#32)
  else if n == 8 then lo trig
  else if n == 9 then hi trig
  else (if f.halt.isSome then 1 else 0) + (if f.parked.isSome then 2 else 0) + (if f.trap.inHandler then 4 else 0)

/-- The entry and fragment that hold a lane, those set aside included. -/
def laneFrag (w : Wave) (lane : Nat) : Option (Nat × Frag) :=
  let aside := match w.intr with
    | some it => it.ents.filterMap fun (k, e) => match e with
      | .frag f => some (k, f)
      | .join _ => none
    | none => []
  (w.frags ++ aside).find? fun (_, f) => f.memb.getLsbD lane

/-- `drds`: a scalar register or a field of a fragment (R416). -/
def execDrds (d a : BitVec 8) (s : State) : Out :=
  dbgRead d a s fun _ x w =>
    if !sselOk x then (0, dBadArg)
    else if x / 2 ^ 14 == 0 then (w.sreg (x % 256), if w.sEmpty.contains (x % 256) then dEmpty else dOk)
    else
      let lane := x / 256 % 32
      if w.ended.getLsbD lane then (0, dEnded)
      else match laneFrag w lane with
        | some (_, f) => (fragField f (x % 256), dOk)
        | none => (0, dNotHalted)

/-- A write to a field of a HALTED fragment (R416). -/
def setFragField (f : Frag) (n : Nat) (v : Word) : Except Nat Frag :=
  let moved := fun (pc : DWord) => if pc == f.pc then f else { f with pc := pc, held := none, skipPred := false }
  if n == 0 then (if v.getLsbD 0 then .error dBadVal else .ok (moved (withLo f.pc v)))
  else if n == 1 then .ok (moved (withHi f.pc v))
  else if n == 3 then .ok { f with emask := v &&& f.memb }
  else if n == 4 then (if fmtOk v then .ok { f with fmt := v } else .error dBadVal)
  else if n == 5 then .ok { f with x0 := v.extractLsb' 0 8, x1 := v.extractLsb' 8 8 }
  else .error dBadArg

/-- The wave with a field of a fragment written; a fragment given a new PC has reached the address it names. -/
def writeField (w : Wave) (lane n : Nat) (v : Word) : Wave × Nat := match laneFrag w lane with
  | none => (w, dNotHalted)
  | some (k, f) =>
    if f.halt.isNone then (w, dNotHalted)
    else match setFragField f n v with
      | .error c => (w, c)
      | .ok f' => match w.frag? k with
        | some _ => (if n ≤ 1 then settle settleFuel (w.setFrag k f') k else w.setFrag k f', dOk)
        | none => ({ w with intr := w.intr.map fun it => { it with ents := Tab.put it.ents k (.frag f') } }, dOk)

/-- `dwrs` (R416). -/
def execDwrs (d a : BitVec 8) (s : State) : Out :=
  dbgWrite d a s fun x v w =>
    if x / 2 ^ 14 % 4 == 1 then
      let lane := x / 256 % 32
      if !sselOk x then (w, dBadArg)
      else if w.ended.getLsbD lane then (w, dEnded)
      else writeField w lane (x % 256) v
    else if !w.stopped then (w, dNotHalted)
    else if !sselOk x then (w, dBadArg)
    else if w.sEmpty.contains (x % 256) then (w, dEmpty)
    else (w.setS (x % 256) v, dOk)

/-! ## Samples (R418, R420) -/

/-- The fragment whose stall reason is its wave's: the lowest member lane that is not PARKED (R418). -/
def sampled (w : Wave) : Option Frag :=
  ((w.frags.filter fun (_, f) => f.parked.isNone).mergeSort fun a b => lowLane a.2.memb ≤ lowLane b.2.memb).head?.map (·.2)

/-- The fragment has issued in this clk of its core. -/
def issuedNow (s : State) (w : Wave) (f : Frag) : Bool := f.stall == .issued && f.served == coreClk s w.core

/-- The stall reason of a fragment: NONE where it issued in this clk, else the first five of R418's order, then what kept it from
issuing when it was last served; one held by the bandwidth share is sampled so (R382, R418). One that nothing has kept from issuing since
it last issued is ready, and another issued (notes/assumptions 140). -/
def stallOf (s : State) (w : Wave) (f : Frag) : Stall :=
  if issuedNow s w f then .issued
  else match blocked s w f with
    | some .haltedDebug => .haltedDebug
    | some .preemptQuiesce => .preemptQuiesce
    | some .faultReplay => .faultReplay
    | r =>
      if f.stall == .throttlePower then .throttlePower
      else if f.stall != .issued && heldByShare s w then .throttleBw
      else r.getD (if f.stall == .issued then .notSelected else f.stall)

/-- The next wave of a quadrant after the last one sampled. -/
def nextSample (s : State) (core quad : Nat) : Option Wave :=
  let ws := ((Tab.vals s.waves).filter fun w => !w.control && w.core == core && w.quad == quad).mergeSort fun a b => a.born ≤ b.born
  let last := (s.coreSt core).cursor.getD quad 0
  (ws.find? fun w => last < w.born).or ws.head?

/-- Takes a sample of a quadrant: a record of a type, at a time where one is given (R420, R425). -/
def takeSample (s : State) (g core quad typ : Nat) (time : Option DWord) : State := match nextSample s core quad with
  | none => s
  | some w =>
    let (reason, pc, s) := match sampled w with
      | some f => (stallOf s w f, f.pc, s)
      | none =>
        let (a, s) := s.freeWord
        let (b, s) := s.freeWord
        (Stall.other, b ++ a, s)
    let ws := ringWords s w typ 0 reason.code (w.frags.any fun (_, f) => issuedNow s w f) pc 0
    let ws := match time with
      | some t => ws.take 6 ++ [t.extractLsb' 0 32, t.extractLsb' 32 32] ++ ws.drop 8
      | none => ws
    let s := s.updCore core fun c => { c with cursor := c.cursor.set quad w.born }
    ringWrite s g ws

/-- SAMPLE: a quadrant's periodic sample falls due (R420). -/
def execSample (core quad : Nat) (s : State) : Out := runEvent s do
  let g ← need (gladeOf s core) "SAMPLE"
  require (quad < 4 && regFld s .smp (32 * g) 11 11 == 1 && (s.coreSt core).sampleAt.getD quad 0 ≤ coreClk s core) "SAMPLE"
  let p := 2 ^ (regFld s .smp (32 * g) 3 0 + 6)
  let at' := (coreClk s core / p + 1) * p
  let s := s.updCore core fun c => { c with sampleAt := c.sampleAt.set quad at' }
  .ok (takeSample s g core quad 0 none)

end Sys2Proof.Machine
end

