-- ==== Sys2Proof/Machine/Monitor.lean ====
section
/-! DEFINITION. Event counters, histogram monitors, droop, skew and replay sessions (R421 to R427), and what the device
notes of each step for them: `observe`. -/

namespace Sys2Proof.Machine

open Sys2Proof

/-! ## Event counters (R421) -/

/-- Adds to the counters of a core that count an event of a context. -/
def countEv (s : State) (core ctx code n : Nat) : State :=
  if n == 0 then s
  else (List.range 4).foldl (fun s k =>
    let hi := reg s (.core core) (0x44 + 8 * k)
    if fld hi 31 24 == code && (code == 1 || fld hi 23 23 == 1 || fld hi 21 16 == ctx) then
      let c := (reg64 s (.core core) (0x40 + 8 * k) % 2 ^ 48 + n) % 2 ^ 48
      setReg64 s (.core core) (0x40 + 8 * k) (c + hi.toNat / 2 ^ 16 * 2 ^ 48)
    else s) s

/-- Cores with a register of their window set: the others count nothing. -/
def countingCores (s : State) : List Nat :=
  ((s.regs.filterMap fun (k, _) => if 128 ≤ k / 2 ^ 18 && k / 2 ^ 18 < 288 then some (k / 2 ^ 18 - 128) else none)).eraseDups

/-- Core clocks pass from `s` to `s'`: each core counts its own (event 1, R3, R18). -/
def countClk (s s' : State) : State :=
  (countingCores s').foldl (fun t c => countEv t c 0 1 (coreClk s' c - coreClk s c)) s'

/-! ## Histogram monitors (R426) -/

/-- The bin of a value. -/
def binOf (v : Nat) : Nat := if v == 0 then 0 else min 15 (Nat.log2 v + 1)

/-- Records a value on one monitor. -/
def hmnAdd (s : State) (m v : Nat) : State :=
  let o := 256 * m
  let lo := (reg s .hmn (o + 8)).toNat
  let hi := (reg s .hmn (o + 12)).toNat
  let x := min v (2 ^ 32 - 1)
  let s := setReg s .hmn (o + 8) (BitVec.ofNat 32 (min lo x))
  let s := setReg s .hmn (o + 12) (BitVec.ofNat 32 (max hi x))
  let b := o + 0x40 + 4 * binOf v
  setReg s .hmn b (satAdd (reg s .hmn b) 1)

/-- The monitor is on, for a source and the glade or die it selects. -/
def hmnOn (s : State) (m src sel : Nat) : Bool :=
  let c := reg s .hmn (256 * m)
  fld c 31 31 == 1 && fld c 29 27 == src && (if src ≤ 2 then fld c 17 12 == sel else fld c 11 8 == sel)

/-- Records a value of a source on every monitor that takes it; a value in TRACEBIN or above writes a record of TYPE 3 of
the wave, where one is given. -/
def hmnRecord (s : State) (src sel v : Nat) (w : Option Wave) : State :=
  (List.range 16).foldl (fun s m =>
    if hmnOn s m src sel then
      let s := hmnAdd s m v
      let t := regFld s .hmn (256 * m) 26 23
      match w with
      | some w =>
        if src ≤ 2 && t != 0 && t ≤ binOf v then
          match sampled w with
          | some f => ringWrite s w.glade (ringWords s w 3 0 (stallOf s w f).code (issuedNow s w f) f.pc v)
          | none => s
        else s
      | none => s
    else s) s

/-- Some monitor is on. -/
def monitoring (s : State) : Bool := (List.range 16).any fun m => regFld s .hmn (256 * m) 31 31 == 1

/-! ## What a step adds to the monitors and counters -/

/-- Operations of a step's new state that the old one did not have. -/
def newOps (s s' : State) : List (Nat × Op) := s'.ops.filter fun (k, _) => (s.op? k).isNone

/-- The operation an event is about. -/
def eventOp (i : Instr) : Option Nat := match i with
  | .loadPerform o => some o
  | .storePerform o => some o
  | .atomicExecute o => some o
  | .copyLand o => some o
  | .canopyLookup o => some o
  | .gbarriveApply o => some o
  | .tqPushLanded o => some o
  | .cancelAnswer o applied => if applied then some o else none
  | _ => none

/-- An operation has been carried out by the step. -/
def finished (s s' : State) (k : Nat) : Option Op := match s.op? k with
  | some o => if o.done then none else match s'.op? k with
    | some o' => if o'.done then some o else none
    | none => some o
  | none => none

/-- Hops of each mesh request of a new operation: one per line of a memory access; a request of another unit has no address here, and
its hops are free too (R426). -/
def opHops (s : State) (k : Nat) (o : Op) : List Nat :=
  if o.kind == .load || o.kind == .store || o.kind == .atomic || o.kind == .copy then (o.meshLines s).map (Config.hops o.core)
  else (List.range (o.requests s)).map fun i => Config.hops o.core (2 ^ 62 + 64 * k + i)

/-- Latencies of loads and lookups, and hops of new mesh requests (R426). -/
def noteLatency (i : Instr) (s s' : State) : State :=
  let s₁ := match (eventOp i).bind (finished s s') with
    | some o =>
      if o.kind == .load then hmnRecord s' 0 o.glade (s'.now - o.issued) (s'.wave? o.wid)
      else if o.kind == .lookup then hmnRecord s' 1 o.glade (s'.now - o.issued) (s'.wave? o.wid)
      else s'
    | none => s'
  (newOps s s').foldl (fun t (k, o) =>
    (opHops s k o).foldl (fun t n => hmnRecord t 2 o.glade n (t.wave? o.wid)) t) s₁

/-- A unit of a vector format, or a 16-bit one. -/
def isVectorUnit (i : Instr) : Bool := match encode i with
  | [b, _] => !isWide b
  | [b, _, _, _] => 0x35 ≤ b.toNat / 2
  | [_, _, _, _, b, _, _, _] => 0x35 ≤ b.toNat / 2
  | _ => false

/-- Counts of the unit that the current fragment issued: units, lanes, `sclook` lanes, splits and fallbacks. -/
def countUnit (i : Instr) (s s' : State) : State := match s.cur with
  | none => s'
  | some (wid, eid) => match s.wave? wid, s'.wave? wid with
    | some w, some w' =>
      if w.control || w'.retired == w.retired then s'
      else
        let lanes := popc 32 (((w.frag? eid).map Frag.active).getD 0).toNat
        let c := fun (s : State) (code n : Nat) => countEv s w.core w.ctx code n
        let s₁ := c (c s' 2 1) 3 (if isVectorUnit i then lanes else 0)
        let s₂ := match i with
          | .sclook .. => c s₁ 0x0B lanes
          | _ => s₁
        match i with
        | .vbr .. =>
          let depth := fun (w : Wave) => (w.frags.map fun (_, f) => f.stack.length).foldl (· + ·) 0
          if w.frags.length < w'.frags.length then c s₂ 0x0D 1 else if depth w < depth w' then c s₂ 0x0E 1 else s₂
        | _ => s₂
    | _, _ => s'

/-- Dirty lines of a core that a step has written back. -/
def writtenBack (s s' : State) (core : Nat) : List L1Line :=
  (s.coreSt core).l1.filter fun e => e.dirty != 0 &&
    !((s'.coreSt core).l1.any fun e' => e'.isAt e.glade e.ctx e.va && e'.dirty != 0)

/-- Counts of an event about one operation: load misses, lines that peers returned, those of the rest that L2 missed (free), copied
bytes, MISS lanes. -/
def countOp (i : Instr) (s s' : State) : State := match (eventOp i).bind (finished s s') with
  | none => s'
  | some o =>
    if o.kind == .load then
      let ls := s'.fills
      let n := ls.length
      let m := (ls.filter (·.fwd)).length
      let s₁ := countEv (countEv s' o.core o.ctx 6 n) o.core o.ctx 7 m
      if n == m then s₁
      else
        let (b, s₂) := s₁.freeWord
        countEv s₂ o.core o.ctx 8 (b.toNat % (n - m + 1))
    else if o.kind == .copy then
      let s₁ := countEv s' o.core o.ctx 7 (s'.fills.filter (·.fwd)).length
      countEv s₁ o.core o.ctx 0x0A (o.accs.length * o.size / 16)
    else if o.kind == .lookup then
      let w := s'.waveD o.wid
      countEv s' o.core o.ctx 0x0C ((lanesOf o.active).filter fun l => w.vreg (o.dst.getD 2 0) l &&& 7 == 3).length
    else s'

/-- Matrix events: quarter operations of a new `mma`, and contexts of a pass that starts. -/
def countMatrix (i : Instr) (s s' : State) : State := match i with
  | .matrixPassStart core quad => match ((Tab.valD (s'.coreSt core).mx quad {}).running) with
    | some g =>
      ((g.ops.filterMap fun (k, _) => (s.op? k).map fun o => o.ctx).eraseDups).foldl (fun s c => countEv s core c 5 1) s'
    | none => s'
  | _ => (newOps s s').foldl (fun t (k, o) =>
    if o.kind == .mma then
      let gs := ((s'.coreSt o.core).mx.flatMap fun (_, m) => m.opened ++ m.due).flatMap fun g => g.ops
      countEv t o.core o.ctx 4 (gs.filter fun e => e.1 == k).length
    else if o.kind == .tbar || o.kind == .tred then countEv t o.core o.ctx 0x11 1
    else t) s'

/-- Watch hits that a step has added on a core. -/
def newHits (s s' : State) (core : Nat) : Nat :=
  (List.range 16).foldl (fun n k =>
    let p := Tab.valD (s.coreSt core).preds k {}
    let q := Tab.valD (s'.coreSt core).preds k {}
    if p.gen == q.gen then n + (q.hits.toNat - p.hits.toNat) else n) 0

/-- A write of a hit count is not a hit. -/
def writesHits (i : Instr) : Bool := match i with
  | .syswr .. => true
  | _ => false

/-- Counts on every core that counts: write-backs, probes sent, by the context that waits, watch hits. -/
def countCores (i : Instr) (s s' : State) : State :=
  (countingCores s').foldl (fun t core =>
    let t := (writtenBack s s' core).foldl (fun t e => countEv t core e.ctx 9 1) t
    let sent := s'.probes.filter fun (k, p) => p.reader == core && (Tab.val? s.probes k).isNone
    let t := sent.foldl (fun t (_, p) => countEv t core p.ctx 0x0F 1) t
    match gladeOf s core with
    | some g => if writesHits i then t else countEv t core (dbgTarget s g) 0x10 (newHits s s' core)
    | none => t) s'

/-! ## Replay sessions (R423, R424) -/

/-- RPL_STAT, RPL_CTL fields of a glade. -/
def rplCtx (s : State) (g : Nat) : Nat := regFld s .rpl (256 * g) 29 24
def rplBase (s : State) (g off : Nat) : Nat := reg64 s .rpl (256 * g + off) % 2 ^ 52
def rplOut (s : State) (g : Nat) : Nat := rplBase s g 0x18 / 2 ^ 12 * 2 ^ 12
def rplSnap (s : State) (g : Nat) : Nat := rplBase s g 0x10 / 2 ^ 16 * 2 ^ 16
def rplPages (s : State) (g : Nat) : Nat := regFld s .rpl (256 * g + 0x10) 15 0

/-- Home addresses whose byte a step has changed. -/
def changedBytes (m m' : List Host.Cell) : List Nat :=
  ((m'.filter fun c => getByte m c.1 != c.2).map (·.1)) ++ ((m.filter fun c => getByte m' c.1 == emptyByte).map (·.1))

/-- Home addresses that a step has written, changed or not: lines written back, and what an operation has stored at its home. -/
def storedBytes (i : Instr) (s s' : State) : List Nat :=
  let lines := (Tab.keys s.cores).flatMap fun c => (writtenBack s s' c).flatMap fun e =>
    ((List.range 128).filter fun k => e.dirty.getLsbD k).map (e.home + ·)
  let done := match (eventOp i).bind (finished s s') with
    | none => []
    | some o =>
      if o.scr then []
      else if o.kind == .store then
        (o.accs.filter fun a => o.pinnedAway || bypasses o.scope o.pol a.home).flatMap fun a => range a.home o.size
      else if o.kind == .atomic then
        (o.accs.filter fun a => o.scope != 0 || o.pinnedAway || isFar a.home).flatMap fun a => range a.home o.size
      else if o.kind == .copy && o.stage != 0 then o.accs.flatMap fun a => range a.home2 o.size
      else []
  lines ++ done

/-- Bytes from `a` of a memory, moved to `b`. -/
def copyCells (src : List Host.Cell) (dst : List Host.Cell) (a b n : Nat) : List Host.Cell :=
  (src.filter fun c => a ≤ c.1 && c.1 < a + n).foldl (fun m c => setByte m (c.1 - a + b) c.2) (clearMem dst b n)

/-- The 64 KiB of a context's address space, and their home, that a changed byte of a LOCAL page lies in. -/
def capturePage (pages : List Page) (a : Nat) : Option (Nat × Nat) :=
  (pages.find? fun p => p.kind == 0 && p.home ≤ a && a < p.home + p.len).map fun p =>
    let off := (a - p.home) / 65536 * 65536
    (p.va + off, p.home + off)

/-- Pass 1: the prior contents of a page go to the next snapshot page before its first write; a full or unmapped snapshot
ends the session early with SNAPFULL. -/
def capture (m : List Host.Cell) (s : State) (g : Nat) (r : ReplaySt) (p : Nat × Nat) : State × ReplaySt :=
  if r.pages.contains p.1 then (s, r)
  else if rplPages s g ≤ r.pages.length then (s, { r with early := if r.early == 0 then 1 else r.early })
  else match writableHome s g (rplCtx s g) (rplSnap s g + 65536 * r.pages.length) with
    | none => (s, { r with early := if r.early == 0 then 1 else r.early })
    | some h => ({ s with mem := copyCells m s.mem p.2 h 65536 }, { r with pages := r.pages ++ [p.1] })

/-- The step is the replayed grid's and cannot be replayed: a write to a HOST or PEER page, or a Canopy operation. -/
def unreplayable (i : Instr) (s s' : State) (cmd : Nat) (changed : List Nat) : Bool :=
  let far : Bool := match (eventOp i).bind s.op? with
    | some o => (s.blkD o.blk).cmd == cmd && changed.any fun a => 2 ^ 56 ≤ a
    | none => false
  let issued : Bool := match s.cur.bind fun c => s.wave? c.1 with
    | some w => w.cmd == cmd && (newOps s s').any fun (_, o) => o.kind == .fill || o.kind == .sweep || o.kind == .abort || o.kind == .frame
    | none => false
  far || issued

/-- Waves of a command that have ended in a step. -/
def endedWaves (s s' : State) (cmd : Nat) : List (Nat × Wave) :=
  s'.waves.filter fun (k, w) => !w.control && w.cmd == cmd && w.over && !(s.waveD k).over

/-- A wave's signature: pass 1 writes it, later passes compare it (R424). -/
def signature (s : State) (g : Nat) (r : ReplaySt) (w : Wave) : State :=
  let b := s.blkD w.blk
  let n := b.lin * (s.cmdD w.cmd).b 0x00 15 8 + w.widx
  let o := 256 * g
  if regFld s .rpl o 19 0 ≤ n then setRegFld s .rpl (o + 12) 29 29 1
  else
    let va := rplOut s g + 0x200 + 8 * n
    let c := rplCtx s g
    let x := (w.retired % 2 ^ 32) + 2 ^ 32 * w.hash.toNat
    if r.pass == 1 then writeBytes s g c va (toBytes 8 x)
    else
      let same : Bool := match readableHome s g c va with
        | some h => getMem s.mem h 8 == x
        | none => false
      if same || regFld s .rpl (o + 12) 30 30 == 1 then s
      else
        let s := setRegFld s .rpl (o + 12) 30 30 1
        let s := setRegFld s .rpl (o + 12) 20 16 r.pass
        setReg s .rpl (o + 8) (BitVec.ofNat 32 (b.lin * 256 + w.widx))

/-- What a step adds to one replay session. -/
def noteReplay (i : Instr) (s s' : State) (g : Nat) : State := match Tab.val? s'.replaySes g, Tab.val? s.replaySes g with
  | some r, some _ =>
    let changed := changedBytes s.mem s'.mem ++ storedBytes i s s'
    let pages := (s'.ctxSt g (rplCtx s' g)).pages
    let (s₁, r) :=
      if r.pass == 1 then (changed.filterMap (capturePage pages)).eraseDups.foldl (fun (t, r) p => capture s.mem t g r p) (s', r)
      else (s', r)
    let r := if r.early == 0 && unreplayable i s s' r.cmd changed then { r with early := 2 } else r
    let s₁ : State := { s₁ with replaySes := Tab.put s₁.replaySes g r }
    (endedWaves s s' r.cmd).foldl (fun s (_, w) => signature s g r w) s₁
  | _, _ => s'

/-- The session's own event. -/
def isReplayEvent (i : Instr) : Bool := match i with
  | .replayPassEnd _ => true
  | _ => false

/-- What the device notes of a step from `s` to `s'` that carried out `i`: when a pass's mesh stage closes and when its stores have landed, waves that the bandwidth
share holds, counts, latencies, replay. A device with no such thing in use notes nothing. -/
def observe (i : Instr) (s s' : State) : State :=
  let s' := noteShare (noteLanded (noteClosed s'))
  let s₁ := if (countingCores s').isEmpty || isReplayEvent i then s' else countCores i s (countMatrix i s (countOp i s (countUnit i s s')))
  let s₂ := if monitoring s' then noteLatency i s s₁ else s₁
  let s₂ : State := { s₂ with fills := [] }
  if s'.replaySes.isEmpty || isReplayEvent i then s₂ else s'.replaySes.foldl (fun t (g, _) => noteReplay i s t g) s₂

/-- Memory with every captured page of a session as its snapshot holds it. -/
def restorePages (s : State) (g : Nat) (r : ReplaySt) : List Host.Cell :=
  let c := rplCtx s g
  (r.pages.zipIdx).foldl (fun m (va, i) =>
    match readableHome s g c (rplSnap s g + 65536 * i), readableHome s g c va with
    | some src, some dst => copyCells m m src dst 65536
    | _, _ => m) s.mem

/-- What ends a session after a pass: the END code, or none where a further pass follows (R422, R423). -/
def replayEnd (s : State) (g : Nat) (r : ReplaySt) (k : Cmd) : Option Nat :=
  if r.early != 0 then some r.early
  else if k.status != 0 || k.firstTerm.isSome then some 3
  else if regFld s .rpl (256 * g) 23 20 < r.pass then some 0
  else none

/-- The counter sums of a pass are written to the output area (R423). -/
def writeSums (s : State) (g : Nat) (r : ReplaySt) : State :=
  (List.range 4).foldl (fun s n =>
    let sum := ((s.gladeSt g).cores.map fun c => reg64 s (.core c) (0x40 + 8 * n) % 2 ^ 48).foldl (· + ·) 0
    writeBytes s g (rplCtx s g) (rplOut s g + 32 * (r.pass - 1) + 8 * n) (toBytes 8 sum)) s

/-- The grid of a session starts again as at its launch. -/
def rerun (s : State) (g : Nat) (r : ReplaySt) (k : Cmd) : State :=
  let s : State := { s with mem := restorePages s g r }
  let s : State := { s with
    cores := Tab.mapV s.cores fun _ c => { c with l1 := c.l1.filter fun e => e.glade != g }
    blocks := s.blocks.filter fun (_, b) => b.cmd != r.cmd }
  let s := s.updCmd r.cmd fun k => { k with phases := [], wit := 0, doneBlocks := 0, firstTerm := none, status := 0, detail := 0, st := .active }
  let s := addBlocks s r.cmd 0 k.blocks
  setReplayEvents { s with replaySes := Tab.put s.replaySes g { r with pass := r.pass + 1 } } g (r.pass + 1)

/-- Every store of a pass lands, its write-backs counted in its own sums (R421, R423). -/
def landPass (s : State) (g : Nat) : State :=
  (gladeCores s g).foldl (fun s c =>
    let t := landWhere s c fun e => e.glade == g
    (writtenBack s t c).foldl (fun t e => countEv t c e.ctx 9 1) t) s

/-- REPLAY_PASS_END: the pass's grid has ended; its stores land, the sums are written, and the session ends or the captured
pages return for the next pass (R423). -/
def execReplayPassEnd (g : Nat) (s : State) : Out := runEvent s do
  let r ← need (Tab.val? s.replaySes g) "REPLAY_PASS_END"
  let k ← need (s.cmd? r.cmd) "REPLAY_PASS_END"
  require (k.st == .ending && (cmdBlocks s r.cmd).all fun (_, b) => b.st == .done) "REPLAY_PASS_END"
  let s := landPass s g
  let s := writeSums s g r
  let s := setRegFld s .rpl (256 * g + 12) 25 21 r.pass
  .ok (match replayEnd s g r k with
    | none => rerun s g r k
    | some code =>
      let s := setRegFld s .rpl (256 * g + 12) 28 26 code
      let s := setRegFld s .rpl (256 * g + 12) 31 31 0
      { s with replaySes := Tab.del s.replaySes g })

/-! ## Droop (R425), temperature (R426, R437) and skew (R427) -/

/-- The cores of a domain. -/
def domainCores (d : Nat) : List Nat := if d < 8 then range (20 * d) 20 else []

/-- The event's depth takes the deeper of two sags, and DEPTH follows (R425). -/
def deepen (s : State) (d mv : Nat) : State :=
  let m := max (Tab.valD s.sags d 0) mv
  setRegFld { s with sags := Tab.putD s.sags d m 0 } .drp (16 * d) 23 16 (min 255 m)

/-- A new droop event: its registers, and with EN a record of every quadrant of the domain. -/
def startDroop (s : State) (d mv : Nat) : State :=
  let t := timebase s d
  let s := setRegFld s .drp (16 * d) 23 16 (min 255 mv)
  let s := setRegFld s .drp (16 * d) 15 8 (min 255 (regFld s .drp (16 * d) 15 8 + 1))
  let s := setReg64 s .drp (16 * d + 8) t.toNat
  let s : State := { s with droop := Tab.put s.droop d 1, sags := Tab.putD s.sags d mv 0 }
  if regFld s .drp (16 * d) 31 31 == 0 then s
  else (domainCores d).foldl (fun s core => match gladeOf s core with
    | none => s
    | some g => (List.range 4).foldl (fun s q => takeSample s g core q 2 (some t)) s) s

/-- DROOP_EVENT_START: a sag of `mv` below the set point; within 10 µs of an event's end it belongs to that event (R425). -/
def execDroopEventStart (dom mv : Nat) (s : State) : Out := runEvent s do
  let st := Tab.valD s.droop dom 0
  require (dom < 13 && regFld s .drp (16 * dom) 7 0 ≤ mv && st != 1 && st != 2) "DROOP_EVENT_START"
  if st != 0 && s.now < st - 3 + 10000 then .ok (deepen { s with droop := Tab.put s.droop dom 2 } dom mv)
  else .ok (startDroop s dom mv)

/-- DROOP_EVENT_END: the supply has recovered; the event's depth is recorded once (R425, R426). -/
def execDroopEventEnd (dom mv : Nat) (s : State) : Out := runEvent s do
  let st := Tab.valD s.droop dom 0
  require (dom < 13 && (st == 1 || st == 2)) "DROOP_EVENT_END"
  let s := deepen s dom mv
  let s := if st == 1 then hmnRecord s 3 dom (Tab.valD s.sags dom 0) none else s
  .ok { s with droop := Tab.put s.droop dom (s.now + 3) }

/-- TEMPERATURE_SAMPLE: a die's temperature is measured, once in each ms (R426, R437). -/
def execTemperatureSample (dom celsius : Nat) (s : State) : Out := runEvent s do
  require (dom < 13 && celsius < 256 && msFree s dom) "TEMPERATURE_SAMPLE"
  let s : State := { noteMs s dom with temps := Tab.putD s.temps dom celsius 0 }
  let s := setRegFld s .mgt 0x20 15 8 ((Tab.vals s.temps).foldl max 0)
  .ok (hmnRecord s 4 dom celsius none)

/-- A path is up: the dies' always, the host's and the peers' by their links' state (R395, R396, R427). -/
def pathUp (s : State) (n : Nat) : Bool :=
  if n < 12 then true
  else if n == 12 then s.hostUp
  else n < 25 && regFld s .pyl (0x100 + 8 * (n - 13)) 0 0 == 1

/-- SKEW_MEASURE: a round-trip exchange over a path that is up sets its register, once in each ms (R427). -/
def execSkewMeasure (path : Nat) (offset : BitVec 64) (err : Nat) (s : State) : Out := runEvent s do
  require (path < 25 && pathUp s path && msFree s (32 + path)) "SKEW_MEASURE"
  let s := setReg64 (noteMs s (32 + path)) .tmb (0x100 + 16 * path) offset.toNat
  .ok (setReg64 s .tmb (0x108 + 16 * path) (2 ^ 63 + err % 65536))

end Sys2Proof.Machine
end

