-- ==== Sys2Proof/Machine/Regs.lean ====
section
/-! DEFINITION. Memory-mapped registers as software sees them: fields and access codes of every register word, the checks of
its chapter, and writes (R5 to R8, R37, R207, R210, R296 to R298, R354, R361, R367, R380, R381, R383, R391, R394 to R397,
R419, R421, R422, R425 to R427, R429, R430, R435, R437, R443). -/

namespace Sys2Proof.Machine

open Sys2Proof

/-- Fields of a register word by access code (R6), as bit ranges; a bit in none is reserved. -/
structure Fields where
  rw : List (Nat × Nat) := []
  ro : List (Nat × Nat) := []
  w1c : List (Nat × Nat) := []
  wo : List (Nat × Nat) := []

/-- The bits of ranges. -/
def bitsIn (l : List (Nat × Nat)) : Word :=
  l.foldl (fun m (hi, lo) => m ||| BitVec.ofNat 32 ((2 ^ (hi + 1 - lo) - 1) * 2 ^ lo)) 0

/-- Bits of a word that are not reserved. -/
def Fields.known (f : Fields) : Word := bitsIn (f.rw ++ f.ro ++ f.w1c ++ f.wo)

def allRw : Fields := { rw := [(31, 0)] }
def allRo : Fields := { ro := [(31, 0)] }

/-- Offset `off` lies in one of `n` words that start at `base` and stand `step` bytes apart. -/
def inArray (off base step n : Nat) : Bool := base ≤ off && off < base + step * n && (off - base) % step == 0

/-- Words of the device's management blocks. Only firmware writes LIMIT, through POWER_SET (R437). -/
def mgtFields (off : Nat) : Option Fields :=
  if off == 0x10 then some { ro := [(31, 31), (27, 8)] }
  else if off == 0x20 then some { ro := [(27, 8), (0, 0)] }
  else if off == 0x40 then some { wo := [(0, 0)] }
  else if off == 0x48 then some { ro := [(31, 31), (15, 0)] }
  else if inArray off 0x1000 4 0x800 then some allRw
  else none

def bootFields (off : Nat) : Option Fields :=
  if off == 0 then some { ro := [(31, 24), (15, 8), (3, 0)] } else if inArray off 0x100 4 128 then some allRo else none

def fabFields (off : Nat) : Option Fields :=
  if off == 0 then some { rw := [(0, 0)] }
  else if inArray off 0x1000 4 1024 then some allRo
  else if inArray off 0x2000 4 192 then some { ro := [(8, 0)] }
  else none

def erwFields (off : Nat) : Option Fields :=
  if inArray off 0 4 4 then some allRw
  else if inArray off 0x1000 8 srcCount then some { w1c := [(31, 30)], ro := [(29, 28), (15, 0)] }
  else if inArray off 0x1004 8 srcCount then some allRo
  else none

/-- A namespace record (R296). -/
def cnpFields (off : Nat) : Option Fields :=
  if off < 0x10000 || 0x20000 ≤ off then none
  else
    let o := off % 64
    if o == 0 then some { rw := [(31, 31), (29, 24), (15, 0)] }
    else if o == 4 then some allRw
    else if o == 8 then some { rw := [(31, 6)] }
    else if o == 0xC then some { rw := [(19, 0)] }
    else if o == 0x10 then some { w1c := [(31, 31)], rw := [(15, 0)] }
    else if o < 0x28 then some allRo
    else some {}

def ccrFields (off : Nat) : Option Fields :=
  if !inArray off 0x100 4 192 then none
  else if off % 16 == 0 then some { ro := [(8, 0)] }
  else if off % 16 == 4 then some {}
  else if off % 16 == 8 then some allRo
  else some { ro := [(19, 0)] }

def wchFields (off : Nat) : Option Fields :=
  if !inArray off 0 4 192 then none
  else if off % 16 == 0 then some { rw := [(31, 31), (13, 8), (5, 0)] }
  else if off % 16 == 4 then some allRw
  else if off % 16 == 8 then some { rw := [(31, 2)] }
  else some { rw := [(19, 0)] }

def smpFields (off : Nat) : Option Fields :=
  if !inArray off 0 4 384 then none
  else
    let o := off % 32
    if o == 0 then some { rw := [(31, 11), (8, 0)] }
    else if o == 4 then some { rw := [(19, 0)] }
    else if o == 8 then some allRw
    else if o == 0xC || o == 0x10 then some allRo
    else none

def rplFields (off : Nat) : Option Fields :=
  if 0x3000 ≤ off || off % 4 != 0 then none
  else
    let o := off % 256
    if o == 0 then some { rw := [(31, 31), (29, 0)] }
    else if o == 8 then some allRo
    else if o == 0xC then some { ro := [(31, 16)] }
    else if o == 0x10 then some allRw
    else if o == 0x18 then some { rw := [(31, 12)] }
    else if o == 0x14 || o == 0x1C then some { rw := [(19, 0)] }
    else if 0x20 ≤ o && o < 0x30 then some allRw
    else none

def drpFields (off : Nat) : Option Fields :=
  if !inArray off 0 4 52 then none
  else if off % 16 == 0 then some { rw := [(31, 31), (7, 0)], ro := [(23, 8)] }
  else if off % 16 == 4 then none
  else some allRo

def hmnFields (off : Nat) : Option Fields :=
  if 0x1000 ≤ off || off % 4 != 0 then none
  else
    let o := off % 256
    if o == 0 then some { rw := [(31, 31), (29, 23), (17, 8)], wo := [(30, 30)] }
    else if o == 8 || o == 0xC || (0x40 ≤ o && o < 0x80) then some allRo
    else none

def tmbFields (off : Nat) : Option Fields :=
  if inArray off 0 4 26 then some allRo
  else if !inArray off 0x100 4 100 then none
  else if off % 16 == 8 then some { ro := [(15, 0)] }
  else if off % 16 == 12 then some { ro := [(31, 31)] }
  else some allRo

/-- Words of a glade's five frames (R380). Only firmware writes SHARE (R437). -/
def gldFields (off : Nat) : Option Fields :=
  if off == 0 then some { ro := [(31, 29)], rw := [(28, 28), (21, 16)] }
  else if inArray off 0x10 4 5 then some allRo
  else if off == 0x30 then some { rw := [(4, 0)] }
  else if off == 0x34 then some { rw := [(7, 0)] }
  else if off == 0x38 then some { ro := [(7, 0)] }
  else if off == 0x40 || off == 0x44 then some allRo
  else if off == 0x1100 then some allRw
  else if off == 0x1104 then some { ro := [(31, 31), (23, 0)] }
  else if inArray off 0x1140 16 16 then some { rw := [(31, 16), (4, 0)] }
  else if inArray off 0x1148 16 16 then some { rw := [(31, 16), (0, 0)] }
  else if inArray off 0x1144 8 32 then some { rw := [(19, 0)] }
  else if off == 0x2200 then some { rw := [(22, 0)] }
  else if off == 0x2204 then some { ro := [(22, 0)] }
  else if inArray off 0x2240 16 8 then some allRw
  else if inArray off 0x2244 16 8 then some { rw := [(31, 30), (15, 0)] }
  else if inArray off 0x2248 16 8 then some { rw := [(31, 2)] }
  else if inArray off 0x224C 16 8 then some { rw := [(19, 0)] }
  else if inArray off 0x3000 4 1024 then
    let o := off % 64
    if o == 0 then some { ro := [(31, 30), (7, 0)] }
    else if o < 8 then none
    else if o == 0x1C then some { rw := [(21, 0)] }
    else if o < 0x30 then some allRw
    else if o < 0x38 then some allRo
    else some {}
  else if off == 0x4000 then some { rw := [(2, 1)], wo := [(0, 0)] }
  else if off == 0x4004 then some { rw := [(7, 0)] }
  else if inArray off 0x4008 4 6 then some allRw
  else if off == 0x4040 then some { ro := [(31, 31), (23, 0)] }
  else none

def coreFields (off : Nat) : Option Fields :=
  if inArray off 0x40 8 4 then some allRw else if inArray off 0x44 8 4 then some { rw := [(31, 23), (21, 0)] } else none

/-- The BAR of a virtual function: its request window, its doorbell, and from 0x100, a place of the model's choice, the window onto
FQHEAD of its glade's contexts (R381, R395, notes/assumptions 138). -/
def vfFields (off : Nat) : Option Fields :=
  if 128 ≤ off / 4096 || off % 4 != 0 then none
  else if off % 4096 < 0x40 then some allRw
  else if off % 4096 == 0x40 then some { wo := [(0, 0)] }
  else if 0x100 ≤ off % 4096 && off % 4096 < 0x200 then some allRw
  else none

/-- The register behind a word of a function's window onto its glade's frame 3; any other word is itself (R395). -/
def behind (s : State) (b : RegBlk) (off : Nat) : RegBlk × Nat :=
  let o := off % 4096
  match (if b == .vf && 0x100 ≤ o && o < 0x200 then vfGlade s (off / 4096) else none) with
  | some g => (.gld g, ctxOff ((o - 0x100) / 4) + 0x2C)
  | none => (b, off)

/-- A word of the BAR of a virtual function that is disabled: a write to it is discarded, and a read returns all ones (R395). -/
def barShut (s : State) (b : RegBlk) (off : Nat) : Bool := b == .vf && off / 4096 < 128 && (vfGlade s (off / 4096)).isNone

/-- The fields of a register word; none where no register stands. -/
def regFields (b : RegBlk) (off : Nat) : Option Fields := match b with
  | .mgt => mgtFields off
  | .boot => bootFields off
  | .fab => fabFields off
  | .slc => if off == 0 then some { ro := [(31, 8), (4, 0)] } else none
  | .erw => erwFields off
  | .tpr => if inArray off 0x100 8 48 then some allRo else if inArray off 0x104 8 48 then some { ro := [(15, 0)] } else none
  | .cnp => cnpFields off
  | .ccr => ccrFields off
  | .wch => wchFields off
  | .smp => smpFields off
  | .rpl => rplFields off
  | .drp => drpFields off
  | .hmn => hmnFields off
  | .tmb => tmbFields off
  | .ddp => if off == 0 then some { rw := [(31, 16), (0, 0)] } else if off == 8 || off == 0xC then some allRo else none
  | .clr => if off == 0 || off == 8 then some allRo else if off == 4 then some { ro := [(31, 22), (15, 0)] } else none
  | .rlk => if inArray off 0x400 4 128 then some { rw := [(31, 31), (5, 0)] } else none
  | .pyl =>
    if inArray off 0x100 8 12 then some { w1c := [(1, 1)], ro := [(0, 0)] } else if inArray off 0x104 8 12 then some allRo else none
  | .vf => vfFields off
  | .gld g => if g < 48 then gldFields off else none
  | .core c => if c < 160 then coreFields off else none

/-- The block of an address of the register space, and the offset in it (notes/assumptions 15). -/
def regPlace (addr : Nat) : Option (RegBlk × Nat) :=
  let n := addr / 2 ^ 20
  let off := addr % 2 ^ 20
  let named : List RegBlk := [.mgt, .boot, .fab, .slc, .erw, .tpr, .cnp, .ccr, .wch, .smp, .rpl, .drp, .hmn, .tmb, .ddp, .clr, .rlk, .pyl, .vf]
  if n < 19 then (named[n]?).map fun b => (b, off)
  else if 32 ≤ n && n < 80 then some (.gld (n - 32), off)
  else if 128 ≤ n && n < 288 then some (.core (n - 128), off)
  else none

/-! ## Reads (R443) -/

/-- A register word as a read finds it: timebases and measurements stand in fields of their own, and the counts of an error source
and BUSY of GLD_PSTAT are as they stand at that moment (R362, R383). -/
def readWord (s : State) (b : RegBlk) (off : Nat) : Word := match b with
  | .tmb => if off < 0x68 then (timebase s (off / 8)).extractLsb' (32 * (off / 4 % 2)) 32 else reg s b off
  | .erw => if inArray off 0x1000 8 srcCount then errWord s ((off - 0x1000) / 8) else reg s b off
  | .gld g => if off == 0x4040 then setFld (reg s b off) 31 31 (if preempting s g then 1 else 0) else reg s b off
  | .boot => if 0x100 ≤ off then (Tab.valD s.meas ((off - 0x100) / 64) 0).extractLsb' (8 * (off % 64)) 32 else reg s b off
  | _ => reg s b off

/-- A read of 4 or 8 bytes: an error completion, with all ones, for another size or alignment; zero where no register stands. -/
def readReg (s : State) (addr size : Nat) : Bool × Nat :=
  if !(size == 4 || size == 8) || addr % size != 0 then (true, 2 ^ (8 * size) - 1)
  else (false, ofWords ((List.range (size / 4)).map fun i => match regPlace (addr + 4 * i) with
    | some (b, off) => if barShut s b off then BitVec.allOnes 32 else if (regFields b off).isSome then readWord s (behind s b off).1 (behind s b off).2 else 0
    | none => 0))

/-- HOST_READ: a host read or atomic of memory (R392), or a read of registers, which one without effect (R443). -/
def execHostRead (pa : Nat) (op : BusOp) (s : State) : Out := runEvent s do
  require s.hostUp "HOST_READ"
  .ok (match op with
    | .register n =>
      let (err, x) := readReg s pa n
      busReply s err (toBytes n x)
    | _ => serveBus s pa op)

/-! ## Checks of the registers' chapters, on the merged value -/

/-- A namespace record after a write (R297). -/
def nsBad (s s' : State) (n : Nat) : Bool :=
  let was := reg s .cnp (nsOff n)
  let now := reg s' .cnp (nsOff n)
  let valid := fld now 31 31 == 1
  (valid && fld (reg s' .cnp (nsOff n + 0x10)) 15 0 == 0) ||
  (fld was 31 31 == 1 && (fld was 29 24 != fld now 29 24 || fld was 15 0 != fld now 15 0)) ||
  (valid && fld was 31 31 == 0 && (fld now 15 0 == 0 ||
    (List.range 1024).any fun m => m != n && regFld s .cnp (nsOff m) 31 31 == 1 && regFld s .cnp (nsOff m) 15 0 == fld now 15 0))

/-- Two valid ACL entries of a glade share an NSID (R298). -/
def aclClash (s : State) (g : Nat) : Bool :=
  let e := fun i => reg s (.gld g) (0x2244 + 16 * i)
  (List.range 8).any fun i => (List.range 8).any fun j =>
    i < j && fld (e i) 31 31 == 1 && fld (e j) 31 31 == 1 && fld (e i) 15 0 == fld (e j) 15 0

/-- The shares of the configured power limit (R437). -/
def shareSum (s : State) : Nat := ((List.range 48).map fun g => powerShare s g).foldl (· + ·) 0

def badEvents (w : Word) : Bool := (List.range 4).any fun i => decide (0x11 < fld w (8 * i + 7) (8 * i))

/-- A write that turns `s` into `s'` at a word is discarded whole. A FAULTED context counts as open for EN (R397, notes/assumptions
151). -/
def regBad (s s' : State) (b : RegBlk) (off : Nat) : Bool := match b with
  | .erw => off < 16 && (regFld s' b off 31 16 == 0 || regFld s' b off 15 0 == 0)
  | .cnp => nsBad s s' ((off - 0x10000) / 64)
  | .wch =>
    let g := off / 16
    let w := reg s' .wch (16 * g)
    let live := fun c => ctxState s g c == 1 || ctxState s g c == 2
    fld w 31 31 == 1 && (fld w 13 8 == fld w 5 0 || !live (fld w 13 8) || !live (fld w 5 0))
  | .smp => off % 32 == 0 && (10 < regFld s' b off 3 0 || regFld s' b off 8 4 < 6 || 20 < regFld s' b off 8 4)
  | .rpl => regFld s .rpl (off / 256 * 256 + 12) 31 31 == 1 || (0x20 ≤ off % 256 && badEvents (reg s' b off))
  | .hmn => off % 256 == 0 && (4 < regFld s' b off 29 27 || 12 < regFld s' b off 11 8)
  | .gld g =>
    (off == 0x30 && 20 < regFld s' b off 4 0) ||
    (off == 0x1100 && regFld s' b off 31 16 &&& (65535 - regFld s' b off 15 0) != 0) ||
    (inArray off 0x1140 16 16 && 16 < regFld s' b off 4 0) || (off == 0x2200 && 6291456 < regFld s' b off 22 0) ||
    (inArray off 0x2244 16 8 && aclClash s' g) ||
    (0x3000 ≤ off && off < 0x4000 && off % 64 == 0x2C && ctxState s g (off % 0x1000 / 64) != 1)
  | .core c =>
    (s.replaySes.any fun (g, _) => (s.gladeSt g).cores.contains c) || (off % 8 == 4 && 0x11 < regFld s' b off 31 24)
  | _ => false

/-! ## Writes (R6, R7, R443) -/

/-- The merged value of a word: RW fields from the write, W1C bits cleared by ones. -/
def mergeWord (f : Fields) (old v : Word) : Word :=
  ((old &&& ~~~(bitsIn f.rw)) ||| (v &&& bitsIn f.rw)) &&& ~~~(v &&& bitsIn f.w1c)

/-- Writes one word, without the chapter's checks; none where the word refuses it. -/
def putWord (s : State) (addr : Nat) (v : Word) : Option State := match regPlace addr with
  | none => if v == 0 then some s else none
  | some (b, off) => if barShut s b off then some s else match regFields b off with
    | none => if v == 0 then some s else none
    | some f =>
      let (b, off) := behind s b off
      if v &&& ~~~f.known != 0 then none else some (setReg s b off (mergeWord f (reg s b off) v))

/-- The words of an access. -/
def accessWords (addr size value : Nat) : List (Nat × Word) :=
  if size == 8 then [(addr, BitVec.ofNat 32 value), (addr + 4, BitVec.ofNat 32 (value / 2 ^ 32))] else [(addr, BitVec.ofNat 32 value)]

/-- A write with every check: the new state, or none where it is refused. -/
def writeRegs (s : State) (ws : List (Nat × Word)) : Option State := match ws.foldlM (fun s (a, v) => putWord s a v) s with
  | none => none
  | some s' =>
    if ws.any fun (a, _) => match regPlace a with
      | some (b, off) => (regFields b off).isSome && regBad s s' (behind s b off).1 (behind s b off).2
      | none => false
    then none else some s'

/-- The write answers with an error completion and changes nothing, or is done. -/
def answerWrite (s : State) (r : Option State) : State := match r with
  | none => busReply s true []
  | some s' => busReply s' false []

/-- A 1 written to GO starts the request in GLD_PREQ (R383). -/
def goRequest (s : State) (g : Nat) : Eff State :=
  let w := fun i => reg s (.gld g) (0x4000 + 4 * i)
  let mask := ofWords ((List.range 5).map fun i => w (3 + i))
  let r : PreemptReq :=
    { seq := (w 2).toNat, mode := fld (w 0) 1 1, count := fld (w 1) 7 0, mask := (List.range 160).filter fun i => mask.testBit i,
      discard := fld (w 0) 2 2 == 1 }
  match findCmd s g r.seq with
  | none => .ok (setPstat s g 2 0)
  | some (cmd, k) => do
    require (!inTransit s cmd) "REGISTER_WRITE"
    .ok (startPreempt s g cmd k r).2

/-- The physical function's number among the functions that message signals name. -/
def physFunction : Nat := 128

/-- The response replaces the record: the window holds its words from 0x1010, where a request's payload stands, and zeros elsewhere, a
layout of the model's (R435, notes/assumptions 92). -/
def respond (s : State) (ws : List Word) : State :=
  let lo := RegBlk.code .mgt * 2 ^ 18 + 0x400
  let s : State := { s with regs := Tab.keep s.regs fun k _ => k < lo || lo + 0x800 ≤ k }
  ((ws.take 0x7FC).zipIdx).foldl (fun s (w, i) => setReg s .mgt (0x1010 + 4 * i) w) s

/-- The end of a mailbox request: status, response, MGT_MBSTAT, and the message signal (R435). -/
def mgtReply (s : State) (op st : Nat) (ws : List Word) : State :=
  let s := setReg (respond s ws) .mgt 0x48 (BitVec.ofNat 32 (op * 2 ^ 8 + st))
  { s with replies := (BitVec.ofNat 32 op :: BitVec.ofNat 32 st :: ws) :: s.replies, msix := (physFunction, 0) :: s.msix }

/-- The OPs of R436. -/
def mgtOps : List Nat := [1, 2, 3, 4, 5, 0x10, 0x11, 0x12, 0x13, 0x14, 0x20]

/-- The management doorbell: the request in the window is being served; one with any other OP than R436's is answered BADOP (R379,
R435, R436). -/
def mgtDoorbell (s : State) : State :=
  let op := regFld s .mgt 0x1000 7 0
  if mgtOps.contains op then setRegFld s .mgt 0x48 31 31 1 else mgtReply s op rBadOp []

/-- The actions of WO fields of a word, and the setting of ARM (R422). -/
def woAction (s : State) (a : Nat) (v : Word) : Eff State := match regPlace a with
  | some (.mgt, 0x40) =>
    .ok (if v &&& 1 == 0 then s else mgtDoorbell s)
  | some (.gld g, 0x4000) => if v &&& 1 == 0 then .ok s else goRequest s g
  | some (.rpl, off) => .ok (if off % 256 == 0 && v.getLsbD 31 then s.updGlade (off / 256) fun x => { x with armAt := s.nextId } else s)
  | some (.vf, off) => if off % 4096 != 0x40 || v &&& 1 == 0 || barShut s .vf off then .ok s else vfDoorbell s (off / 4096)
  | _ => .ok s

/-- A doorbell written while BUSY is set is refused (R435). -/
def doorbellBusy (s : State) (ws : List (Nat × Word)) : Bool :=
  regFld s .mgt 0x48 31 31 == 1 && ws.any fun (a, v) => a == regAddr .mgt 0x40 && v &&& 1 != 0

/-- GLD_L2WAYS has been written over an older FILL: added ways are in force, removed ones drain (R210). -/
def startDrain (s : State) (g old : Nat) : State :=
  let fill := regFld s (.gld g) 0x1100 15 0
  let gone := old &&& (65535 - fill)
  let ways := (regFld s (.gld g) 0x1104 15 0 ||| gone) &&& (65535 - fill)
  let s := setRegFld s (.gld g) 0x1104 15 0 ways
  let s := setRegFld s (.gld g) 0x1104 31 31 (if ways == 0 then 0 else 1)
  if gone == 0 then s
  else setRegFld (s.updGlade g fun x => { x with drained := [] }) (.gld g) 0x1104 23 16 0

/-- A namespace has been made: the fields of its record that R296 marks 0 are reset. -/
def createNs (s : State) (n : Nat) : State :=
  let s := setRegFld s .cnp (nsOff n + 0x10) 31 31 0
  let s := [0x14, 0x18, 0x1C, 0x20, 0x24].foldl (fun s o => setReg s .cnp (nsOff n + o) 0) s
  { s with lastSweep := Tab.keep s.lastSweep fun k _ => k / 32 != n }

/-- Deletes the namespace that record `n` held in `was`: every entry of it becomes INVALID, and those whom the record let in are
notified (R297, R300). -/
def deleteNs (was s : State) (n : Nat) : State :=
  let ns := regFld was .cnp (nsOff n) 15 0
  setRegFld (discardBy was s fun _ x => x.ns == ns) .cnp (nsOff n) 31 31 0

/-- Minimum, maximum and bins of a monitor return to their reset values (R426). -/
def clearMonitor (s : State) (m : Nat) : State :=
  let s := setReg (setReg s .hmn (256 * m + 8) 0xFFFFFFFF#32) .hmn (256 * m + 12) 0
  (List.range 16).foldl (fun s b => setReg s .hmn (256 * m + 0x40 + 4 * b) 0) s

/-- What a write of a word that has a row of its own does beside changing the word; `was` is the state before it. -/
def ownEffect (was s : State) (a : Nat) (v : Word) : State := match regPlace a with
  | some (.gld g, 0x1100) => startDrain s g (regFld was (.gld g) 0x1100 15 0)
  | some (.cnp, off) =>
    let n := (off - 0x10000) / 64
    if fld v 31 31 == 1 then createNs s n else deleteNs was s n
  | some (.hmn, off) => clearMonitor s (off / 256)
  | _ => s

/-- A word whose write is a row of its own: GLD_L2WAYS, a change of VALID of a namespace, CLR of a monitor. -/
def ownRow (s : State) (a : Nat) (v : Word) : Bool := match regPlace a with
  | some (.gld _, off) => off == 0x1100
  | some (.cnp, off) => 0x10000 ≤ off && off < 0x20000 && off % 64 == 0 && fld v 31 31 != regFld s .cnp off 31 31
  | some (.hmn, off) => off < 0x1000 && off % 256 == 0 && fld v 30 30 == 1
  | _ => false

/-- REGISTER_WRITE: a memory-mapped write of 4 bytes to a word without a row of its own, or of any 8 bytes (R443). -/
def execRegisterWrite (addr size : Nat) (value : BitVec 64) (s : State) : Out := runEvent s do
  let ws := accessWords addr size value.toNat
  if !(size == 4 || size == 8) || addr % size != 0 then .ok (busReply s true [])
  else do
    require (size == 8 || !(ws.any fun (a, v) => ownRow s a v)) "REGISTER_WRITE"
    if doorbellBusy s ws then .ok (busReply s true [])
    else match writeRegs s ws with
      | none => .ok (busReply s true [])
      | some s' => do
        let s' ← ws.foldlM (fun s (a, v) => woAction s a v) s'
        .ok (busReply ((ws.filter fun (a, v) => ownRow s a v).foldl (fun t (a, v) => ownEffect s t a v) s') false [])

/-- A write of one word that has a row of its own. -/
def ownWrite (s : State) (b : RegBlk) (off : Nat) (v : Word) : State :=
  answerWrite s ((writeRegs s [(regAddr b off, v)]).map fun t => ownEffect s t (regAddr b off) v)

/-- L2WAYS_WRITE (R207, R210). -/
def execL2waysWrite (g : Nat) (value : BitVec 32) (s : State) : Out := runEvent s do
  require (g < 48) "L2WAYS_WRITE"
  .ok (ownWrite s (.gld g) 0x1100 value)

/-- NAMESPACE_CREATE: a write that sets VALID of record n (R296, R297). -/
def execNamespaceCreate (n : Nat) (value : BitVec 32) (s : State) : Out := runEvent s do
  require (n < 1024 && regFld s .cnp (nsOff n) 31 31 == 0 && fld value 31 31 == 1) "NAMESPACE_CREATE"
  .ok (ownWrite s .cnp (nsOff n) value)

/-- NAMESPACE_DELETE: a write that clears VALID of record n (R297). -/
def execNamespaceDelete (n : Nat) (value : BitVec 32) (s : State) : Out := runEvent s do
  require (n < 1024 && regFld s .cnp (nsOff n) 31 31 == 1 && fld value 31 31 == 0) "NAMESPACE_DELETE"
  .ok (ownWrite s .cnp (nsOff n) value)

/-- HISTOGRAM_CLEAR: a write of CLR to HMN_CTLm (R426). -/
def execHistogramClear (m : Nat) (value : BitVec 32) (s : State) : Out := runEvent s do
  require (m < 16 && fld value 30 30 == 1) "HISTOGRAM_CLEAR"
  .ok (ownWrite s .hmn (256 * m) value)

end Sys2Proof.Machine
end

