-- ==== Sys2Proof/Machine/Clear.lean ====
section
/-! DEFINITION. The clearing engine's units and what a released glade leaves behind (R393, R394). -/

namespace Sys2Proof.Machine

open Sys2Proof

/-- The work of one unit of a phase. -/
def clearUnit (s : State) (phase u : Nat) : State :=
  if phase == 1 then s.updCore u CoreSt.bare
  else if phase == 2 then { s with sync := s.sync.filter fun e => e.glade != s.clear.cur.getD 0 || e.phys != slicePhys s u }
  else if phase == 3 then deleteNs s s u
  else if phase == 4 then { s with keys := Tab.del s.keys u }
  else if phase == 5 then
    { setFrame s u {} with mem := clearMem s.mem (65536 * u) 65536, marked := s.marked.filter fun l => l / 65536 != u }
  else s

/-- Register words of a glade return to their reset values. -/
def resetGladeRegs (s : State) (g : Nat) : State :=
  let lo := fun (b : RegBlk) => b.code * 2 ^ 20
  let mine := fun (a : Nat) =>
    a / 2 ^ 20 == 32 + g || (lo .ccr + 0x100 + 16 * g ≤ a && a < lo .ccr + 0x110 + 16 * g) ||
    (lo .wch + 16 * g ≤ a && a < lo .wch + 16 * g + 16) || (lo .smp + 32 * g ≤ a && a < lo .smp + 32 * g + 32) ||
    (s.gladeSt g).vfs.any (fun n => decide (lo .vf + vfOff n ≤ a) && decide (a < lo .vf + vfOff (n + 1))) ||
    (lo .rpl + 256 * g ≤ a && a < lo .rpl + 256 * g + 256) || (lo .tpr + 0x100 + 8 * g ≤ a && a < lo .tpr + 0x108 + 8 * g)
  { s with regs := Tab.keep s.regs fun k _ => !mine (4 * k) }

/-- Phase 6: cores, virtual functions and the taproot segment are released, and the glade is FREE. -/
def releaseGlade (s : State) (g : Nat) : State :=
  let s := (List.range 128).foldl (fun s n =>
    if regFld s .rlk (0x400 + 4 * n) 31 31 == 1 && regFld s .rlk (0x400 + 4 * n) 5 0 == g then setReg s .rlk (0x400 + 4 * n) 0 else s) s
  let s := resetGladeRegs s g
  { s with
    glades := Tab.del s.glades g, waves := Tab.del s.waves g, cores := Tab.del s.cores (256 + g)
    cmds := Tab.keep s.cmds fun _ k => k.glade != g
    ops := Tab.keep s.ops fun _ o => o.glade != g
    probes := Tab.keep s.probes fun _ p => p.glade != g
    clusterTlb := Tab.mapV s.clusterTlb fun _ l => l.filter fun e => e.glade != g
    replaySes := Tab.del s.replaySes g }

/-- The engine is idle again, and takes the next glade. -/
def endClearing (s : State) : State :=
  let s : State := { s with clear := { s.clear with cur := none, units := [] } }
  let s := setRegFld (setRegFld (setRegFld s .clr 4 31 31 0) .clr 4 30 28 0) .clr 4 27 22 0
  nextTeardown (setReg (setReg s .clr 0 0) .clr 8 0)

/-- CLEARING_UNIT_DONE: the unit in progress is complete and DONE advances; after a phase's last unit the next phase begins,
and phase 6 frees the glade. Firmware resumes an interrupted phase once stage 1 is complete (R393, R394). -/
def execClearingUnitDone (s : State) : Out := runEvent s do
  let g ← need s.clear.cur "CLEARING_UNIT_DONE"
  require (2 ≤ regFld s .boot 0 31 28) "CLEARING_UNIT_DONE"
  let phase := regFld s .clr 4 30 28
  let done := (reg s .clr 0).toNat
  match s.clear.units[done]? with
  | some u =>
    let s := setReg (clearUnit s phase u) .clr 0 (BitVec.ofNat 32 (done + 1))
    .ok (if done + 1 == s.clear.units.length then enterPhase s g 6 (phase + 1) else s)
  | none => .ok (endClearing (releaseGlade s g))

end Sys2Proof.Machine
end

