-- ==== Sys2Proof/Machine/Boot.lean ====
section
/-! DEFINITION. Resets and start-up (R12, R13, R353, R394, R428 to R431, R438). -/

namespace Sys2Proof.Machine

open Sys2Proof

/-! ## Resets (R394, R429, R430, R392) -/

/-- Kinds of reset: RCAUSE, whether registers named for device reset return to their reset values, whether HBM keeps its
contents, and whether the always-on domain keeps its own. -/
structure ResetKind where
  cause : Nat
  device : Bool := true
  hbm : Bool := false
  on : Bool := true

/-- The block of a register word. -/
def wordBlock (k : Nat) : Nat := k / 2 ^ 18

/-- The register blocks that only a device reset clears. -/
def deviceResetBlocks : List RegBlk := [.mgt, .fab, .erw, .cnp, .drp, .hmn, .tmb, .pyl, .ddp, .slc]

/-- Register words that a reset keeps: the clearing engine's; frame 0 of a glade it waits for or clears; after a warm reset
those named for device reset. -/
def keepsWord (s : State) (r : ResetKind) (k : Nat) : Bool :=
  let b := wordBlock k
  (r.on && b == RegBlk.code .clr) ||
  (r.on && 32 ≤ b && b < 80 && leaving s (b - 32) && 4 * k % 2 ^ 20 < 0x40) ||
  (!r.device && (deviceResetBlocks.any (·.code == b) || (128 ≤ b && b < 288)))

/-- What a glade keeps across a reset while the clearing engine has it: its cores, functions and numbers. -/
def Glade.husk (x : Glade) : Glade := { cores := x.cores, vfs := x.vfs, nsids := x.nsids }

/-- What HBM holds of protected frames without their keys, which every reset clears: each line as it stands encrypted (R392). -/
def sealFrames (s : State) : List Host.Cell :=
  (s.frames.filter fun (_, f) => f.valid && f.key.isSome).foldl (fun m (n, f) =>
    mapFrame (Config.xts (Tab.valD s.keys (f.key.getD 0) 0)) m n) s.mem

/-- A device reset of some kind: stage 0 begins. Every core's clock is at 1.1 GHz again (R437). -/
def resetDevice (s : State) (r : ResetKind) : State :=
  let stays := fun (g : Nat) => r.on && leaving s g
  let s' : State :=
    { now := s.now, tbOff := s.tbOff, agenda := s.agenda, nextId := s.nextId, freeCount := s.freeCount
      replies := s.replies, msix := s.msix, svn := s.svn, failedCores := s.failedCores, failedSlices := s.failedSlices
      hostUp := s.hostUp, temps := s.temps
      mem := if r.hbm then sealFrames s else s.mem.filter fun c => decide (2 ^ 56 ≤ c.1)
      marked := if r.hbm then s.marked else []
      frames := Tab.keep s.frames fun _ f => stays f.glade
      glades := (s.glades.filter fun (g, _) => stays g).map fun (g, x) => (g, x.husk)
      regs := Tab.keep s.regs fun k _ => keepsWord s r k
      clear := if r.on then s.clear else {}
      lasting := if r.device then [] else s.lasting, acted := if r.device then [] else s.acted
      errors := if r.device then [] else s.errors, droop := if r.device then [] else s.droop
      boot := { since := s.now } }
  let s' := setReg s' .boot 0 (BitVec.ofNat 32 (s.svn % 256 * 2 ^ 8 + r.cause))
  let s' := setRegFld (setRegFld s' .slc 0 31 28 0) .slc 0 4 0 0
  let s' := setRegFld s' .mgt 0x20 0 0 0
  setRegFld (setRegFld (setRegFld s' .mgt 0x10 27 24 1) .mgt 0x10 23 16 0) .mgt 0x10 15 8 4

/-- Every timebase reads 0. -/
def zeroTimebases (s : State) : State :=
  { s with tbOff := (List.range 13).map fun d => (d, (2 ^ 64 - s.now % 2 ^ 64) % 2 ^ 64) }

/-- POWER_ON_RESET: power-on reset is released and stage 0 begins (R428). -/
def execPowerOnReset (s : State) : Out := .next (zeroTimebases (resetDevice s { cause := 0, on := false }))

/-- DEVICE_RESET (R429). -/
def execDeviceReset (s : State) : Out := runEvent s do
  require s.boot.powered "DEVICE_RESET"
  .ok (resetDevice s { cause := 1, hbm := true })

/-- WARM_RESET (R429). -/
def execWarmReset (s : State) : Out := runEvent s do
  require s.boot.powered "WARM_RESET"
  .ok (resetDevice s { cause := 2, device := false, hbm := true })

/-- THERMAL_TRIP: at 115 °C power is removed at once and the device resets; only the always-on domain keeps its state, and the
timebases start again (R438). -/
def execThermalTrip (celsius : Nat) (s : State) : Out := runEvent s do
  require (115 ≤ celsius && s.boot.powered) "THERMAL_TRIP"
  .ok (zeroTimebases (resetDevice s { cause := 3 }))

/-- STANDBY_POWER_LOSS: the always-on domain loses its state, and nothing runs until power returns (R394). -/
def execStandbyPowerLoss (s : State) : Out :=
  let s := resetDevice s { cause := 0, on := false }
  .next { s with boot := { s.boot with powered := false, stage := none } }

/-! ## Measurement (R430) -/

/-- The bytes of a 512-bit value, low first. -/
def bytes512 (x : BitVec 512) : List Byte := toBytes 64 x.toNat

/-- Extends a measurement register. -/
def extend (s : State) (n : Nat) (h : BitVec 512) : State :=
  { s with meas := Tab.put s.meas n (Config.sha3 (bytes512 (Tab.valD s.meas n 0) ++ bytes512 h)) }

/-! ## Stages (R428) -/

/-- STAGE and ERROR of BOOT_STAT. -/
def bootStage (s : State) : Nat := regFld s .boot 0 31 28
def bootError (s : State) : Nat := regFld s .boot 0 27 24

/-- When the stage in progress must be complete. -/
def stageBound (s : State) (stage : Nat) : Nat :=
  if stage == 0 then s.boot.since + 50000000 else if stage == 1 then s.boot.since + 2000000000 else s.boot.asked + 100000000

/-- Start-up stops at the stage reached. -/
def bootStop (s : State) (error : Nat) : State :=
  { setRegFld s .boot 0 27 24 error with boot := { s.boot with stage := none } }

/-- The images that a stage measures: how many, and the register of the first (R428, R430). -/
def stageImages (stage : Nat) : Nat := if stage == 0 then 1 else if stage == 1 then 2 else 0
def firstRegister (stage : Nat) : Nat := if stage == 0 then 0 else 1

/-- Extends a register with each digest, from register `n` on. -/
def extendAll (s : State) (n : Nat) (hs : List (BitVec 512)) : State := (hs.zipIdx).foldl (fun s (h, i) => extend s (n + i) h) s

/-- Digests of images that the model is not told: of free bytes. -/
def State.freeDigests (s : State) (n : Nat) : List (BitVec 512) × State :=
  ((List.range n).map fun i => Config.sha3 [Config.freeByte (s.freeCount + i)], { s with freeCount := s.freeCount + n })

/-- STARTUP_BOUND_MISSED (R428). How many images of the stage had been measured by then is open: a free value, and so are their
digests (R430, notes/assumptions 137). -/
def execStartupBoundMissed (s : State) : Out := runEvent s do
  let st ← need s.boot.stage "STARTUP_BOUND_MISSED"
  require (stageBound s st < s.now) "STARTUP_BOUND_MISSED"
  let (x, s) := s.freeWord
  let (hs, s) := s.freeDigests (x.toNat % (stageImages st + 1))
  .ok (bootStop (extendAll s (firstRegister st) hs) 4)

/-- STARTUP_CHECK_FAILED: the images measured so far, in order. For ERROR 1 and 2 the last of them, which extended register n, is
refused, for 2 as its version is below SVN; for 3 HBM training fails (R428, R430, R431). -/
def execStartupCheckFailed (error n : Nat) (images : List BootImage) (s : State) : Out := runEvent s do
  let st ← need s.boot.stage "STARTUP_CHECK_FAILED"
  require (st ≤ 1 && images.length ≤ stageImages st) "STARTUP_CHECK_FAILED"
  let passed := fun (l : List BootImage) => l.all fun x => s.svn ≤ x.version
  require (match images.getLast? with
    | some x => (error == 3 && passed images) || ((error == 1 || (error == 2 && x.version < s.svn)) &&
        passed images.dropLast && n + 1 == firstRegister st + images.length)
    | none => error == 3) "STARTUP_CHECK_FAILED"
  .ok (bootStop (extendAll s (firstRegister st) (images.map (·.digest))) error)

/-- A control core at the start of its glade: it waits for a PC. -/
def controlWave (g : Nat) : Wave :=
  { control := true, glade := g, haltCc := true,
    ents := [(0, .frag { memb := 1, emask := 0xFFFFFFFF#32 })] }

/-- Forms a glade: it is in CONFIG, as it has no core yet (R32, notes/assumptions 128), its epoch is 1 (R215), its control core
stands halted, and its functions are bound. -/
def formGlade (s : State) (g : Nat) (vfs : List Nat) : State :=
  let s := setGladeState s g 1
  let s := vfs.foldl (fun s n => setReg s .rlk (0x400 + 4 * n) (BitVec.ofNat 32 (2 ^ 31 + g))) s
  let s := s.setGlade g { epoch := 1, vfs := vfs }
  let s := s.setWave g (controlWave g)
  s.updCore (256 + g) fun x => { x.bare with view := 1 }

/-- A core joins a glade, which is ACTIVE from its first on: the core's view of the epoch is the counter's (R32, R215). -/
def joinCore (s : State) (g core : Nat) : State :=
  let x := s.gladeSt g
  let s := setCores (setGladeState s g 2) g (x.cores ++ [core])
  s.updCore core fun c => { c.bare with view := x.epoch, completed := x.completed }

/-- STAGE0_COMPLETE: the stage-1 image has been measured and verified; glade 0 forms unless a clearing waits (R428). Until stage 1 sets
the selectors, logical cores 0 to 3 are physical cores 0 to 3, recorded as failed or not: the model's choice (notes/assumptions
94). -/
def execStage0Complete (digest : BitVec 512) (version : Nat) (s : State) : Out := runEvent s do
  require (s.boot.stage == some 0 && s.now ≤ stageBound s 0 && s.svn ≤ version) "STAGE0_COMPLETE"
  let s := extend s 0 digest
  let s := setRegFld s .boot 0 31 28 1
  let four := List.range 4
  let s : State := { s with boot := { s.boot with stage := some 1, version := version, cores := four, coreMap := four.map fun c => (c, c) } }
  .ok (if regFld s .clr 4 31 31 == 0 && !leaving s 0 then four.foldl (fun s c => joinCore s 0 c) (formGlade s 0 [0]) else s)

/-- The physical core on each port of a compute chiplet: its own, or the next spare that is not failed (R13). The eight compute
chiplets carry cores and no L2 slice (R15). -/
def chipletCores (failed : List Nat) (k : Nat) : List (Nat × Nat) :=
  let ok := fun (c : Nat) => !failed.contains c
  let spares := (range (22 * k + 20) 2).filter ok
  let bad := (List.range 20).filter fun i => !ok (22 * k + i)
  let joined := fun (i : Nat) =>
    if ok (22 * k + i) then some (22 * k + i) else (bad.zip spares).find? (fun e => e.1 == i) |>.map (·.2)
  (List.range 20).filterMap fun i => (joined i).map fun c => (20 * k + i, c)

/-- The physical slices in service on a cache chiplet: the wired ones that are not failed, and a spare for each that is (R13). L2
slices stand on the four cache chiplets alone (R15). -/
def chipletSlices (failed : List Nat) (k : Nat) : List Nat :=
  let ok := fun (c : Nat) => !failed.contains c
  let wired := (range (50 * k) 48).filter ok
  wired ++ ((range (50 * k + 48) 2).filter ok).take (48 - wired.length)

/-- FAB_SLCPHYn and FAB_BMAPn at start-up (R353). -/
def mapSlices (s : State) (ps : List Nat) : State :=
  let s := ((List.range 192).zip (ps.map some ++ List.replicate (192 - ps.length) none)).foldl (fun s (n, p) =>
    setReg s .fab (0x2000 + 4 * n) (match p with
      | some p => BitVec.ofNat 32 (256 + p)
      | none => 0)) s
  let m := ps.length
  (List.range 1024).foldl (fun s i =>
    setReg s .fab (0x1000 + 4 * i) (BitVec.ofNat 32
      ((4 * i) % m + 2 ^ 8 * ((4 * i + 1) % m) + 2 ^ 16 * ((4 * i + 2) % m) + 2 ^ 24 * ((4 * i + 3) % m)))) s

/-- Counts of MGT_CONFIG after stage 1 (R37). -/
def setConfig (s : State) (cores slices : Nat) : State :=
  let s := setRegFld (setRegFld (setRegFld s .mgt 0x10 27 24 12) .mgt 0x10 23 16 slices) .mgt 0x10 15 8 cores
  if cores < 160 || slices < 192 then setRegFld s .mgt 0x10 31 31 1 else s

/-- A clearing that a reset interrupted is resumed; with none, the first glade that waits, whose contexts the reset closed, is
torn down (R393, R394). -/
def resumeClearing (s : State) : State :=
  let s := if regFld s .clr 4 31 31 == 1 then setRegFld s .clr 4 15 8 (min 255 (regFld s .clr 4 15 8 + 1)) else s
  nextTeardown s

/-- A logical number of glade 0 that stage 1 leaves vacant is no core of it any more; blocks placed there are ended as R390 ends
one without a slot (R13, notes/assumptions 94). -/
def vacatePort (s : State) (core : Nat) : State :=
  let s := (s.cmds.filter fun (_, k) => k.glade == 0).foldl (fun s (c, k) =>
    endBlocks s c k ((cmdBlocks s c).filter fun (_, b) => b.cores.contains core && b.st != .saved && b.st != .done)) s
  { setCores s 0 ((s.gladeSt 0).cores.filter (· != core)) with cores := Tab.del s.cores core }

/-- STAGE1_COMPLETE: every unit is in service; failed ones are recorded, numbers are given and the bucket map is made; the
remaining images, whose versions are not below SVN, are measured; RETIRED counts from this start-up on (R13, R37, R353, R367,
R428, R430, R431). The first image stands for the system-controller and stage-2 images, with the lower of their versions. -/
def execStage1Complete (failedCores failedSlices : List Nat) (system control : BootImage) (s : State) : Out := runEvent s do
  require (s.boot.stage == some 1 && s.now ≤ stageBound s 1 && s.svn ≤ system.version && s.svn ≤ control.version) "STAGE1_COMPLETE"
  let fc := failedCores.foldr ins s.failedCores
  let fs := failedSlices.foldr ins s.failedSlices
  let cs := (List.range 8).flatMap (chipletCores fc)
  let ps := (List.range 4).flatMap (chipletSlices fs)
  let s := setRegFld (extendAll s 1 [system.digest, control.digest]) .slc 0 15 8 0
  let s := setConfig (mapSlices s ps) cs.length ps.length
  let s := setRegFld s .boot 0 31 28 2
  let s : State := { s with failedCores := fc, failedSlices := fs,
                            boot := { s.boot with stage := none, cores := cs.map (·.1), coreMap := cs } }
  let gone := ((Tab.val? s.glades 0).getD {}).cores.filter fun c => !s.boot.cores.contains c
  .ok (resumeClearing (gone.foldl vacatePort s))

/-- STAGE2_COMPLETE: the Canopy heap is carved, and glades may be configured (R27, R428). -/
def execStage2Complete (s : State) : Out := runEvent s do
  require (s.boot.stage == some 2 && s.now ≤ stageBound s 2) "STAGE2_COMPLETE"
  .ok { setRegFld s .boot 0 31 28 3 with boot := { s.boot with stage := none } }

end Sys2Proof.Machine
end

