-- ==== Sys2Proof/Machine/Mailbox.lean ====
section
/-! DEFINITION. The management mailbox (R377, R379, R393, R428 to R437). -/

namespace Sys2Proof.Machine

open Sys2Proof

/-- Statuses of R436 beside those of R379. -/
def rStage : Nat := 8
def rBadKey : Nat := 9
def rStale : Nat := 0x0A

/-- Words of a list of bytes, the last filled with zeros. -/
def byteWords (bs : List Byte) : List Word := wordsOf ((bs.length + 3) / 4) (ofBytes bs)

/-- The payload of the record in the window holds words from offset 0x10 on (R435). -/
def holdsArgs (s : State) (args : List Nat) : Bool :=
  (args.zipIdx).all fun (x, i) => (reg s .mgt (0x1010 + 4 * i)).toNat == x

/-- A request that the doorbell has started, served whole: its status and response, MGT_MBSTAT, and the message signal (R435).
`need` is the STAGE it needs, `always` that it is served after start-up has stopped (R428, R436). `args` is the payload of the
record, as the model lays it out (notes/assumptions 103). -/
def mailbox (name : String) (op need : Nat) (always : Bool) (args : List Nat) (s : State) (k : State → Nat × List Word × State) :
    Out := runEvent s do
  require (regFld s .mgt 0x48 31 31 == 1 && regFld s .mgt 0x1000 7 0 == op && holdsArgs s args && s.boot.powered) name
  let (st, ws, s) := if bootStage s < need || (!always && bootError s != 0) then (rStage, [], s) else k s
  .ok (mgtReply s op st ws)

/-- STATUS (R436). -/
def execStatus (s : State) : Out := mailbox "STATUS" 1 0 true [] s fun s =>
  (rOk, [reg s .boot 0, reg s .mgt 0x10, reg s .clr 0, reg s .clr 4], s)

/-- The words of a 512-bit value, and of a number of 64 bits. -/
def words512 (x : BitVec 512) : List Nat := (wordsOf 16 x.toNat).map (·.toNat)
def words64 (x : Nat) : List Nat := [x % 2 ^ 32, x / 2 ^ 32]

/-- `n` bytes of a list, zeros where it is short. -/
def fitBytes (n : Nat) (bs : List Byte) : List Byte := (bs ++ List.replicate n 0).take n

/-- Bytes 0x0000 to 0x087F of an attestation report (R433). -/
def reportBody (s : State) (nonce : BitVec 512) (pair : Nat) : List Byte :=
  toBytes 4 0x54415841 ++ toBytes 4 0x00010000 ++ toBytes 4 6803 ++ toBytes 4 0 ++ bytes512 nonce ++
  toBytes 4 (reg s .boot 0).toNat ++ toBytes 4 (reg s .mgt 0x10).toNat ++ toBytes 8 (timebase s 12).toNat ++
  ((List.range 8).flatMap fun n => bytes512 (Tab.valD s.meas n 0)) ++ fitBytes 1568 (Config.kemPublic pair)

/-- ATTEST: a fresh key pair, and the signed report (R433, R434). -/
def execAttest (nonce : BitVec 512) (s : State) : Out := mailbox "ATTEST" 2 1 true (words512 nonce) s fun s =>
  let (pair, s) := s.fresh
  let body := reportBody s nonce pair
  let sig := fitBytes 4627 (Config.identitySign (Tab.valD s.meas 0 0) body)
  (rOk, byteWords (body ++ sig), { s with kemKey := some pair })

/-- GETCERT: the identity key and its certificate (R432). -/
def execGetcert (s : State) : Out := mailbox "GETCERT" 3 1 true [] s fun s =>
  let m := Tab.valD s.meas 0 0
  (rOk, byteWords (fitBytes 2592 (Config.identityKey m) ++ Config.certificate m), s)

/-- MEASURE: extends register 4 to 7 (R430). -/
def execMeasure (n : Nat) (digest : BitVec 512) (s : State) : Out := mailbox "MEASURE" 4 2 false (n :: words512 digest) s fun s =>
  if n < 4 || 7 < n then (rBadArg, [], s) else (rOk, [], extend s n digest)

/-- SVN_COMMIT: the fused version is raised to the running stage-1 version (R431). -/
def execSvnCommit (s : State) : Out := mailbox "SVN_COMMIT" 5 2 false [] s fun s =>
  let v := max s.svn s.boot.version
  (rOk, [], setRegFld { s with svn := v } .boot 0 15 8 v)

/-- The digest of the request record: of the window as it stands (R430, R435, notes/assumptions 103). -/
def recordDigest (s : State) : BitVec 512 :=
  Config.sha3 ((List.range 0x800).flatMap fun i => toBytes 4 (reg s .mgt (0x1000 + 4 * i)).toNat)

/-- STAGE2: the request record is measured, `digest` being its digest, and stage 2 begins (R428, R430). -/
def execStage2 (digest : BitVec 512) (s : State) : Out :=
  if digest != recordDigest s then .refused (.notEnabled "STAGE2")
  else mailbox "STAGE2" 0x10 2 false [] s fun s =>
    if bootStage s == 3 then (rBadArg, [], s)
    else if s.boot.stage == some 2 then (rBusy, [], s)
    else
      let s := extend s 3 digest
      (rOk, [], { s with boot := { s.boot with stage := some 2, asked := s.now } })

/-- Who holds something, against a glade that asks: nobody or itself, a glade that is leaving, or another. -/
def heldStatus (s : State) (g : Nat) (holder : Option Nat) : Nat := match holder with
  | none => rOk
  | some h => if leaving s h then rBusy else if h == g then rOk else rNotOwned

/-- The first status that is not success. -/
def firstBad (l : List Nat) : Nat := (l.find? (· != 0)).getD 0

/-- The glade a virtual function is bound to, if it is enabled; or one that waits for its teardown or is being cleared, which holds its
functions across a reset too (R393, R394). -/
def vfHolder (s : State) (n : Nat) : Option Nat := match vfGlade s n with
  | some g => some g
  | none => (s.glades.find? fun (g, x) => leaving s g && x.vfs.contains n).map (·.1)

/-- Another glade that has a key slot. -/
def slotHolder (s : State) (g slot : Nat) : Option Nat :=
  (Tab.keys s.glades).find? fun h => h != g && isProt s h && keySlotOf s h == slot

/-- GLADE_CONFIG: a FREE glade is configured from its frame values, and functions are bound; it is ACTIVE once GRANT gives it a core
(R32, R380, R395, R436). -/
def execGladeConfig (g : Nat) (vfs : List Nat) (s : State) : Out := mailbox "GLADE_CONFIG" 0x11 3 false (g :: vfs.length :: vfs) s fun s =>
  if 48 ≤ g || vfs.any fun n => decide (128 ≤ n) then (rBadArg, [], s)
  else if leaving s g then (rBusy, [], s)
  else if gladeState s g != 0 then (rBadArg, [], s)
  else
    let held := firstBad ((vfs.map fun n => match vfHolder s n with
      | none => rOk
      | some h => if leaving s h then rBusy else rNotOwned) ++
      (if isProt s g then [heldStatus s g (slotHolder s g (keySlotOf s g))] else []))
    if held != 0 then (held, [], s) else (rOk, [], formGlade s g vfs)

/-- The frames of HBM, and those of the Canopy heap, which lies in HBM at a free place (R27, R28, R377, notes/assumptions 90). -/
def frameCount : Nat := 12582912
def heapFrames : Nat := 49152
def heapStart : Nat := Config.heapFrame % (frameCount - heapFrames + 1)
def inHeap (first count : Nat) : Bool := first < heapStart + heapFrames && heapStart < first + count

/-- The holder of a core, and of a namespace number. -/
def coreHolder (s : State) (c : Nat) : Option Nat := gladeOf s c
def nsidHolder (s : State) (n : Nat) : Option Nat := (s.glades.find? fun (_, x) => x.nsids.contains n).map (·.1)

/-- A frame of a protected glade: what stood there unencrypted reads decrypted under the key of its slot (R392). -/
def unsealFrame (s : State) (slot n : Nat) : State := { s with mem := mapFrame (Config.unxts (Tab.valD s.keys slot 0)) s.mem n }

/-- Enters frames as a glade's. -/
def grantFrames (s : State) (g first count : Nat) : State :=
  let key := if isProt s g then some (keySlotOf s g) else none
  (range first count).foldl (fun s n =>
    let s := setFrame s n { valid := true, glade := g, key := key }
    match key with
    | some slot => unsealFrame s slot n
    | none => s) s

/-- The words that stand for a grant in a request's payload (notes/assumptions 103). -/
def grantWords (what : Grant) : List Nat := match what with
  | .core n => [0, n]
  | .frames first count => [1, first, count]
  | .hostRange pa len => 2 :: words64 pa ++ words64 len
  | .peerRange port pa len => 3 :: port :: words64 pa ++ words64 len
  | .namespaceNo n => [4, n]

/-- What a grant would answer, and its effect (R377, R393, R436). -/
def grantWhat (s : State) (g : Nat) (what : Grant) : Nat × State := match what with
  | .core c =>
    if !s.boot.cores.contains c then (rBadArg, s)
    else match coreHolder s c with
      | some h => (if leaving s h then rBusy else if h == g then rBadArg else rNotOwned, s)
      | none => if coreLeaves s c then (rBusy, s) else (rOk, joinCore s g c)
  | .frames first count =>
    if frameCount < first + count || inHeap first count then (rBadArg, s)
    else
      let st := firstBad ((range first count).map fun n =>
        let f := frameOf s n
        if f.valid then (if leaving s f.glade then rBusy else if f.glade == g then rBadArg else rNotOwned) else rOk)
      if st != 0 then (st, s) else (rOk, grantFrames s g first count)
  | .hostRange pa len => (rOk, s.updGlade g fun x => { x with hostRanges := (pa, len) :: x.hostRanges })
  | .peerRange port pa len =>
    if 12 ≤ port then (rBadArg, s) else (rOk, s.updGlade g fun x => { x with peerRanges := (port, pa, len) :: x.peerRanges })
  | .namespaceNo n =>
    if n == 0 || 65535 < n then (rBadArg, s)
    else match nsidHolder s n with
      | some h => (if leaving s h then rBusy else if h == g then rBadArg else rNotOwned, s)
      | none => (rOk, s.updGlade g fun x => { x with nsids := n :: x.nsids })

/-- GRANT (R377, R436). -/
def execGrant (g : Nat) (what : Grant) (s : State) : Out := mailbox "GRANT" 0x12 3 false (g :: grantWords what) s fun s =>
  if leaving s g then (rBusy, [], s)
  else if 48 ≤ g || !configured s g then (rBadArg, [], s)
  else
    let (st, s) := grantWhat s g what
    (st, [], s)

/-- TEARDOWN: the glade's teardown waits, and begins at once where no other is in progress (R393). -/
def execTeardown (g : Nat) (s : State) : Out := mailbox "TEARDOWN" 0x13 3 false [g] s fun s =>
  if leaving s g then (rBusy, [], s)
  else if 48 ≤ g || !configured s g then (rBadArg, [], s)
  else
    let s : State := setWaiting { s with clear := { s.clear with queue := s.clear.queue ++ [g] } }
    (rOk, [], if s.clear.queue == [g] then nextTeardown s else s)

/-- A key enters a slot: the frames under it read as the new key decrypts what the old one encrypted (R392). -/
def setKey (s : State) (slot : Nat) (key : BitVec 512) : State :=
  let old := Tab.valD s.keys slot 0
  let swap := fun (pa : Nat) (x : BitVec 1024) => Config.unxts key pa (Config.xts old pa x)
  let mem := (s.frames.filter fun (_, f) => f.valid && f.key == some slot).foldl (fun m (n, _) => mapFrame swap m n) s.mem
  { s with keys := Tab.put s.keys slot key, mem := mem }

/-- KEY_LOAD: a ciphertext of 1,568 bytes and a wrapped key of 72; the key is unwrapped into the glade's slot, and the decapsulation
key is destroyed. One made against another report's key finds no key held (R434, notes/assumptions 103). -/
def execKeyLoad (g : Nat) (ct wrapped : List Byte) (s : State) : Out :=
  if ct.length != 1568 || wrapped.length != 72 then .refused (.notEnabled "KEY_LOAD")
  else mailbox "KEY_LOAD" 0x14 3 false (g :: (byteWords (ct ++ wrapped)).map (·.toNat)) s fun s =>
    match s.kemKey with
    | none => (rStale, [], s)
    | some pair =>
      if !Config.kemAgainst pair ct then (rStale, [], s)
      else
        let s : State := { s with kemKey := none }
        match Config.keyUnwrap (Config.kemSecret pair ct) wrapped with
        | none => (rBadKey, [], s)
        | some key =>
          if !isProt s g || (slotHolder s g (keySlotOf s g)).isSome then (rBadArg, [], s)
          else (rOk, [], setKey s (keySlotOf s g) key)

/-- POWER_SET: LIMIT (0), or SHARE of glade `what` − 1 (R437). -/
def execPowerSet (what value : Nat) (s : State) : Out := mailbox "POWER_SET" 0x20 1 false [what, value] s fun s =>
  if what == 0 then
    if value < 1200 || 2400 < value then (rBadArg, [], s) else (rOk, [], setRegFld s .mgt 0x20 27 16 value)
  else
    let s' := setRegFld s (.gld (what - 1)) 0x38 7 0 value
    if 48 < what || 255 < value || 256 < shareSum s' then (rBadArg, [], s) else (rOk, [], s')

end Sys2Proof.Machine
end

