-- ==== Sys2Proof/Machine/Dispatch.lean ====
section
/-! DEFINITION. The meaning of each instruction and event, one arm each. -/

namespace Sys2Proof.Machine

open Sys2Proof

/-- One instruction of the issuing fragment, or one event. -/
def exec (i : Instr) (s : State) : Host.Outcome State Fault Refusal :=
  match i with
  | .vmovShort a0 a1 => Sys2Proof.Machine.execVmovShort a0 a1 s
  | .vaddI32Short a0 a1 => Sys2Proof.Machine.execVaddI32Short a0 a1 s
  | .vsubI32Short a0 a1 => Sys2Proof.Machine.execVsubI32Short a0 a1 s
  | .vmulI32Short a0 a1 => Sys2Proof.Machine.execVmulI32Short a0 a1 s
  | .vandShort a0 a1 => Sys2Proof.Machine.execVandShort a0 a1 s
  | .vorShort a0 a1 => Sys2Proof.Machine.execVorShort a0 a1 s
  | .vxorShort a0 a1 => Sys2Proof.Machine.execVxorShort a0 a1 s
  | .vandnShort a0 a1 => Sys2Proof.Machine.execVandnShort a0 a1 s
  | .vshlShort a0 a1 => Sys2Proof.Machine.execVshlShort a0 a1 s
  | .vshrShort a0 a1 => Sys2Proof.Machine.execVshrShort a0 a1 s
  | .vsraShort a0 a1 => Sys2Proof.Machine.execVsraShort a0 a1 s
  | .vaddF32Short a0 a1 => Sys2Proof.Machine.execVaddF32Short a0 a1 s
  | .vsubF32Short a0 a1 => Sys2Proof.Machine.execVsubF32Short a0 a1 s
  | .vmulF32Short a0 a1 => Sys2Proof.Machine.execVmulF32Short a0 a1 s
  | .vminF32Short a0 a1 => Sys2Proof.Machine.execVminF32Short a0 a1 s
  | .vmaxF32Short a0 a1 => Sys2Proof.Machine.execVmaxF32Short a0 a1 s
  | .sadd a0 a1 a2 => Sys2Proof.Machine.execSadd a0 a1 a2 s
  | .ssub a0 a1 a2 => Sys2Proof.Machine.execSsub a0 a1 a2 s
  | .smul a0 a1 a2 => Sys2Proof.Machine.execSmul a0 a1 a2 s
  | .smulh a0 a1 a2 => Sys2Proof.Machine.execSmulh a0 a1 a2 s
  | .smulhu a0 a1 a2 => Sys2Proof.Machine.execSmulhu a0 a1 a2 s
  | .sand a0 a1 a2 => Sys2Proof.Machine.execSand a0 a1 a2 s
  | .sor a0 a1 a2 => Sys2Proof.Machine.execSor a0 a1 a2 s
  | .sxor a0 a1 a2 => Sys2Proof.Machine.execSxor a0 a1 a2 s
  | .sandn a0 a1 a2 => Sys2Proof.Machine.execSandn a0 a1 a2 s
  | .sshl a0 a1 a2 => Sys2Proof.Machine.execSshl a0 a1 a2 s
  | .sshr a0 a1 a2 => Sys2Proof.Machine.execSshr a0 a1 a2 s
  | .ssra a0 a1 a2 => Sys2Proof.Machine.execSsra a0 a1 a2 s
  | .srot a0 a1 a2 => Sys2Proof.Machine.execSrot a0 a1 a2 s
  | .smin a0 a1 a2 => Sys2Proof.Machine.execSmin a0 a1 a2 s
  | .smax a0 a1 a2 => Sys2Proof.Machine.execSmax a0 a1 a2 s
  | .sminu a0 a1 a2 => Sys2Proof.Machine.execSminu a0 a1 a2 s
  | .smaxu a0 a1 a2 => Sys2Proof.Machine.execSmaxu a0 a1 a2 s
  | .scmpEq a0 a1 a2 => Sys2Proof.Machine.execScmpEq a0 a1 a2 s
  | .scmpNe a0 a1 a2 => Sys2Proof.Machine.execScmpNe a0 a1 a2 s
  | .scmpLt a0 a1 a2 => Sys2Proof.Machine.execScmpLt a0 a1 a2 s
  | .scmpLe a0 a1 a2 => Sys2Proof.Machine.execScmpLe a0 a1 a2 s
  | .scmpLtu a0 a1 a2 => Sys2Proof.Machine.execScmpLtu a0 a1 a2 s
  | .scmpLeu a0 a1 a2 => Sys2Proof.Machine.execScmpLeu a0 a1 a2 s
  | .ssel a0 a1 a2 => Sys2Proof.Machine.execSsel a0 a1 a2 s
  | .sbfe a0 a1 a2 => Sys2Proof.Machine.execSbfe a0 a1 a2 s
  | .sbfi a0 a1 a2 => Sys2Proof.Machine.execSbfi a0 a1 a2 s
  | .sadd64 a0 a1 a2 => Sys2Proof.Machine.execSadd64 a0 a1 a2 s
  | .ssub64 a0 a1 a2 => Sys2Proof.Machine.execSsub64 a0 a1 a2 s
  | .sshl64 a0 a1 a2 => Sys2Proof.Machine.execSshl64 a0 a1 a2 s
  | .sshr64 a0 a1 a2 => Sys2Proof.Machine.execSshr64 a0 a1 a2 s
  | .smul64 a0 a1 a2 => Sys2Proof.Machine.execSmul64 a0 a1 a2 s
  | .smov a0 a1 => Sys2Proof.Machine.execSmov a0 a1 s
  | .sabs a0 a1 => Sys2Proof.Machine.execSabs a0 a1 s
  | .spopc a0 a1 => Sys2Proof.Machine.execSpopc a0 a1 s
  | .sclz a0 a1 => Sys2Proof.Machine.execSclz a0 a1 s
  | .sctz a0 a1 => Sys2Proof.Machine.execSctz a0 a1 s
  | .sffs a0 a1 => Sys2Proof.Machine.execSffs a0 a1 s
  | .sfmt a0 => Sys2Proof.Machine.execSfmt a0 s
  | .sfmtr a0 => Sys2Proof.Machine.execSfmtr a0 s
  | .sflags a0 => Sys2Proof.Machine.execSflags a0 s
  | .smrd a0 => Sys2Proof.Machine.execSmrd a0 s
  | .smwr a0 => Sys2Proof.Machine.execSmwr a0 s
  | .sxset a0 a1 => Sys2Proof.Machine.execSxset a0 a1 s
  | .sxadd a0 a1 => Sys2Proof.Machine.execSxadd a0 a1 s
  | .sli a0 a1 a2 => Sys2Proof.Machine.execSli a0 a1 a2 s
  | .slih a0 a1 => Sys2Proof.Machine.execSlih a0 a1 s
  | .jmp a0 => Sys2Proof.Machine.execJmp a0 s
  | .call a0 => Sys2Proof.Machine.execCall a0 s
  | .rjset a0 => Sys2Proof.Machine.execRjset a0 s
  | .bz a0 a1 => Sys2Proof.Machine.execBz a0 a1 s
  | .bnz a0 a1 => Sys2Proof.Machine.execBnz a0 a1 s
  | .vbr a0 a1 => Sys2Proof.Machine.execVbr a0 a1 s
  | .vbrall a0 a1 => Sys2Proof.Machine.execVbrall a0 a1 s
  | .vbrany a0 a1 => Sys2Proof.Machine.execVbrany a0 a1 s
  | .nop => Sys2Proof.Machine.execNop s
  | .exit => Sys2Proof.Machine.execExit s
  | .yield => Sys2Proof.Machine.execYield s
  | .sleep a0 => Sys2Proof.Machine.execSleep a0 s
  | .jr a0 => Sys2Proof.Machine.execJr a0 s
  | .ret a0 => Sys2Proof.Machine.execRet a0 s
  | .trap a0 => Sys2Proof.Machine.execTrap a0 s
  | .rett => Sys2Proof.Machine.execRett s
  | .clock a0 => Sys2Proof.Machine.execClock a0 s
  | .sysrd a0 a1 => Sys2Proof.Machine.execSysrd a0 a1 s
  | .syswr a0 a1 => Sys2Proof.Machine.execSyswr a0 a1 s
  | .hidrd a0 a1 => Sys2Proof.Machine.execHidrd a0 a1 s
  | .hidwr a0 a1 => Sys2Proof.Machine.execHidwr a0 a1 s
  | .launch a0 a1 => Sys2Proof.Machine.execLaunch a0 a1 s
  | .pass a0 a1 => Sys2Proof.Machine.execPass a0 a1 s
  | .wmerge a0 a1 a2 => Sys2Proof.Machine.execWmerge a0 a1 a2 s
  | .sldW a0 a1 a2 a3 => Sys2Proof.Machine.execSldW a0 a1 a2 a3 s
  | .sldD a0 a1 a2 a3 => Sys2Proof.Machine.execSldD a0 a1 a2 a3 s
  | .sstW a0 a1 a2 a3 => Sys2Proof.Machine.execSstW a0 a1 a2 a3 s
  | .sstD a0 a1 a2 a3 => Sys2Proof.Machine.execSstD a0 a1 a2 a3 s
  | .satom a0 a1 a2 a3 => Sys2Proof.Machine.execSatom a0 a1 a2 a3 s
  | .wnull a0 => Sys2Proof.Machine.execWnull a0 s
  | .wcur a0 => Sys2Proof.Machine.execWcur a0 s
  | .wtest a0 a1 => Sys2Proof.Machine.execWtest a0 a1 s
  | .waitW a0 a1 => Sys2Proof.Machine.execWaitW a0 a1 s
  | .waitBar a0 a1 a2 => Sys2Proof.Machine.execWaitBar a0 a1 a2 s
  | .waitGbar a0 a1 a2 => Sys2Proof.Machine.execWaitGbar a0 a1 a2 s
  | .waitRing a0 a1 a2 => Sys2Proof.Machine.execWaitRing a0 a1 a2 s
  | .waitMon a0 a1 a2 => Sys2Proof.Machine.execWaitMon a0 a1 a2 s
  | .waitcnt a0 a1 => Sys2Proof.Machine.execWaitcnt a0 a1 s
  | .barinit a0 a1 => Sys2Proof.Machine.execBarinit a0 a1 s
  | .barrive a0 => Sys2Proof.Machine.execBarrive a0 s
  | .barexpect a0 a1 => Sys2Proof.Machine.execBarexpect a0 a1 s
  | .gbarrive a0 => Sys2Proof.Machine.execGbarrive a0 s
  | .ringinit a0 a1 => Sys2Proof.Machine.execRinginit a0 a1 s
  | .rrel a0 a1 => Sys2Proof.Machine.execRrel a0 a1 s
  | .tbar a0 a1 => Sys2Proof.Machine.execTbar a0 a1 s
  | .tredAdd a0 a1 a2 a3 a4 => Sys2Proof.Machine.execTredAdd a0 a1 a2 a3 a4 s
  | .tredMin a0 a1 a2 a3 a4 => Sys2Proof.Machine.execTredMin a0 a1 a2 a3 a4 s
  | .tredMax a0 a1 a2 a3 a4 => Sys2Proof.Machine.execTredMax a0 a1 a2 a3 a4 s
  | .tredAnd a0 a1 a2 a3 => Sys2Proof.Machine.execTredAnd a0 a1 a2 a3 s
  | .tredOr a0 a1 a2 a3 => Sys2Proof.Machine.execTredOr a0 a1 a2 a3 s
  | .tqinit a0 a1 => Sys2Proof.Machine.execTqinit a0 a1 s
  | .tqpush a0 a1 => Sys2Proof.Machine.execTqpush a0 a1 s
  | .tqpop a0 a1 a2 => Sys2Proof.Machine.execTqpop a0 a1 a2 s
  | .cinv a0 a1 => Sys2Proof.Machine.execCinv a0 a1 s
  | .cwb a0 a1 => Sys2Proof.Machine.execCwb a0 a1 s
  | .pref a0 a1 a2 => Sys2Proof.Machine.execPref a0 a1 a2 s
  | .wdesc a0 a1 => Sys2Proof.Machine.execWdesc a0 a1 s
  | .wload a0 => Sys2Proof.Machine.execWload a0 s
  | .wfree a0 => Sys2Proof.Machine.execWfree a0 s
  | .accst a0 a1 => Sys2Proof.Machine.execAccst a0 a1 s
  | .scabort a0 => Sys2Proof.Machine.execScabort a0 s
  | .scinval a0 a1 => Sys2Proof.Machine.execScinval a0 a1 s
  | .scframe a0 => Sys2Proof.Machine.execScframe a0 s
  | .scstat a0 a1 => Sys2Proof.Machine.execScstat a0 a1 s
  | .wpset a0 a1 => Sys2Proof.Machine.execWpset a0 a1 s
  | .wpget a0 a1 => Sys2Proof.Machine.execWpget a0 a1 s
  | .dhalt a0 => Sys2Proof.Machine.execDhalt a0 s
  | .dresume a0 => Sys2Proof.Machine.execDresume a0 s
  | .dstep a0 => Sys2Proof.Machine.execDstep a0 s
  | .dlist a0 a1 => Sys2Proof.Machine.execDlist a0 a1 s
  | .drdv a0 a1 => Sys2Proof.Machine.execDrdv a0 a1 s
  | .dwrv a0 a1 => Sys2Proof.Machine.execDwrv a0 a1 s
  | .drds a0 a1 => Sys2Proof.Machine.execDrds a0 a1 s
  | .dwrs a0 a1 => Sys2Proof.Machine.execDwrs a0 a1 s
  | .vli a0 a1 a2 => Sys2Proof.Machine.execVli a0 a1 a2 s
  | .trace a0 a1 a2 a3 => Sys2Proof.Machine.execTrace a0 a1 a2 a3 s
  | .vaddI32 a0 a1 a2 a3 a4 => Sys2Proof.Machine.execVaddI32 a0 a1 a2 a3 a4 s
  | .vsubI32 a0 a1 a2 a3 a4 => Sys2Proof.Machine.execVsubI32 a0 a1 a2 a3 a4 s
  | .vmulI32 a0 a1 a2 a3 a4 => Sys2Proof.Machine.execVmulI32 a0 a1 a2 a3 a4 s
  | .vmulhI32 a0 a1 a2 a3 a4 => Sys2Proof.Machine.execVmulhI32 a0 a1 a2 a3 a4 s
  | .vmulhUi32 a0 a1 a2 a3 a4 => Sys2Proof.Machine.execVmulhUi32 a0 a1 a2 a3 a4 s
  | .vmadI32 a0 a1 a2 a3 a4 => Sys2Proof.Machine.execVmadI32 a0 a1 a2 a3 a4 s
  | .vaddsatI32 a0 a1 a2 a3 a4 => Sys2Proof.Machine.execVaddsatI32 a0 a1 a2 a3 a4 s
  | .vaddsatUi32 a0 a1 a2 a3 a4 => Sys2Proof.Machine.execVaddsatUi32 a0 a1 a2 a3 a4 s
  | .vsubsatI32 a0 a1 a2 a3 a4 => Sys2Proof.Machine.execVsubsatI32 a0 a1 a2 a3 a4 s
  | .vsubsatUi32 a0 a1 a2 a3 a4 => Sys2Proof.Machine.execVsubsatUi32 a0 a1 a2 a3 a4 s
  | .vminI32 a0 a1 a2 a3 a4 => Sys2Proof.Machine.execVminI32 a0 a1 a2 a3 a4 s
  | .vminUi32 a0 a1 a2 a3 a4 => Sys2Proof.Machine.execVminUi32 a0 a1 a2 a3 a4 s
  | .vmaxI32 a0 a1 a2 a3 a4 => Sys2Proof.Machine.execVmaxI32 a0 a1 a2 a3 a4 s
  | .vmaxUi32 a0 a1 a2 a3 a4 => Sys2Proof.Machine.execVmaxUi32 a0 a1 a2 a3 a4 s
  | .vand a0 a1 a2 a3 a4 => Sys2Proof.Machine.execVand a0 a1 a2 a3 a4 s
  | .vor a0 a1 a2 a3 a4 => Sys2Proof.Machine.execVor a0 a1 a2 a3 a4 s
  | .vxor a0 a1 a2 a3 a4 => Sys2Proof.Machine.execVxor a0 a1 a2 a3 a4 s
  | .vandn a0 a1 a2 a3 a4 => Sys2Proof.Machine.execVandn a0 a1 a2 a3 a4 s
  | .vshl a0 a1 a2 a3 a4 => Sys2Proof.Machine.execVshl a0 a1 a2 a3 a4 s
  | .vrot a0 a1 a2 a3 a4 => Sys2Proof.Machine.execVrot a0 a1 a2 a3 a4 s
  | .vshr a0 a1 a2 a3 a4 => Sys2Proof.Machine.execVshr a0 a1 a2 a3 a4 s
  | .vsra a0 a1 a2 a3 a4 => Sys2Proof.Machine.execVsra a0 a1 a2 a3 a4 s
  | .vbfeUi32 a0 a1 a2 a3 a4 => Sys2Proof.Machine.execVbfeUi32 a0 a1 a2 a3 a4 s
  | .vbfeI32 a0 a1 a2 a3 a4 => Sys2Proof.Machine.execVbfeI32 a0 a1 a2 a3 a4 s
  | .vbfi a0 a1 a2 a3 a4 => Sys2Proof.Machine.execVbfi a0 a1 a2 a3 a4 s
  | .vaddF32 a0 a1 a2 a3 a4 => Sys2Proof.Machine.execVaddF32 a0 a1 a2 a3 a4 s
  | .vsubF32 a0 a1 a2 a3 a4 => Sys2Proof.Machine.execVsubF32 a0 a1 a2 a3 a4 s
  | .vaddF64 a0 a1 a2 a3 a4 => Sys2Proof.Machine.execVaddF64 a0 a1 a2 a3 a4 s
  | .vsubF64 a0 a1 a2 a3 a4 => Sys2Proof.Machine.execVsubF64 a0 a1 a2 a3 a4 s
  | .vmulF32 a0 a1 a2 a3 a4 => Sys2Proof.Machine.execVmulF32 a0 a1 a2 a3 a4 s
  | .vmulF64 a0 a1 a2 a3 a4 => Sys2Proof.Machine.execVmulF64 a0 a1 a2 a3 a4 s
  | .vfmaF32 a0 a1 a2 a3 a4 => Sys2Proof.Machine.execVfmaF32 a0 a1 a2 a3 a4 s
  | .vfmaF64 a0 a1 a2 a3 a4 => Sys2Proof.Machine.execVfmaF64 a0 a1 a2 a3 a4 s
  | .vminF32 a0 a1 a2 a3 a4 => Sys2Proof.Machine.execVminF32 a0 a1 a2 a3 a4 s
  | .vmaxF32 a0 a1 a2 a3 a4 => Sys2Proof.Machine.execVmaxF32 a0 a1 a2 a3 a4 s
  | .vdivF32 a0 a1 a2 a3 a4 => Sys2Proof.Machine.execVdivF32 a0 a1 a2 a3 a4 s
  | .vdivF64 a0 a1 a2 a3 a4 => Sys2Proof.Machine.execVdivF64 a0 a1 a2 a3 a4 s
  | .vaddF16x2 a0 a1 a2 a3 a4 => Sys2Proof.Machine.execVaddF16x2 a0 a1 a2 a3 a4 s
  | .vaddBf16x2 a0 a1 a2 a3 a4 => Sys2Proof.Machine.execVaddBf16x2 a0 a1 a2 a3 a4 s
  | .vmulF16x2 a0 a1 a2 a3 a4 => Sys2Proof.Machine.execVmulF16x2 a0 a1 a2 a3 a4 s
  | .vmulBf16x2 a0 a1 a2 a3 a4 => Sys2Proof.Machine.execVmulBf16x2 a0 a1 a2 a3 a4 s
  | .vfmaF16x2 a0 a1 a2 a3 a4 => Sys2Proof.Machine.execVfmaF16x2 a0 a1 a2 a3 a4 s
  | .vfmaBf16x2 a0 a1 a2 a3 a4 => Sys2Proof.Machine.execVfmaBf16x2 a0 a1 a2 a3 a4 s
  | .vminF16x2 a0 a1 a2 a3 a4 => Sys2Proof.Machine.execVminF16x2 a0 a1 a2 a3 a4 s
  | .vminBf16x2 a0 a1 a2 a3 a4 => Sys2Proof.Machine.execVminBf16x2 a0 a1 a2 a3 a4 s
  | .vmaxF16x2 a0 a1 a2 a3 a4 => Sys2Proof.Machine.execVmaxF16x2 a0 a1 a2 a3 a4 s
  | .vmaxBf16x2 a0 a1 a2 a3 a4 => Sys2Proof.Machine.execVmaxBf16x2 a0 a1 a2 a3 a4 s
  | .vcmpEqI32 a0 a1 a2 a3 a4 => Sys2Proof.Machine.execVcmpEqI32 a0 a1 a2 a3 a4 s
  | .vcmpNeI32 a0 a1 a2 a3 a4 => Sys2Proof.Machine.execVcmpNeI32 a0 a1 a2 a3 a4 s
  | .vcmpLtI32 a0 a1 a2 a3 a4 => Sys2Proof.Machine.execVcmpLtI32 a0 a1 a2 a3 a4 s
  | .vcmpLtUi32 a0 a1 a2 a3 a4 => Sys2Proof.Machine.execVcmpLtUi32 a0 a1 a2 a3 a4 s
  | .vcmpLeI32 a0 a1 a2 a3 a4 => Sys2Proof.Machine.execVcmpLeI32 a0 a1 a2 a3 a4 s
  | .vcmpLeUi32 a0 a1 a2 a3 a4 => Sys2Proof.Machine.execVcmpLeUi32 a0 a1 a2 a3 a4 s
  | .vcmpEqF32 a0 a1 a2 a3 a4 => Sys2Proof.Machine.execVcmpEqF32 a0 a1 a2 a3 a4 s
  | .vcmpEqF64 a0 a1 a2 a3 a4 => Sys2Proof.Machine.execVcmpEqF64 a0 a1 a2 a3 a4 s
  | .vcmpNeF32 a0 a1 a2 a3 a4 => Sys2Proof.Machine.execVcmpNeF32 a0 a1 a2 a3 a4 s
  | .vcmpNeF64 a0 a1 a2 a3 a4 => Sys2Proof.Machine.execVcmpNeF64 a0 a1 a2 a3 a4 s
  | .vcmpLtF32 a0 a1 a2 a3 a4 => Sys2Proof.Machine.execVcmpLtF32 a0 a1 a2 a3 a4 s
  | .vcmpLtF64 a0 a1 a2 a3 a4 => Sys2Proof.Machine.execVcmpLtF64 a0 a1 a2 a3 a4 s
  | .vcmpLeF32 a0 a1 a2 a3 a4 => Sys2Proof.Machine.execVcmpLeF32 a0 a1 a2 a3 a4 s
  | .vcmpLeF64 a0 a1 a2 a3 a4 => Sys2Proof.Machine.execVcmpLeF64 a0 a1 a2 a3 a4 s
  | .vdotI8x4 a0 a1 a2 a3 a4 => Sys2Proof.Machine.execVdotI8x4 a0 a1 a2 a3 a4 s
  | .vdotE4m3x4 a0 a1 a2 a3 a4 => Sys2Proof.Machine.execVdotE4m3x4 a0 a1 a2 a3 a4 s
  | .vdotBf16x2 a0 a1 a2 a3 a4 => Sys2Proof.Machine.execVdotBf16x2 a0 a1 a2 a3 a4 s
  | .vdotE2m1b a0 a1 a2 a3 a4 => Sys2Proof.Machine.execVdotE2m1b a0 a1 a2 a3 a4 s
  | .vmovs a0 a1 => Sys2Proof.Machine.execVmovs a0 a1 s
  | .vsel a0 a1 a2 a3 => Sys2Proof.Machine.execVsel a0 a1 a2 a3 s
  | .vlane a0 a1 a2 a3 => Sys2Proof.Machine.execVlane a0 a1 a2 a3 s
  | .vbcast a0 a1 a2 a3 => Sys2Proof.Machine.execVbcast a0 a1 a2 a3 s
  | .xbload a0 a1 => Sys2Proof.Machine.execXbload a0 a1 s
  | .vdec a0 a1 => Sys2Proof.Machine.execVdec a0 a1 s
  | .vshflXor a0 a1 a2 a3 => Sys2Proof.Machine.execVshflXor a0 a1 a2 a3 s
  | .vshflUp a0 a1 a2 a3 => Sys2Proof.Machine.execVshflUp a0 a1 a2 a3 s
  | .vshflDown a0 a1 a2 a3 => Sys2Proof.Machine.execVshflDown a0 a1 a2 a3 s
  | .vixVmov a0 a1 a2 a3 => Sys2Proof.Machine.execVixVmov a0 a1 a2 a3 s
  | .vixVabs a0 a1 a2 a3 => Sys2Proof.Machine.execVixVabs a0 a1 a2 a3 s
  | .vixVneg a0 a1 a2 a3 => Sys2Proof.Machine.execVixVneg a0 a1 a2 a3 s
  | .vixVnot a0 a1 a2 a3 => Sys2Proof.Machine.execVixVnot a0 a1 a2 a3 s
  | .vixVpopc a0 a1 a2 a3 => Sys2Proof.Machine.execVixVpopc a0 a1 a2 a3 s
  | .vixVclz a0 a1 a2 a3 => Sys2Proof.Machine.execVixVclz a0 a1 a2 a3 s
  | .vixVbrev a0 a1 a2 a3 => Sys2Proof.Machine.execVixVbrev a0 a1 a2 a3 s
  | .vixVadd a0 a1 a2 a3 => Sys2Proof.Machine.execVixVadd a0 a1 a2 a3 s
  | .vixVsub a0 a1 a2 a3 => Sys2Proof.Machine.execVixVsub a0 a1 a2 a3 s
  | .vixVmul a0 a1 a2 a3 => Sys2Proof.Machine.execVixVmul a0 a1 a2 a3 s
  | .vixVmulh a0 a1 a2 a3 => Sys2Proof.Machine.execVixVmulh a0 a1 a2 a3 s
  | .vixVaddsat a0 a1 a2 a3 => Sys2Proof.Machine.execVixVaddsat a0 a1 a2 a3 s
  | .vixVsubsat a0 a1 a2 a3 => Sys2Proof.Machine.execVixVsubsat a0 a1 a2 a3 s
  | .vixVmin a0 a1 a2 a3 => Sys2Proof.Machine.execVixVmin a0 a1 a2 a3 s
  | .vixVmax a0 a1 a2 a3 => Sys2Proof.Machine.execVixVmax a0 a1 a2 a3 s
  | .vixVshl a0 a1 a2 a3 => Sys2Proof.Machine.execVixVshl a0 a1 a2 a3 s
  | .vixVshr a0 a1 a2 a3 => Sys2Proof.Machine.execVixVshr a0 a1 a2 a3 s
  | .vixVsra a0 a1 a2 a3 => Sys2Proof.Machine.execVixVsra a0 a1 a2 a3 s
  | .vixVrot a0 a1 a2 a3 => Sys2Proof.Machine.execVixVrot a0 a1 a2 a3 s
  | .vfxVabs a0 a1 a2 a3 => Sys2Proof.Machine.execVfxVabs a0 a1 a2 a3 s
  | .vfxVneg a0 a1 a2 a3 => Sys2Proof.Machine.execVfxVneg a0 a1 a2 a3 s
  | .vfxVrnd a0 a1 a2 a3 => Sys2Proof.Machine.execVfxVrnd a0 a1 a2 a3 s
  | .vfxVfrac a0 a1 a2 a3 => Sys2Proof.Machine.execVfxVfrac a0 a1 a2 a3 s
  | .vfxVclass a0 a1 a2 a3 => Sys2Proof.Machine.execVfxVclass a0 a1 a2 a3 s
  | .vfxVsqrt a0 a1 a2 a3 => Sys2Proof.Machine.execVfxVsqrt a0 a1 a2 a3 s
  | .vfxVrcp a0 a1 a2 a3 => Sys2Proof.Machine.execVfxVrcp a0 a1 a2 a3 s
  | .vfxVrsq a0 a1 a2 a3 => Sys2Proof.Machine.execVfxVrsq a0 a1 a2 a3 s
  | .vfxVexp2 a0 a1 a2 a3 => Sys2Proof.Machine.execVfxVexp2 a0 a1 a2 a3 s
  | .vfxVlog2 a0 a1 a2 a3 => Sys2Proof.Machine.execVfxVlog2 a0 a1 a2 a3 s
  | .vfxVsin a0 a1 a2 a3 => Sys2Proof.Machine.execVfxVsin a0 a1 a2 a3 s
  | .vfxVcos a0 a1 a2 a3 => Sys2Proof.Machine.execVfxVcos a0 a1 a2 a3 s
  | .vfxVtanh a0 a1 a2 a3 => Sys2Proof.Machine.execVfxVtanh a0 a1 a2 a3 s
  | .vcvtFloatFromFloat a0 a1 a2 a3 a4 => Sys2Proof.Machine.execVcvtFloatFromFloat a0 a1 a2 a3 a4 s
  | .vcvtFloatFromInteger a0 a1 a2 a3 a4 => Sys2Proof.Machine.execVcvtFloatFromInteger a0 a1 a2 a3 a4 s
  | .vcvtIntegerFromFloat a0 a1 a2 a3 a4 => Sys2Proof.Machine.execVcvtIntegerFromFloat a0 a1 a2 a3 a4 s
  | .vcvtIntegerFromInteger a0 a1 a2 a3 a4 => Sys2Proof.Machine.execVcvtIntegerFromInteger a0 a1 a2 a3 a4 s
  | .vpack a0 a1 a2 a3 a4 => Sys2Proof.Machine.execVpack a0 a1 a2 a3 a4 s
  | .vunpack a0 a1 a2 a3 a4 => Sys2Proof.Machine.execVunpack a0 a1 a2 a3 a4 s
  | .vscan a0 a1 a2 a3 a4 a5 => Sys2Proof.Machine.execVscan a0 a1 a2 a3 a4 a5 s
  | .vredAdd a0 a1 a2 a3 => Sys2Proof.Machine.execVredAdd a0 a1 a2 a3 s
  | .vredMin a0 a1 a2 a3 => Sys2Proof.Machine.execVredMin a0 a1 a2 a3 s
  | .vredMax a0 a1 a2 a3 => Sys2Proof.Machine.execVredMax a0 a1 a2 a3 s
  | .vredAnd a0 a1 a2 => Sys2Proof.Machine.execVredAnd a0 a1 a2 s
  | .vredOr a0 a1 a2 => Sys2Proof.Machine.execVredOr a0 a1 a2 s
  | .vballot a0 a1 a2 => Sys2Proof.Machine.execVballot a0 a1 a2 s
  | .vmatch a0 a1 a2 => Sys2Proof.Machine.execVmatch a0 a1 a2 s
  | .vcompact a0 a1 a2 => Sys2Proof.Machine.execVcompact a0 a1 a2 s
  | .vshflIdx a0 a1 a2 => Sys2Proof.Machine.execVshflIdx a0 a1 a2 s
  | .vxbar a0 a1 a2 a3 a4 => Sys2Proof.Machine.execVxbar a0 a1 a2 a3 a4 s
  | .vldB a0 a1 a2 a3 a4 => Sys2Proof.Machine.execVldB a0 a1 a2 a3 a4 s
  | .vldsB a0 a1 a2 a3 a4 => Sys2Proof.Machine.execVldsB a0 a1 a2 a3 a4 s
  | .vldH a0 a1 a2 a3 a4 => Sys2Proof.Machine.execVldH a0 a1 a2 a3 a4 s
  | .vldsH a0 a1 a2 a3 a4 => Sys2Proof.Machine.execVldsH a0 a1 a2 a3 a4 s
  | .vldW a0 a1 a2 a3 a4 => Sys2Proof.Machine.execVldW a0 a1 a2 a3 a4 s
  | .vldsW a0 a1 a2 a3 a4 => Sys2Proof.Machine.execVldsW a0 a1 a2 a3 a4 s
  | .vldD a0 a1 a2 a3 a4 => Sys2Proof.Machine.execVldD a0 a1 a2 a3 a4 s
  | .vldsD a0 a1 a2 a3 a4 => Sys2Proof.Machine.execVldsD a0 a1 a2 a3 a4 s
  | .vldQ a0 a1 a2 a3 a4 => Sys2Proof.Machine.execVldQ a0 a1 a2 a3 a4 s
  | .vldsQ a0 a1 a2 a3 a4 => Sys2Proof.Machine.execVldsQ a0 a1 a2 a3 a4 s
  | .vstB a0 a1 a2 a3 a4 => Sys2Proof.Machine.execVstB a0 a1 a2 a3 a4 s
  | .vstsB a0 a1 a2 a3 a4 => Sys2Proof.Machine.execVstsB a0 a1 a2 a3 a4 s
  | .vstH a0 a1 a2 a3 a4 => Sys2Proof.Machine.execVstH a0 a1 a2 a3 a4 s
  | .vstsH a0 a1 a2 a3 a4 => Sys2Proof.Machine.execVstsH a0 a1 a2 a3 a4 s
  | .vstW a0 a1 a2 a3 a4 => Sys2Proof.Machine.execVstW a0 a1 a2 a3 a4 s
  | .vstsW a0 a1 a2 a3 a4 => Sys2Proof.Machine.execVstsW a0 a1 a2 a3 a4 s
  | .vstD a0 a1 a2 a3 a4 => Sys2Proof.Machine.execVstD a0 a1 a2 a3 a4 s
  | .vstsD a0 a1 a2 a3 a4 => Sys2Proof.Machine.execVstsD a0 a1 a2 a3 a4 s
  | .vstQ a0 a1 a2 a3 a4 => Sys2Proof.Machine.execVstQ a0 a1 a2 a3 a4 s
  | .vstsQ a0 a1 a2 a3 a4 => Sys2Proof.Machine.execVstsQ a0 a1 a2 a3 a4 s
  | .vatom a0 a1 a2 a3 a4 => Sys2Proof.Machine.execVatom a0 a1 a2 a3 a4 s
  | .vatomRtn a0 a1 a2 a3 a4 => Sys2Proof.Machine.execVatomRtn a0 a1 a2 a3 a4 s
  | .vcopy4G2s a0 a1 a2 a3 a4 => Sys2Proof.Machine.execVcopy4G2s a0 a1 a2 a3 a4 s
  | .vcopy8G2s a0 a1 a2 a3 a4 => Sys2Proof.Machine.execVcopy8G2s a0 a1 a2 a3 a4 s
  | .vcopy16G2s a0 a1 a2 a3 a4 => Sys2Proof.Machine.execVcopy16G2s a0 a1 a2 a3 a4 s
  | .vcopy4S2g a0 a1 a2 a3 a4 => Sys2Proof.Machine.execVcopy4S2g a0 a1 a2 a3 a4 s
  | .vcopy8S2g a0 a1 a2 a3 a4 => Sys2Proof.Machine.execVcopy8S2g a0 a1 a2 a3 a4 s
  | .vcopy16S2g a0 a1 a2 a3 a4 => Sys2Proof.Machine.execVcopy16S2g a0 a1 a2 a3 a4 s
  | .vcopy4G2g a0 a1 a2 a3 a4 => Sys2Proof.Machine.execVcopy4G2g a0 a1 a2 a3 a4 s
  | .vcopy8G2g a0 a1 a2 a3 a4 => Sys2Proof.Machine.execVcopy8G2g a0 a1 a2 a3 a4 s
  | .vcopy16G2g a0 a1 a2 a3 a4 => Sys2Proof.Machine.execVcopy16G2g a0 a1 a2 a3 a4 s
  | .mma a0 a1 a2 a3 => Sys2Proof.Machine.execMma a0 a1 a2 a3 s
  | .mmaClr a0 a1 a2 a3 => Sys2Proof.Machine.execMmaClr a0 a1 a2 a3 s
  | .accrd a0 a1 => Sys2Proof.Machine.execAccrd a0 a1 s
  | .accwr a0 a1 a2 => Sys2Proof.Machine.execAccwr a0 a1 a2 s
  | .accclr a0 => Sys2Proof.Machine.execAccclr a0 s
  | .sclook a0 a1 a2 a3 => Sys2Proof.Machine.execSclook a0 a1 a2 a3 s
  | .scfill a0 a1 a2 a3 => Sys2Proof.Machine.execScfill a0 a1 a2 a3 s
  | .primemit a0 a1 => Sys2Proof.Machine.execPrimemit a0 a1 s
  | .meshend => Sys2Proof.Machine.execMeshend s
  | .rsget a0 => Sys2Proof.Machine.execRsget a0 s
  | .rtwrite a0 a1 a2 => Sys2Proof.Machine.execRtwrite a0 a1 a2 s
  | .rtread a0 a1 => Sys2Proof.Machine.execRtread a0 a1 s
  | .hitrd a0 a1 a2 => Sys2Proof.Machine.execHitrd a0 a1 a2 s
  | .hdoneSave a0 => Sys2Proof.Machine.execHdoneSave a0 s
  | .hdoneRestore a0 => Sys2Proof.Machine.execHdoneRestore a0 s
  | .hdoneStep a0 => Sys2Proof.Machine.execHdoneStep a0 s
  | .descriptorCheck a0 => Sys2Proof.Machine.execDescriptorCheck a0 s
  | .entryDependenceSatisfied a0 => Sys2Proof.Machine.execEntryDependenceSatisfied a0 s
  | .blockPlacement a0 => Sys2Proof.Machine.execBlockPlacement a0 s
  | .pendingTimeout a0 => Sys2Proof.Machine.execPendingTimeout a0 s
  | .blockDone a0 => Sys2Proof.Machine.execBlockDone a0 s
  | .completionRecordWrite a0 => Sys2Proof.Machine.execCompletionRecordWrite a0 s
  | .loadPerform a0 => Sys2Proof.Machine.execLoadPerform a0 s
  | .storePerform a0 => Sys2Proof.Machine.execStorePerform a0 s
  | .storeLand a0 a1 a2 => Sys2Proof.Machine.execStoreLand a0 a1 a2 s
  | .atomicExecute a0 => Sys2Proof.Machine.execAtomicExecute a0 s
  | .l1DeadlineWriteBack a0 a1 a2 => Sys2Proof.Machine.execL1DeadlineWriteBack a0 a1 a2 s
  | .l1LineExpiry a0 a1 a2 => Sys2Proof.Machine.execL1LineExpiry a0 a1 a2 s
  | .icacheLineExpiry a0 a1 a2 => Sys2Proof.Machine.execIcacheLineExpiry a0 a1 a2 s
  | .landingProbe a0 => Sys2Proof.Machine.execLandingProbe a0 s
  | .landingProbeAnswer a0 => Sys2Proof.Machine.execLandingProbeAnswer a0 s
  | .writeBackDemand a0 a1 => Sys2Proof.Machine.execWriteBackDemand a0 a1 s
  | .epochAdvance a0 a1 => Sys2Proof.Machine.execEpochAdvance a0 a1 s
  | .completedEpochPublish a0 a1 => Sys2Proof.Machine.execCompletedEpochPublish a0 a1 s
  | .waitTimeout a0 a1 => Sys2Proof.Machine.execWaitTimeout a0 a1 s
  | .monitorReread a0 a1 => Sys2Proof.Machine.execMonitorReread a0 a1 s
  | .sleepEnd a0 a1 => Sys2Proof.Machine.execSleepEnd a0 a1 s
  | .barriveApply a0 => Sys2Proof.Machine.execBarriveApply a0 s
  | .gbarriveApply a0 => Sys2Proof.Machine.execGbarriveApply a0 s
  | .copyLand a0 => Sys2Proof.Machine.execCopyLand a0 s
  | .tqRequestArrival a0 => Sys2Proof.Machine.execTqRequestArrival a0 s
  | .tqPushLanded a0 => Sys2Proof.Machine.execTqPushLanded a0 s
  | .tqPopDeliver a0 => Sys2Proof.Machine.execTqPopDeliver a0 s
  | .tbarRelease a0 a1 => Sys2Proof.Machine.execTbarRelease a0 a1 s
  | .tredRelease a0 a1 => Sys2Proof.Machine.execTredRelease a0 a1 s
  | .vdecComplete a0 => Sys2Proof.Machine.execVdecComplete a0 s
  | .traceComplete a0 => Sys2Proof.Machine.execTraceComplete a0 s
  | .accumulatorOpComplete a0 => Sys2Proof.Machine.execAccumulatorOpComplete a0 s
  | .fusionWindowExpiry a0 a1 => Sys2Proof.Machine.execFusionWindowExpiry a0 a1 s
  | .matrixPassStart a0 a1 => Sys2Proof.Machine.execMatrixPassStart a0 a1 s
  | .matrixPassEnd a0 a1 => Sys2Proof.Machine.execMatrixPassEnd a0 a1 s
  | .accumulatorTileWrite a0 a1 => Sys2Proof.Machine.execAccumulatorTileWrite a0 a1 s
  | .wloadFill a0 => Sys2Proof.Machine.execWloadFill a0 s
  | .slotFree a0 a1 a2 => Sys2Proof.Machine.execSlotFree a0 a1 a2 s
  | .canopyLookup a0 => Sys2Proof.Machine.execCanopyLookup a0 s
  | .canopyFill a0 => Sys2Proof.Machine.execCanopyFill a0 s
  | .canopyAbort a0 => Sys2Proof.Machine.execCanopyAbort a0 s
  | .sweepPoint a0 => Sys2Proof.Machine.execSweepPoint a0 s
  | .sweepWalk a0 => Sys2Proof.Machine.execSweepWalk a0 s
  | .frameAdvance a0 => Sys2Proof.Machine.execFrameAdvance a0 s
  | .canopyTimerExpiry a0 => Sys2Proof.Machine.execCanopyTimerExpiry a0 s
  | .notifyWordAdvance a0 a1 => Sys2Proof.Machine.execNotifyWordAdvance a0 a1 s
  | .passDescriptorCheck a0 => Sys2Proof.Machine.execPassDescriptorCheck a0 s
  | .meshDispatch a0 => Sys2Proof.Machine.execMeshDispatch a0 s
  | .meshStageClose a0 => Sys2Proof.Machine.execMeshStageClose a0 s
  | .binnerAccept a0 => Sys2Proof.Machine.execBinnerAccept a0 s
  | .flushRoundEnd a0 => Sys2Proof.Machine.execFlushRoundEnd a0 s
  | .tileRasterise a0 a1 => Sys2Proof.Machine.execTileRasterise a0 a1 s
  | .tileRasterEnd a0 a1 => Sys2Proof.Machine.execTileRasterEnd a0 a1 s
  | .tileRelease a0 a1 => Sys2Proof.Machine.execTileRelease a0 a1 s
  | .tileWritesLanded a0 a1 => Sys2Proof.Machine.execTileWritesLanded a0 a1 s
  | .passStatusWrite a0 => Sys2Proof.Machine.execPassStatusWrite a0 s
  | .quiesceCancelTimeout a0 => Sys2Proof.Machine.execQuiesceCancelTimeout a0 s
  | .cancelAnswer a0 a1 => Sys2Proof.Machine.execCancelAnswer a0 a1 s
  | .preemptDelivery a0 => Sys2Proof.Machine.execPreemptDelivery a0 s
  | .saveBudgetExpiry a0 => Sys2Proof.Machine.execSaveBudgetExpiry a0 s
  | .blockSaved a0 => Sys2Proof.Machine.execBlockSaved a0 s
  | .stepDelivery a0 => Sys2Proof.Machine.execStepDelivery a0 s
  | .haltBroadcast a0 => Sys2Proof.Machine.execHaltBroadcast a0 s
  | .watchdogWindow a0 a1 => Sys2Proof.Machine.execWatchdogWindow a0 a1 s
  | .contextFaultDrainExpiry a0 a1 => Sys2Proof.Machine.execContextFaultDrainExpiry a0 a1 s
  | .cowResolved a0 a1 a2 => Sys2Proof.Machine.execCowResolved a0 a1 a2 s
  | .sample a0 a1 => Sys2Proof.Machine.execSample a0 a1 s
  | .droopEventStart a0 a1 => Sys2Proof.Machine.execDroopEventStart a0 a1 s
  | .droopEventEnd a0 a1 => Sys2Proof.Machine.execDroopEventEnd a0 a1 s
  | .temperatureSample a0 a1 => Sys2Proof.Machine.execTemperatureSample a0 a1 s
  | .skewMeasure a0 a1 a2 => Sys2Proof.Machine.execSkewMeasure a0 a1 a2 s
  | .replayPassEnd a0 => Sys2Proof.Machine.execReplayPassEnd a0 s
  | .powerWindow a0 a1 => Sys2Proof.Machine.execPowerWindow a0 a1 s
  | .thermalStep a0 => Sys2Proof.Machine.execThermalStep a0 s
  | .thermalTrip a0 => Sys2Proof.Machine.execThermalTrip a0 s
  | .bandwidthWindow a0 => Sys2Proof.Machine.execBandwidthWindow a0 s
  | .dedupCompare a0 a1 a2 a3 a4 => Sys2Proof.Machine.execDedupCompare a0 a1 a2 a3 a4 s
  | .correctableError a0 a1 => Sys2Proof.Machine.execCorrectableError a0 a1 s
  | .uncorrectableError a0 a1 a2 => Sys2Proof.Machine.execUncorrectableError a0 a1 a2 s
  | .errorPeriodEnd a0 => Sys2Proof.Machine.execErrorPeriodEnd a0 s
  | .windthrow a0 => Sys2Proof.Machine.execWindthrow a0 s
  | .windthrowStepDone => Sys2Proof.Machine.execWindthrowStepDone s
  | .bucketMove => Sys2Proof.Machine.execBucketMove s
  | .rowSparing a0 => Sys2Proof.Machine.execRowSparing a0 s
  | .coreRemoval a0 => Sys2Proof.Machine.execCoreRemoval a0 s
  | .wayDrainSliceDone a0 a1 => Sys2Proof.Machine.execWayDrainSliceDone a0 a1 s
  | .clearingUnitDone => Sys2Proof.Machine.execClearingUnitDone s
  | .translationChangeComplete a0 => Sys2Proof.Machine.execTranslationChangeComplete a0 s
  | .ctxCloseComplete a0 => Sys2Proof.Machine.execCtxCloseComplete a0 s
  | .pyuraPortDown a0 => Sys2Proof.Machine.execPyuraPortDown a0 s
  | .pyuraPortUp a0 => Sys2Proof.Machine.execPyuraPortUp a0 s
  | .hostStore a0 a1 => Sys2Proof.Machine.execHostStore a0 a1 s
  | .peerRequest a0 a1 a2 => Sys2Proof.Machine.execPeerRequest a0 a1 a2 s
  | .powerOnReset => Sys2Proof.Machine.execPowerOnReset s
  | .deviceReset => Sys2Proof.Machine.execDeviceReset s
  | .warmReset => Sys2Proof.Machine.execWarmReset s
  | .standbyPowerLoss => Sys2Proof.Machine.execStandbyPowerLoss s
  | .stage0Complete a0 a1 => Sys2Proof.Machine.execStage0Complete a0 a1 s
  | .stage1Complete a0 a1 a2 a3 => Sys2Proof.Machine.execStage1Complete a0 a1 a2 a3 s
  | .stage2Complete => Sys2Proof.Machine.execStage2Complete s
  | .startupBoundMissed => Sys2Proof.Machine.execStartupBoundMissed s
  | .registerWrite a0 a1 a2 => Sys2Proof.Machine.execRegisterWrite a0 a1 a2 s
  | .l2waysWrite a0 a1 => Sys2Proof.Machine.execL2waysWrite a0 a1 s
  | .namespaceCreate a0 a1 => Sys2Proof.Machine.execNamespaceCreate a0 a1 s
  | .namespaceDelete a0 a1 => Sys2Proof.Machine.execNamespaceDelete a0 a1 s
  | .histogramClear a0 a1 => Sys2Proof.Machine.execHistogramClear a0 a1 s
  | .status => Sys2Proof.Machine.execStatus s
  | .attest a0 => Sys2Proof.Machine.execAttest a0 s
  | .getcert => Sys2Proof.Machine.execGetcert s
  | .measure a0 a1 => Sys2Proof.Machine.execMeasure a0 a1 s
  | .svnCommit => Sys2Proof.Machine.execSvnCommit s
  | .stage2 a0 => Sys2Proof.Machine.execStage2 a0 s
  | .gladeConfig a0 a1 => Sys2Proof.Machine.execGladeConfig a0 a1 s
  | .grant a0 a1 => Sys2Proof.Machine.execGrant a0 a1 s
  | .teardown a0 => Sys2Proof.Machine.execTeardown a0 s
  | .keyLoad a0 a1 a2 => Sys2Proof.Machine.execKeyLoad a0 a1 a2 s
  | .powerSet a0 a1 => Sys2Proof.Machine.execPowerSet a0 a1 s
  | .map a0 a1 a2 a3 => Sys2Proof.Machine.execMap a0 a1 a2 a3 s
  | .unmap a0 a1 a2 a3 => Sys2Proof.Machine.execUnmap a0 a1 a2 a3 s
  | .protect a0 a1 a2 a3 a4 => Sys2Proof.Machine.execProtect a0 a1 a2 a3 a4 s
  | .ctxOpen a0 a1 a2 => Sys2Proof.Machine.execCtxOpen a0 a1 a2 s
  | .ctxClose a0 a1 => Sys2Proof.Machine.execCtxClose a0 a1 s
  | .preempt a0 a1 => Sys2Proof.Machine.execPreempt a0 a1 s
  | .withdraw a0 a1 => Sys2Proof.Machine.execWithdraw a0 a1 s
  | .resolve a0 a1 => Sys2Proof.Machine.execResolve a0 a1 s
  | .fail a0 a1 a2 => Sys2Proof.Machine.execFail a0 a1 a2 s
  | .ccRestart a0 a1 => Sys2Proof.Machine.execCcRestart a0 a1 s
  | .dump a0 a1 a2 a3 => Sys2Proof.Machine.execDump a0 a1 a2 a3 s
  | .instructionFetch a0 a1 => Sys2Proof.Machine.execInstructionFetch a0 a1 s
  | .tlbWalkDone a0 a1 a2 => Sys2Proof.Machine.execTlbWalkDone a0 a1 a2 s
  | .unitXlateResolved a0 => Sys2Proof.Machine.execUnitXlateResolved a0 s
  | .hostRead a0 a1 => Sys2Proof.Machine.execHostRead a0 a1 s
  | .startupCheckFailed a0 a1 a2 => Sys2Proof.Machine.execStartupCheckFailed a0 a1 a2 s
  | .spreadWriteDone a0 a1 => Sys2Proof.Machine.execSpreadWriteDone a0 a1 s
  | .rolcylinkDown => Sys2Proof.Machine.execRolcylinkDown s
  | .rolcylinkUp => Sys2Proof.Machine.execRolcylinkUp s

end Sys2Proof.Machine
end

