-- ==== Sys2Proof/Machine/Step.lean ====
section
/-! DEFINITION. One step of the device: the next turn of the agenda, or one service of the current fragment; selection
of the issuing fragment (R60); and how a word is placed to be fetched. -/

namespace Sys2Proof.Machine

open Sys2Proof

/-- An outcome with what the device notes of the step (R421 to R426). -/
def noted (i : Instr) (s : State) (o : Out) : Out := match o with
  | .next s' => .next (observe i s s')
  | .fault f => .fault f
  | .refused r => .refused r

/-- A trap taken before any unit is known, noted as an event about no operation. -/
noncomputable def fetchTrap (s : State) (wid eid cause addr : Nat) : Out :=
  noted (.pendingTimeout 0) s (.next (takeTrap s wid eid cause 0 addr aFetch))

/-- Serves a fragment: it issues its next unit, or does not, with a reason (R59, R105, R123). A control core fetches only while
context 0 of its glade is open (R439). A WATCH that waits for the fragment comes before its next unit (R408). The unit is read from the instruction cache as it stands now: the model never issues a
unit as it was fetched before an invalidation, which R442 leaves open (notes/assumptions 115). -/
noncomputable def serve (wid eid : Nat) (s : State) : Out := match s.wave? wid with
  | none => .fault .lostFragment
  | some w => match w.frag? eid with
    | none => .fault .lostFragment
    | some f =>
      let s := s.updFrag wid eid fun f => { f with stall := .issued, served := coreClk s (w.coreNo wid) }
      match blocked s w f, (if f.decoding then none else f.watchDue) with
      | some why, _ => .next (s.updFrag wid eid fun f => { f with stall := why })
      | none, some (a, trig) => .next (takeWatch s wid eid a trig)
      | none, none =>
        if 2 ^ 52 ≤ f.pc.toNat then fetchTrap s wid eid addrNoncanon f.pc.toNat
        else if w.control && ctxState s w.glade 0 != 1 then fetchTrap s wid eid perm f.pc.toNat
        else match fetchUnit unitLen (liveLines s (w.coreNo wid)) w.glade w.fetchCtx f.pc.toNat with
          | .error _ => .next (s.updFrag wid eid fun f => { f with stall := .icacheMiss })
          | .ok bs => match decodeUnit bs with
            | .error _ => fetchTrap s wid eid illegalOp 0
            | .ok (i, _) => noted i { s with cur := some (wid, eid) } (exec i { s with cur := some (wid, eid) })

/-- Translations that a core waits for. -/
def walksOf (s : State) (wid : Nat) : Nat := (s.coreSt ((s.waveD wid).coreNo wid)).walks.length

/-- The fragment would issue if served: its unit completes or traps, issues and then holds the fragment, or starts a walk
(R59, R250). -/
noncomputable def wouldIssue (wid eid : Nat) (s : State) : Bool := match serve wid eid s with
  | .next s' => match s'.frag? wid eid with
    | some f => f.stall == .issued || (f.held.isSome && (s.frag? wid eid).any fun g => g.held.isNone) || walksOf s wid < walksOf s' wid
    | none => true
  | _ => false

/-- Ready fragments of a quadrant: wave, entry, class, fragment; in age order (R60). -/
noncomputable def readyFrags (s : State) (core quad : Nat) : List (Nat × Nat × Nat × Frag) :=
  ((s.waves.filter fun (_, w) => !w.control && w.core == core && w.quad == quad).mergeSort fun a b => a.2.born ≤ b.2.born).flatMap
    fun (k, w) =>
    ((w.frags.mergeSort fun a b => lowLane a.2.memb ≤ lowLane b.2.memb).filter fun (e, _) => wouldIssue k e s).map
      fun (e, f) => (k, e, issueClass s w, f)

/-- The choice of R60 among ready fragments; one that has yielded issues only where no other is ready (R151, notes/assumptions 153). -/
def choose (starve : Tab Nat) (quad : Nat) (rs : List (Nat × Nat × Nat × Frag)) : Option (Nat × Nat × Nat × Frag) :=
  let rs := if rs.length ≤ 1 then rs else rs.filter fun r => r.2.2.2.yieldLeft == 0
  let top := (rs.map fun r => r.2.2.1).foldl max 0
  let starving := (List.range top).find? fun c => 64 ≤ Tab.valD starve (8 * quad + c) 0 && rs.any fun r => r.2.2.1 == c
  match starving with
  | some c => rs.find? fun r => r.2.2.1 == c
  | none =>
    let cs := rs.filter fun r => r.2.2.1 == top
    match (cs.filter fun r => r.2.2.2.overdue.isSome).mergeSort fun a b => a.2.2.2.overdue.getD 0 ≤ b.2.2.2.overdue.getD 0 with
    | r :: _ => some r
    | [] => cs.head?

/-- An opportunity of a quadrant passes for its fragments that have yielded (R151). -/
def countYield (core quad : Nat) (s : State) : State :=
  { s with waves := Tab.mapV s.waves fun _ w =>
      if !w.control && w.core == core && w.quad == quad then w.mapFrags fun f => { f with yieldLeft := f.yieldLeft - 1 } else w }

/-- How many opportunities in a row each class has had a ready fragment without issuing, after one in which class `won`, if any,
issued (R60, notes/assumptions 136). -/
def countStarve (s : State) (core quad : Nat) (rs : List (Nat × Nat × Nat × Frag)) (won : Option Nat) : State :=
  let bump := fun (t : Tab Nat) (c : Nat) =>
    let n := if some c == won || !(rs.any fun r => r.2.2.1 == c) then 0 else Tab.valD t (8 * quad + c) 0 + 1
    Tab.putD t (8 * quad + c) n 0
  s.updCore core fun x => { x with starve := (List.range 5).foldl bump x.starve }

/-- Waiting counts after an opportunity in which class `c` issued fragment (`wid`, `eid`); fragments that become overdue are
numbered in that order. A fragment keeps its count while it is not ready (R60, notes/assumptions 136). -/
def countWaiting (s : State) (core quad : Nat) (rs : List (Nat × Nat × Nat × Frag)) (won : Nat × Nat × Nat) : State :=
  let s := rs.foldl (fun s (k, e, c, _) =>
    if k == won.1 && e == won.2.1 then s
    else
      let order := s.nextId
      ({ s with nextId := order + 1 } : State).updFrag k e fun f =>
        let n := if c == won.2.2 then f.passed + 1 else f.passed
        { f with passed := n, stall := .notSelected, overdue := if 256 ≤ n && f.overdue.isNone then some order else f.overdue }) s
  let s := s.updFrag won.1 won.2.1 fun f => { f with passed := 0, overdue := none }
  countStarve s core quad rs (some won.2.2)

/-- An opportunity that gating skips: every ready fragment is sampled THROTTLE_POWER (R438). -/
def skipped (rs : List (Nat × Nat × Nat × Frag)) (s : State) : State :=
  rs.foldl (fun s (k, e, _, _) =>
    (s.updFrag k e fun f => { f with stall := .throttlePower }).noteStall (s.waveD k).glade (s.waveD k).ctx) s

/-- Whether gating skips the next opportunity of a quadrant, and the state in which every second one is (R438). -/
def gate (core quad : Nat) (s : State) : Bool × State :=
  let c := s.coreSt core
  let skip := c.gated && c.skips.getD quad false
  (skip, if c.gated then s.updCore core fun x => { x with skips := x.skips.set quad (!skip) } else s)

/-- One issue opportunity of a quadrant; gating skips every second one (R438). -/
noncomputable def opportunity (core quad : Nat) (s : State) : Out :=
  let (skip, s) := gate core quad s
  let rs := readyFrags s core quad
  if skip then .next (countStarve (countYield core quad (skipped rs s)) core quad rs none)
  else match choose (s.coreSt core).starve quad rs with
    | none => .next (countStarve (countYield core quad s) core quad rs none)
    | some (k, e, c, _) => serve k e (countWaiting (countYield core quad s) core quad rs (k, e, c))

/-- A fragment is served at an opportunity of its scheduler, unless gating skips it; a control core has one (R97, R438). -/
noncomputable def serveGated (wid eid : Nat) (s : State) : Out :=
  let w := s.waveD wid
  let (skip, s) := gate (w.coreNo wid) w.quad s
  if skip then .next (skipped (if wouldIssue wid eid s then [(wid, eid, issueClass s w, {})] else []) s)
  else serve wid eid s

/-- The action of a turn. -/
noncomputable def runAct (a : Act) (s : State) : Out := match a with
  | .event i => if i.isEvent then noted i s (exec i s) else .refused .noAgent
  | .issue wid eid => serveGated wid eid { s with cur := some (wid, eid) }
  | .opportunity core quad => opportunity core quad s
  | .pass => .next s

/-- One step: the next turn; with no turn left the current fragment is served and no time passes. -/
noncomputable def step (s : State) : Host.Outcome State Fault Refusal := match s.agenda with
  | t :: rest => runAct t.act (countClk s { s with agenda := rest, now := s.now + t.ns })
  | [] => match s.cur with
    | none => .next s
    | some (wid, eid) => serve wid eid s

/-! ## Placing a word (notes/assumptions 6) -/

/-- The address at which a placed word stands. -/
def placePc : Nat := 0x1000

/-- A word of `launch` or `pass`, which control core 0 fetches. -/
def isCommandWord (w : Nat) : Bool := w % 256 == 0x55 && (w / 2 ^ 24 % 256 == 0x20 || w / 2 ^ 24 % 256 == 0x21)

/-- The state with an instruction stored where the next step fetches: context 0 of glade 0 is open, core 0 holds the
line with its bytes, and a one-wave block of a grid (or control core 0) stands at it. -/
def State.withFetchWord (s : State) (nbits w : Nat) : State :=
  let cc := isCommandWord w
  let f : Frag := { memb := if cc then 1 else 0xFFFFFFFF#32, emask := 0xFFFFFFFF#32, pc := BitVec.ofNat 64 placePc }
  let wv : Wave := { control := cc, glade := 0, ctx := 0, cmd := 900, blk := 901, nvreg := 256, nacc := 16,
                     ents := [(0, .frag f)] }
  let wid := if cc then 0 else 902
  let core := if cc then 256 else 0
  let s := setCtxState s 0 0 1
  let line : ILine := { glade := 0, ctx := 0, va := placePc, data := (BitVec.ofNat 64 (w % 2 ^ nbits)).setWidth 1024, filled := s.now }
  let s := s.updCore core fun x => { x with ic := [line], view := 1 }
  let s := s.updGlade 0 fun g => { g with epoch := 1, cores := [0] }
  { s with
    waves := Tab.put s.waves wid wv
    blocks := Tab.put s.blocks 901 { cmd := 900, st := .running, cores := [0], waves := [902], scrSize := 65536 }
    cmds := Tab.put s.cmds 900 { glade := 0, seq := 1, st := .active }
    cur := some (wid, 0), agenda := [] }

end Sys2Proof.Machine
end

