-- ==== Sys2Proof/Safety.lean ====
section
/-! DEFINITION. The terms that claims about a run use: the state invariant, a unit that is ready, and what a unit that
completes leaves as it was. -/

namespace Sys2Proof.Machine

open Sys2Proof

/-! ## Invariants -/

/-- The form that every step keeps: memory lists its cells canonically. -/
def State.Inv (s : State) : Prop := Memory.wf s.mem = true

/-- A step of the device is safe when it does not end in a fault. -/
def SafeStep (o : Out) : Prop := ∀ r, o ≠ .fault r

/-! ## The issuing fragment and ready operands (R99 to R104) -/

/-- Entry `eid` of wave `wid` issues; the wave is `w` and the fragment `f`. -/
def Issuing (s : State) (wid eid : Nat) (w : Wave) (f : Frag) : Prop :=
  s.cur = some (wid, eid) ∧ s.wave? wid = some w ∧ w.frag? eid = some f

/-- The vector register that a 7-bit field names: direct, or through x0 or x1 (R101). -/
def vecNo (f : Frag) (fd : Nat) : Nat :=
  if fd < 96 then fd else if fd < 112 then f.x0.toNat + (fd - 96) else f.x1.toNat + (fd - 112)

/-- Vector registers `n` to `n + cnt - 1` lie within the wave's allocation, aligned where they form a pair. -/
def VecIn (w : Wave) (n cnt : Nat) (pair : Bool) : Prop :=
  (pair = true → n % 2 = 0) ∧ n < w.nvreg ∧ n + cnt ≤ w.nvreg

/-- None of the vector registers is empty. -/
def FullV (w : Wave) (n cnt : Nat) : Prop := ∀ r, n ≤ r → r < n + cnt → r ∉ w.vEmpty

/-- None of the scalar registers is empty. -/
def FullS (w : Wave) (n cnt : Nat) : Prop := ∀ r, n ≤ r → r < n + cnt → r ∉ w.sEmpty

/-- A vector source can be read. -/
def VSrc.Ready (w : Wave) (f : Frag) (x : VSrc) : Prop :=
  VecIn w (vecNo f x.fd) x.cnt x.pair ∧ FullV w (vecNo f x.fd) x.cnt

/-- A scalar source can be read: registers within s0 to s191, full and aligned where they form a pair; a constant; or a
special source as a single word (R102). -/
def SSrc.Ready (w : Wave) (x : SSrc) : Prop :=
  (x.fd < 192 ∧ x.fd + x.cnt ≤ 192 ∧ (x.pair = true → x.fd % 2 = 0) ∧ FullS w x.fd x.cnt) ∨
  (192 ≤ x.fd ∧ x.fd < 208 ∧ (x.cnt = 1 ∨ (x.cnt = 2 ∧ x.pair = true))) ∨
  (208 ≤ x.fd ∧ x.fd < 216 ∧ x.cnt = 1 ∧ x.pair = false)

/-- A vector destination can be written; in a save delivery only v0 and v1 can (R384). -/
def DstVReady (w : Wave) (f : Frag) (d : Nat × Nat × Bool) : Prop :=
  VecIn w (vecNo f d.1) d.2.1 d.2.2 ∧ FullV w (vecNo f d.1) d.2.1 ∧
  (saveRefuses w = true → vecNo f d.1 + d.2.1 ≤ 2)

/-- A scalar destination can be written. -/
def DstSReady (w : Wave) (d : Nat × Nat × Bool) : Prop :=
  d.1 + d.2.1 ≤ 192 ∧ (d.2.2 = true → d.1 % 2 = 0) ∧ FullS w d.1 d.2.1

/-- Every operand of a unit is legal and ready. -/
def Opnds.Ready (w : Wave) (f : Frag) (o : Opnds) : Prop :=
  (∀ x ∈ o.v, x.Ready w f) ∧ (∀ x ∈ o.s, x.Ready w) ∧ (∀ d, o.vd = some d → DstVReady w f d) ∧
  (∀ d, o.sd = some d → DstSReady w d)

/-- What the operands of a ready unit are. -/
def Opnds.got (s : State) (wid : Nat) (w : Wave) (f : Frag) (o : Opnds) : Got :=
  { v := o.v.map fun x => vecNo f x.fd
    s := o.s.map (scalarVal s wid w f)
    vd := match o.vd with
      | some d => vecNo f d.1
      | none => 0
    sd := match o.sd with
      | some d => d.1
      | none => 0 }

/-- The value of an 8-bit scalar source field. -/
def opS (s : State) (wid : Nat) (w : Wave) (f : Frag) (a : BitVec 8) : Word :=
  BitVec.ofNat 32 (scalarVal s wid w f { fd := a.toNat })

/-- The value of an 8-bit scalar source field that names a pair. -/
def opS64 (s : State) (wid : Nat) (w : Wave) (f : Frag) (a : BitVec 8) : DWord :=
  BitVec.ofNat 64 (scalarVal s wid w f { fd := a.toNat, cnt := 2, pair := true })

/-! ## What a completed unit leaves -/

/-- The wave after its fragment went to `tgt`: only the branch hash of R424 changes, and not on the fall-through path. -/
def wentTo (w : Wave) (f : Frag) (tgt : DWord) (lanes : Word) : Wave :=
  if tgt = f.pc + 4 then w else w.hashJump f.pc tgt lanes

/-- The parts of a wave that only its registers, special registers and launch make up: without its split table, its
count of retired units (R424), and the step that awaits STEP (R414). -/
def Wave.rest (w : Wave) : Wave := { w with ents := [], retired := 0, stepDue := none }

/-- The device without one wave, the contexts' hang counts (R67, see `SameGlades`) and the model's record of watch events. -/
def State.rest (s : State) (wid : Nat) : State := { s with waves := Tab.del s.waves wid, glades := [], watchEv := [] }

/-- A context without its hang count and the note that a unit of it has retired (R67). -/
def CtxSt.rest (c : CtxSt) : CtxSt := { c with hang := 0, retiredInWindow := false }

/-- Glades agree but for the hang counts of their contexts (R67). -/
def SameGlades (s t : State) : Prop :=
  ∀ g, { t.gladeSt g with ctxs := [] } = { s.gladeSt g with ctxs := [] } ∧ ∀ c, (t.ctxSt g c).rest = (s.ctxSt g c).rest

/-- A fragment of the wave is being stepped (R413). -/
def Stepped (s : State) (wid : Nat) : Prop := ∃ e f, s.frag? wid e = some f ∧ f.stepping ≠ 0

/-- A unit of wave `wid` has completed, and changed nothing but its wave: every byte of memory, every device register,
every other wave and every outstanding operation is as it was, and the wave's registers are those of `w`. Where a step ends with it,
the fusion groups of its block are due (R286). -/
structure UnitLeaves (s t : State) (wid : Nat) (w : Wave) : Prop where
  memory : ∀ a, getByte t.mem a = getByte s.mem a
  others : ∀ k, k ≠ wid → t.wave? k = s.wave? k
  device : t.rest wid = s.rest wid ∨
    (Stepped s wid ∧ t.rest wid = (dueGroups s w.blk).rest wid)
  glades : SameGlades s t
  wave : ∃ w', t.wave? wid = some w' ∧ w'.rest = w.rest ∧ w'.retired = w.retired + 1

/-- The same, and the fragment of entry `eid` is `f` where nothing rejoins or steps it. -/
structure UnitEnds (s t : State) (wid eid : Nat) (w : Wave) (f : Frag) : Prop extends UnitLeaves s t wid w where
  frag : f.stack = [] → f.rejoin = none → f.stepping = 0 → t.frag? wid eid = some f

end Sys2Proof.Machine
end

