-- ==== Sys2Proof/Certificates/Slice0/Obligations.lean ====
section
/-! DEFINITION. The statements for the provers, from the numbered rules of spec/. A statement about an instruction has the
form: for every state and operands that meet conditions on the state and operands, `exec` answers a next state, and what
that state holds. -/

namespace Sys2Proof.Claims

open Sys2Proof Sys2Proof.Machine

/-! ## Scalar units (R133 to R140) -/

/-- An 8-bit source field of one register is legal and full. -/
def SrcS (w : Wave) (a : BitVec 8) : Prop := SSrc.Ready w { fd := a.toNat }
/-- An 8-bit source field of a pair is legal and full. -/
def SrcS64 (w : Wave) (a : BitVec 8) : Prop := SSrc.Ready w { fd := a.toNat, cnt := 2, pair := true }
/-- An 8-bit destination field of one register is legal and full. -/
def DstS (w : Wave) (d : BitVec 8) : Prop := DstSReady w (d.toNat, 1, false)
/-- An 8-bit destination field of a pair is legal and full. -/
def DstS64 (w : Wave) (d : BitVec 8) : Prop := DstSReady w (d.toNat, 2, true)

/-- The instruction completes, writes `k a b` to scalar register d, and changes nothing else but the PC. -/
def Scalar3 (i : BitVec 8 → BitVec 8 → BitVec 8 → Instr) (k : Word → Word → Word) : Prop :=
  ∀ (s : State) (wid eid : Nat) (w : Wave) (f : Frag) (d a b : BitVec 8),
    Issuing s wid eid w f → SrcS w a → SrcS w b → DstS w d →
    ∃ t, exec (i d a b) s = .next t ∧
      UnitEnds s t wid eid (w.setS d.toNat (k (opS s wid w f a) (opS s wid w f b))) (afterUnit 4 true f)

/-- The same for an instruction that also reads d. -/
def Scalar3d (i : BitVec 8 → BitVec 8 → BitVec 8 → Instr) (k : Word → Word → Word → Word) : Prop :=
  ∀ (s : State) (wid eid : Nat) (w : Wave) (f : Frag) (d a b : BitVec 8),
    Issuing s wid eid w f → SrcS w a → SrcS w b → DstS w d →
    ∃ t, exec (i d a b) s = .next t ∧
      UnitEnds s t wid eid (w.setS d.toNat (k (w.sreg d.toNat) (opS s wid w f a) (opS s wid w f b))) (afterUnit 4 true f)

/-- The same for one source. -/
def Scalar1 (i : BitVec 8 → BitVec 8 → Instr) (k : Word → Word) : Prop :=
  ∀ (s : State) (wid eid : Nat) (w : Wave) (f : Frag) (d a : BitVec 8),
    Issuing s wid eid w f → SrcS w a → DstS w d →
    ∃ t, exec (i d a) s = .next t ∧ UnitEnds s t wid eid (w.setS d.toNat (k (opS s wid w f a))) (afterUnit 4 true f)

/-- The same for 64-bit values in pairs. -/
def Scalar64 (i : BitVec 8 → BitVec 8 → BitVec 8 → Instr) (k : DWord → DWord → DWord) : Prop :=
  ∀ (s : State) (wid eid : Nat) (w : Wave) (f : Frag) (d a b : BitVec 8),
    Issuing s wid eid w f → SrcS64 w a → SrcS64 w b → DstS64 w d →
    ∃ t, exec (i d a b) s = .next t ∧
      UnitEnds s t wid eid (w.setSPair d.toNat (k (opS64 s wid w f a) (opS64 s wid w f b))) (afterUnit 4 true f)

/-- The same for a 64-bit shift, whose count is one register. -/
def ScalarShift64 (i : BitVec 8 → BitVec 8 → BitVec 8 → Instr) (k : DWord → Nat → DWord) : Prop :=
  ∀ (s : State) (wid eid : Nat) (w : Wave) (f : Frag) (d a b : BitVec 8),
    Issuing s wid eid w f → SrcS64 w a → SrcS w b → DstS64 w d →
    ∃ t, exec (i d a b) s = .next t ∧
      UnitEnds s t wid eid (w.setSPair d.toNat (k (opS64 s wid w f a) ((opS s wid w f b).toNat % 64))) (afterUnit 4 true f)

/-- 1 where a relation holds, else 0. -/
def flagWord (b : Bool) : Word := if b then 1#32 else 0#32

/-- The number of the lowest set bit, or 32. -/
def lowestBit (a : Word) : Nat := ((List.range 32).find? fun i => a.getLsbD i).getD 32
/-- How many bits lie above the highest set bit, or 32. -/
def bitsAbove (a : Word) : Nat := ((List.range 32).find? fun i => a.getLsbD (31 - i)).getD 32
/-- How many bits are set. -/
def bitsSet (a : Word) : Nat := ((List.range 32).filter fun i => a.getLsbD i).length

/-- The offset, the width and the mask of a bit field (R137). -/
def bfOff (b : Word) : Nat := b.toNat % 32
def bfWidth (b : Word) : Nat := min (b.toNat / 2 ^ 8 % 64) (32 - bfOff b)
def bfMask (b : Word) : Word := BitVec.ofNat 32 (2 ^ bfWidth b - 1) <<< bfOff b

/-- Extraction: each bit of the result is a bit of the field, then zeros, or copies of the field's top bit. -/
def extracted (a b : Word) : Word :=
  BitVec.ofFnLE fun i : Fin 32 =>
    if i.val < bfWidth b then a.getLsbD (i.val + bfOff b)
    else b.getLsbD 16 && decide (0 < bfWidth b) && a.getLsbD (bfOff b + bfWidth b - 1)

/-- The bytes of a scalar word: major, d, a and b (R107). -/
def scalarBytes (maj : BitVec 7) (d a b : BitVec 8) : List Byte := bytes32 (b ++ a ++ d ++ maj ++ 1#1)

/-- A major and the instruction it encodes with d, a and b. -/
def Encodes (maj : BitVec 7) (i : BitVec 8 → BitVec 8 → BitVec 8 → Instr) : Prop :=
  ∀ d a b : BitVec 8, decodeUnit (scalarBytes maj d a b) = .ok (i d a b, 4)

/-- A function of SUN and the instruction it encodes with d and a. -/
def EncodesSun (fn : BitVec 8) (i : BitVec 8 → BitVec 8 → Instr) : Prop :=
  ∀ d a : BitVec 8, decodeUnit (scalarBytes 0x1F#7 d a fn) = .ok (i d a, 4)

/-- The unit does not execute and traps ILLEGAL_OP. -/
def TrapsIllegal (i : Instr) : Prop :=
  ∀ (s : State) (wid eid : Nat) (w : Wave) (f : Frag), Issuing s wid eid w f →
    exec i s = .next (stepTrap f wid eid (takeTrap s wid eid illegalOp 0 0 0))

/-- A field that names no pair: a special source, or an odd register. -/
def NoPair (a : BitVec 8) : Prop := 208 ≤ a.toNat ∨ (a.toNat < 192 ∧ a.toNat % 2 = 1)
/-- A destination field that names no pair. -/
def NoPairDst (d : BitVec 8) : Prop := 192 ≤ d.toNat ∨ d.toNat % 2 = 1

end Sys2Proof.Claims

open Sys2Proof Sys2Proof.Machine Sys2Proof.Claims

/-- R135: what each three-operand scalar instruction writes; nothing else changes but the PC. -/
def Sys2Proof.Claims.ScalarThreeOperandResults : Prop :=
  Scalar3 .sadd (fun a b => a + b) ∧
  Scalar3 .ssub (fun a b => a - b) ∧
  Scalar3 .smul (fun a b => a * b) ∧
  Scalar3 .smulh (fun a b => (a.signExtend 64 * b.signExtend 64).extractLsb' 32 32) ∧
  Scalar3 .smulhu (fun a b => (a.setWidth 64 * b.setWidth 64).extractLsb' 32 32) ∧
  Scalar3 .sand (fun a b => a &&& b) ∧
  Scalar3 .sor (fun a b => a ||| b) ∧
  Scalar3 .sxor (fun a b => a ^^^ b) ∧
  Scalar3 .sandn (fun a b => a &&& ~~~b) ∧
  Scalar3 .sshl (fun a b => a <<< (b.toNat % 32)) ∧
  Scalar3 .sshr (fun a b => a >>> (b.toNat % 32)) ∧
  Scalar3 .ssra (fun a b => a.sshiftRight (b.toNat % 32)) ∧
  Scalar3 .srot (fun a b => a.rotateLeft (b.toNat % 32)) ∧
  Scalar3 .smin (fun a b => if a.sle b then a else b) ∧
  Scalar3 .smax (fun a b => if a.sle b then b else a) ∧
  Scalar3 .sminu (fun a b => if a ≤ b then a else b) ∧
  Scalar3 .smaxu (fun a b => if a ≤ b then b else a) ∧
  Scalar3 .scmpEq (fun a b => flagWord (a == b)) ∧
  Scalar3 .scmpNe (fun a b => flagWord (a != b)) ∧
  Scalar3 .scmpLt (fun a b => flagWord (a.slt b)) ∧
  Scalar3 .scmpLe (fun a b => flagWord (a.sle b)) ∧
  Scalar3 .scmpLtu (fun a b => flagWord (a.ult b)) ∧
  Scalar3 .scmpLeu (fun a b => flagWord (a.ule b)) ∧
  ∀ p ∈ ([.sadd, .ssub, .smul, .smulh, .smulhu, .sand, .sor, .sxor, .sandn, .sshl, .sshr, .ssra, .srot, .smin, .smax, .sminu, .smaxu,
    .scmpEq, .scmpNe, .scmpLt, .scmpLe, .scmpLtu, .scmpLeu] : List (BitVec 8 → BitVec 8 → BitVec 8 → Instr)).zipIdx,
    Encodes (BitVec.ofNat 7 p.2) p.1

/-- R136, R137: select and the bit-field instructions. -/
def Sys2Proof.Claims.ScalarSelectAndBitFields : Prop :=
  Scalar3d .ssel (fun d a b => if d ≠ 0#32 then a else b) ∧
  Scalar3 .sbfe (fun a b => extracted a b) ∧
  Scalar3d .sbfi (fun d a b => (d &&& ~~~(bfMask b)) ||| ((a <<< bfOff b) &&& bfMask b)) ∧
  Encodes 0x17#7 .ssel ∧ Encodes 0x18#7 .sbfe ∧ Encodes 0x19#7 .sbfi

/-- R138, R139, R140: one-operand, 64-bit and immediate scalar instructions. -/
def Sys2Proof.Claims.ScalarUnary64AndImmediates : Prop :=
  (Scalar1 .smov (fun a => a) ∧
   Scalar1 .sabs (fun a => if a.msb then -a else a) ∧
   Scalar1 .spopc (fun a => BitVec.ofNat 32 (bitsSet a)) ∧
   Scalar1 .sclz (fun a => BitVec.ofNat 32 (bitsAbove a)) ∧
   Scalar1 .sctz (fun a => BitVec.ofNat 32 (lowestBit a)) ∧
   Scalar1 .sffs (fun a => if a = 0#32 then 0#32 else BitVec.ofNat 32 (1 + lowestBit a)) ∧
   EncodesSun 0#8 .smov ∧ EncodesSun 1#8 .sabs ∧ EncodesSun 2#8 .spopc ∧ EncodesSun 3#8 .sclz ∧ EncodesSun 4#8 .sctz ∧
   EncodesSun 5#8 .sffs) ∧
  (Scalar64 .sadd64 (fun a b => a + b) ∧
   Scalar64 .ssub64 (fun a b => a - b) ∧
   Scalar64 .smul64 (fun a b => a * b) ∧
   ScalarShift64 .sshl64 (fun a n => a <<< n) ∧
   ScalarShift64 .sshr64 (fun a n => a >>> n) ∧
   Encodes 0x1A#7 .sadd64 ∧ Encodes 0x1B#7 .ssub64 ∧ Encodes 0x1C#7 .sshl64 ∧ Encodes 0x1D#7 .sshr64 ∧ Encodes 0x1E#7 .smul64 ∧
   ∀ d a b : BitVec 8,
     (NoPair a ∨ NoPair b ∨ NoPairDst d → TrapsIllegal (.sadd64 d a b) ∧ TrapsIllegal (.ssub64 d a b) ∧ TrapsIllegal (.smul64 d a b)) ∧
     (NoPair a ∨ NoPairDst d → TrapsIllegal (.sshl64 d a b) ∧ TrapsIllegal (.sshr64 d a b))) ∧
  (∀ (d : BitVec 8) (i : BitVec 16),
    decodeUnit (bytes32 (i ++ d ++ 0x20#7 ++ 1#1)) = .ok (.sli .none d i, 4) ∧
    (∀ hi : BitVec 16, decodeUnit (bytes32 (0#4 ++ hi ++ 0#4 ++ 0xFF#8) ++ bytes32 (i ++ d ++ 0x20#7 ++ 1#1)) = .ok (.sli (.imm hi) d i, 8)) ∧
    decodeUnit (bytes32 (i ++ d ++ 0x21#7 ++ 1#1)) = .ok (.slih d i, 4) ∧
    (∀ (p : BitVec 24) (j : Instr) (n : Nat), decodeUnit (bytes32 (p ++ 0xFF#8) ++ bytes32 (i ++ d ++ 0x21#7 ++ 1#1)) ≠ .ok (j, n)) ∧
    (192 ≤ d.toNat → TrapsIllegal (.sli .none d i) ∧ (∀ hi, TrapsIllegal (.sli (.imm hi) d i)) ∧ TrapsIllegal (.slih d i))) ∧
  ∀ (s : State) (wid eid : Nat) (w : Wave) (f : Frag) (d : BitVec 8) (i : BitVec 16), Issuing s wid eid w f → DstS w d →
    (∃ t, exec (.sli .none d i) s = .next t ∧
      UnitEnds s t wid eid (w.setS d.toNat (i.setWidth 32)) (afterUnit 4 true f)) ∧
    (∀ hi : BitVec 16, ∃ t, exec (.sli (.imm hi) d i) s = .next t ∧
      UnitEnds s t wid eid (w.setS d.toNat (hi ++ i)) (afterUnit 8 true f)) ∧
    (∃ t, exec (.slih d i) s = .next t ∧
      UnitEnds s t wid eid (w.setS d.toNat (i ++ (w.sreg d.toNat).extractLsb' 0 16)) (afterUnit 4 true f))

/-- R102: what an 8-bit scalar source field reads, and the fields that trap. -/
def Sys2Proof.Claims.ScalarSourceFields : Prop :=
  ∀ (s : State) (wid : Nat) (w : Wave) (f : Frag) (a : BitVec 8),
    (a.toNat < 192 → opS s wid w f a = w.sreg a.toNat) ∧
    (192 ≤ a.toNat → a.toNat < 208 → opS s wid w f a = BitVec.ofNat 32 (a.toNat - 192) ∧
      opS64 s wid w f a = BitVec.ofNat 64 (a.toNat - 192)) ∧
    (a = 208#8 → opS s wid w f a = f.emask) ∧
    (a = 209#8 → opS s wid w f a = f.fmt) ∧
    (a = 210#8 → opS s wid w f a = w.fflags) ∧
    (a = 211#8 → opS s wid w f a = BitVec.ofNat 32 (bitsSet f.active)) ∧
    (a = 212#8 → opS s wid w f a = BitVec.ofNat 32 w.widx) ∧
    (a = 213#8 → opS s wid w f a = BitVec.ofNat 32 (s.blkD w.blk).lin) ∧
    (a = 214#8 → opS s wid w f a = (timebase s (dieOf (w.coreNo wid))).extractLsb' 0 32) ∧
    (a = 215#8 → opS s wid w f a = 0#32) ∧
    (216 ≤ a.toNat → scalarCheck { fd := a.toNat } = trap illegalOp) ∧
    (208 ≤ a.toNat → scalarCheck { fd := a.toNat, cnt := 2, pair := true } = trap illegalOp) ∧
    (a.toNat < 192 → a.toNat % 2 = 1 → scalarCheck { fd := a.toNat, cnt := 2, pair := true } = trap illegalOp) ∧
    (192 ≤ a.toNat → scalarDst a.toNat 1 false = trap illegalOp) ∧
    (a.toNat + 1 < 192 → opS64 s wid w f a = w.sPair a.toNat)

/-- R102, R135 to R140: the scalar instructions, their encodings and the fields that trap. -/
def Obligations.ScalarResults : Prop := ScalarThreeOperandResults ∧ ScalarSelectAndBitFields ∧ ScalarUnary64AndImmediates ∧ ScalarSourceFields

namespace Sys2Proof.Claims

open Sys2Proof Sys2Proof.Machine

/-! ## Index, format and mask registers, branches and the user handler (R141 to R158) -/

/-- The unit traps: it does not execute, and the trap with this cause, argument and address is taken. -/
def Traps (i : Instr) (s : State) (wid eid : Nat) (f : Frag) (cause : Nat) (arg : Word) (addr : Nat) : Prop :=
  exec i s = .next (stepTrap f wid eid (takeTrap s wid eid cause arg addr arg.toNat))

/-- The unit is not ready: nothing changes but the fragment's note of why. -/
def NotReady (i : Instr) (s : State) (wid eid : Nat) (why : Stall) : Prop :=
  exec i s = .next ((s.withEv []).updFrag wid eid fun f => { f with stall := why })

/-- The instruction completes and changes nothing but the issuing fragment, to `k f a`. -/
def FragUnit (i : BitVec 8 → Instr) (onControl : Bool) (k : Frag → Word → Frag) : Prop :=
  ∀ (s : State) (wid eid : Nat) (w : Wave) (f : Frag) (a : BitVec 8),
    Issuing s wid eid w f → SrcS w a → (onControl = true ∨ w.control = false) →
    ∃ t, exec (i a) s = .next t ∧ UnitEnds s t wid eid w (afterUnit 4 true (k f (opS s wid w f a)))

/-- The instruction completes and writes `k w f` to d. -/
def ReadUnit (i : BitVec 8 → Instr) (onControl : Bool) (k : Wave → Frag → Word) : Prop :=
  ∀ (s : State) (wid eid : Nat) (w : Wave) (f : Frag) (d : BitVec 8),
    Issuing s wid eid w f → DstS w d → (onControl = true ∨ w.control = false) →
    ∃ t, exec (i d) s = .next t ∧ UnitEnds s t wid eid (w.setS d.toNat (k w f)) (afterUnit 4 true f)

/-- A value that `fmt` takes (R75, R142). -/
def LegalFmt (v : Word) : Prop := v.extractLsb' 16 16 = 0#16 ∧ v.getLsbD 3 = false ∧ v.extractLsb' 12 2 ≠ 3#2

/-- PC + 2 × offset (R109). -/
def branchTarget (pc : DWord) {n : Nat} (o : BitVec n) : DWord := pc + BitVec.ofInt 64 (2 * o.toInt)

/-- The instruction completes and the PC goes to the target where `k f a` holds, else past the unit. -/
def BranchUnit (i : BitVec 8 → BitVec 16 → Instr) (onControl : Bool) (k : Frag → Word → Prop) [∀ f a, Decidable (k f a)] : Prop :=
  ∀ (s : State) (wid eid : Nat) (w : Wave) (f : Frag) (a : BitVec 8) (o : BitVec 16),
    Issuing s wid eid w f → SrcS w a → (onControl = true ∨ w.control = false) →
    ∃ t, exec (i a o) s = .next t ∧
      if k f (opS s wid w f a) then
        UnitEnds s t wid eid (wentTo w f (branchTarget f.pc o) f.memb) (afterUnit 4 false { f with pc := branchTarget f.pc o })
      else UnitEnds s t wid eid w (afterUnit 4 false { f with pc := f.pc + 4 })

/-- `jr` and `ret`: the PC goes to the pair's value, and an odd target traps. -/
def PairJump (i : BitVec 8 → Instr) : Prop :=
  ∀ (s : State) (wid eid : Nat) (w : Wave) (f : Frag) (a : BitVec 8), Issuing s wid eid w f → SrcS64 w a →
    let tgt := opS64 s wid w f a
    (tgt.getLsbD 0 = false → ∃ t, exec (i a) s = .next t ∧
      UnitEnds s t wid eid (wentTo w f tgt f.memb) (afterUnit 4 false { f with pc := tgt })) ∧
    (tgt.getLsbD 0 = true → Traps (i a) s wid eid f misalign 0 0)

/-- After `exit` ends the lanes of `f`: a RUNNING block whose waves have then all ended is FINISHING (R49). -/
def afterExit (s : State) (wid : Nat) (w : Wave) (f : Frag) : State :=
  if w.control = false ∧
      ∀ k ∈ (s.blkD w.blk).waves, (if k = wid then w.ended ||| f.memb else (s.waveD k).ended) = 0xFFFFFFFF#32 then
    s.updBlk w.blk fun b => { b with st := if b.st = .running then .finishing else b.st }
  else s

/-- The deferral record of the ordered fallback (R56). -/
def fallbackRecord (f : Frag) (n : Word) (j : Option DWord) : Deferral :=
  { merge := false, memb := n, emask := f.emask, pc := f.pc + 4, fmt := f.fmt, x0 := f.x0, x1 := f.x1, rejoin := j }

/-- A fragment made for some lanes of another keeps its format and index registers (R55). -/
def ChildOf (f : Frag) (m : Word) (pc : DWord) (rejoin : Option DWord) (g : Frag) : Prop :=
  g.memb = f.memb &&& m ∧ g.emask = f.emask &&& (f.memb &&& m) ∧ g.pc = pc ∧ g.rejoin = rejoin ∧ g.pending = none ∧
  g.fmt = f.fmt ∧ g.x0 = f.x0 ∧ g.x1 = f.x1

/-- A register number that a wave at level `level` may use: 0x00 to 0x3F at user level, to 0x7F at handler level (R125). -/
def InRange (level n : Nat) : Prop := n < 0x40 ∨ (level = 1 ∧ n < 0x80)

end Sys2Proof.Claims

open Sys2Proof Sys2Proof.Machine Sys2Proof.Claims

/-- R141, R142, R143, R144: the index, format, flag and mask registers. -/
def Sys2Proof.Claims.FragmentRegisterInstructions : Prop :=
  FragUnit (.sxset 0#1) false (fun f a => { f with x0 := a.extractLsb' 0 8 }) ∧
  FragUnit (.sxset 1#1) false (fun f a => { f with x1 := a.extractLsb' 0 8 }) ∧
  FragUnit (.sxadd 0#1) false (fun f a => { f with x0 := f.x0 + a.extractLsb' 0 8 }) ∧
  FragUnit (.sxadd 1#1) false (fun f a => { f with x1 := f.x1 + a.extractLsb' 0 8 }) ∧
  FragUnit .smwr false (fun f a => { f with emask := a &&& f.memb }) ∧
  ReadUnit .smrd false (fun _ f => f.emask) ∧
  ReadUnit .sfmtr true (fun _ f => f.fmt) ∧
  (∀ (s : State) (wid eid : Nat) (w : Wave) (f : Frag) (a : BitVec 8), Issuing s wid eid w f → SrcS w a →
    (LegalFmt (opS s wid w f a) → ∃ t, exec (.sfmt a) s = .next t ∧
      UnitEnds s t wid eid w (afterUnit 4 true { f with fmt := opS s wid w f a })) ∧
    (¬ LegalFmt (opS s wid w f a) → Traps (.sfmt a) s wid eid f fmtIllegal 0 0)) ∧
  (∀ (s : State) (wid eid : Nat) (w : Wave) (f : Frag) (d : BitVec 8), Issuing s wid eid w f → DstS w d →
    ∃ t, exec (.sflags d) s = .next t ∧
      UnitEnds s t wid eid { w.setS d.toNat w.fflags with fflags := 0 } (afterUnit 4 true f))

/-- R149: the uniform branches on the active lanes, and their encodings. -/
def Obligations.UniformLaneBranches : Prop :=
  BranchUnit .vbrall false (fun f a => (f.memb &&& f.emask) &&& ~~~a = 0#32) ∧
  BranchUnit .vbrany false (fun f a => (f.memb &&& f.emask) &&& a ≠ 0#32) ∧
  ∀ (a : BitVec 8) (o : BitVec 16), decodeUnit (bytes32 (o ++ a ++ 0x28#7 ++ 1#1)) = .ok (.vbrall a o, 4) ∧
    decodeUnit (bytes32 (o ++ a ++ 0x29#7 ++ 1#1)) = .ok (.vbrany a o, 4)

/-- R146, R147: jumps, calls, scalar-conditional branches and the pending rejoin address. -/
def Sys2Proof.Claims.BranchesAndCalls : Prop :=
  (∀ (s : State) (wid eid : Nat) (w : Wave) (f : Frag) (o : BitVec 24), Issuing s wid eid w f →
    (∃ t, exec (.jmp o) s = .next t ∧
      UnitEnds s t wid eid (wentTo w f (branchTarget f.pc o) f.memb) (afterUnit 4 false { f with pc := branchTarget f.pc o })) ∧
    (FullS w 190 2 → ∃ t, exec (.call o) s = .next t ∧
      UnitEnds s t wid eid ((wentTo w f (branchTarget f.pc o) f.memb).setSPair 190 (f.pc + 4))
        (afterUnit 4 false { f with pc := branchTarget f.pc o })) ∧
    (¬ FullS w 190 2 → NotReady (.call o) s wid eid .emptySrc) ∧
    (∃ t, exec (.rjset o) s = .next t ∧
      UnitEnds s t wid eid w (afterUnit 4 true { f with pending := some (branchTarget f.pc o) }))) ∧
  BranchUnit .bz true (fun _ a => a = 0#32) ∧
  BranchUnit .bnz true (fun _ a => a ≠ 0#32) ∧
  PairJump .jr ∧
  PairJump .ret

/-- R148: `vbr` goes one way where every member lane does, and else splits the fragment by membership: into two entries, or with a
pending rejoin address into a join record and two (R55), or where entries are short into a fragment and a deferral record (R56). -/
def Sys2Proof.Claims.DivergentBranch : Prop :=
  ∀ (s : State) (wid eid : Nat) (w : Wave) (f : Frag) (a : BitVec 8) (o : BitVec 16),
    Issuing s wid eid w f → SrcS w a → w.control = false →
    let m := opS s wid w f a
    let tgt := branchTarget f.pc o
    (f.memb &&& m = 0#32 → ∃ t, exec (.vbr a o) s = .next t ∧
      UnitEnds s t wid eid w (afterUnit 4 false { f with pc := f.pc + 4 })) ∧
    (f.memb &&& m ≠ 0#32 → f.memb &&& ~~~m = 0#32 → ∃ t, exec (.vbr a o) s = .next t ∧
      UnitEnds s t wid eid (wentTo w f tgt f.memb) (afterUnit 4 false { f with pc := tgt })) ∧
    (f.memb &&& m ≠ 0#32 → f.memb &&& ~~~m ≠ 0#32 → ∃ t, exec (.vbr a o) s = .next t ∧
      UnitLeaves s t wid (wentTo w f tgt (f.memb &&& m)) ∧
      (f.pending = none → f.rejoin = none → f.stack = [] → f.stepping = 0 → 1 ≤ freeEntries s w →
        Tab.val? w.ents (Tab.freshFrom w.ents 0) = none →
        (∃ g, t.frag? wid eid = some g ∧ ChildOf f m tgt none g) ∧
        (∃ g, t.frag? wid (Tab.freshFrom w.ents 0) = some g ∧ ChildOf f (~~~m) (f.pc + 4) none g)) ∧
      (∀ j, f.pending = some j → 2 ≤ freeEntries s w → Tab.wf w.ents = true → tgt ≠ j → f.pc + 4 ≠ j →
        ∃ (w' : Wave) (r : JoinRec) (k k' : Nat) (g h : Frag), t.wave? wid = some w' ∧ k ≠ k' ∧
          Tab.val? w.ents k = none ∧ Tab.val? w.ents k' = none ∧
          Tab.val? w'.ents eid = some (.join r) ∧ r.memb = f.memb ∧ r.rejoin = f.rejoin ∧ r.join = j ∧ r.stack = f.stack ∧
          Tab.val? w'.ents k = some (.frag g) ∧ ChildOf f m tgt (some j) g ∧ g.stack = [] ∧
          Tab.val? w'.ents k' = some (.frag h) ∧ ChildOf f (~~~m) (f.pc + 4) (some j) h ∧ h.stack = []) ∧
      (∀ j, (f.pending = none ∧ freeEntries s w = 0 ∧ j = f.rejoin) ∨ (freeEntries s w < 2 ∧ f.pending.isSome ∧ j = f.pending) →
        j ≠ some tgt → f.rejoin ≠ some tgt → f.stepping = 0 →
        ∃ g, t.frag? wid eid = some g ∧ g.memb = f.memb &&& m ∧ g.emask = f.emask ∧ g.pc = tgt ∧ g.rejoin = f.rejoin ∧
          g.pending = none ∧ g.fmt = f.fmt ∧ g.x0 = f.x0 ∧ g.x1 = f.x1 ∧
          g.stack = fallbackRecord f (f.memb &&& ~~~m) j :: f.stack))

/-- R56, R57: a fragment that goes to an address it shares with others rejoins them. Of the ordered fallback, the set that arrives
first waits in a merge record while the deferred set runs on, and the second takes it in; at a join record the fragment parks, and
once every lane of the record has parked the fragments fuse into its entry, with the format and index registers of the one that
parked first. -/
def Sys2Proof.Claims.Rejoining : Prop :=
  ∀ (s : State) (wid eid : Nat) (w : Wave) (f : Frag) (o : BitVec 24), Issuing s wid eid w f → f.stepping = 0 →
    let tgt := branchTarget f.pc o
    (∀ r st, f.stack = r :: st → r.merge = false → r.rejoin = some tgt → r.pc ≠ tgt → f.rejoin ≠ some r.pc →
      ∃ t g, exec (.jmp o) s = .next t ∧ t.frag? wid eid = some g ∧ g.memb = r.memb ∧ g.emask = r.emask ∧ g.pc = r.pc ∧
        g.fmt = r.fmt ∧ g.x0 = r.x0 ∧ g.x1 = r.x1 ∧ g.rejoin = f.rejoin ∧
        g.stack = { merge := true, memb := f.memb, emask := f.emask, pc := tgt, fmt := f.fmt, x0 := f.x0, x1 := f.x1,
                    rejoin := some tgt } :: st) ∧
    (∀ r, f.stack = [r] → r.merge = true → r.pc = tgt → f.rejoin ≠ some tgt →
      ∃ t g, exec (.jmp o) s = .next t ∧ t.frag? wid eid = some g ∧ g.memb = f.memb ||| r.memb ∧ g.emask = f.emask ||| r.emask ∧
        g.pc = tgt ∧ g.fmt = r.fmt ∧ g.x0 = r.x0 ∧ g.x1 = r.x1 ∧ g.stack = []) ∧
    (∀ k r, w.joins = [(k, r)] → r.join = tgt → f.rejoin = some tgt → f.parked = none → f.stack = [] → f.memb &&& ~~~r.memb = 0#32 →
      Tab.wf w.ents = true →
      (∀ e h, w.frags = [(eid, f), (e, h)] ∨ w.frags = [(e, h), (eid, f)] → r.stack = [] → r.rejoin = none → r.memb ≠ 0#32 →
        (h.parked.isSome = true → h.pc = tgt → f.memb ||| h.memb = r.memb →
          ∃ t g, exec (.jmp o) s = .next t ∧ t.frag? wid k = some g ∧ g.memb = r.memb ∧ g.emask = h.emask ||| f.emask ∧
            g.pc = tgt ∧ g.rejoin = none ∧ g.pending = none ∧ g.parked = none ∧ g.stack = [] ∧
            g.fmt = h.fmt ∧ g.x0 = h.x0 ∧ g.x1 = h.x1 ∧ t.frag? wid eid = none ∧ t.frag? wid e = none) ∧
        (h.parked = none → f.memb ≠ r.memb →
          ∃ t g, exec (.jmp o) s = .next t ∧ t.frag? wid eid = some g ∧ g.parked.isSome = true ∧ g.pc = tgt ∧
            g.memb = f.memb ∧ g.emask = f.emask ∧ t.frag? wid e = some h)))

/-- R55 to R57, R146 to R148: jumps, calls, scalar branches, the divergent branch and rejoining. -/
def Obligations.JumpsCallsAndSplits : Prop := BranchesAndCalls ∧ DivergentBranch ∧ Rejoining

/-- R150, R151: ending, yielding and sleeping, and SLEEP_END. The last fragment of a block to end makes the block FINISHING (R49). -/
def Sys2Proof.Claims.EndingYieldingSleeping : Prop :=
  (∀ (s : State) (wid eid : Nat) (w : Wave) (f : Frag), Issuing s wid eid w f →
    (∃ t, exec .nop s = .next t ∧ UnitEnds s t wid eid w (afterUnit 4 true f)) ∧
    (∃ t, exec .exit s = .next t ∧
      UnitLeaves (afterExit s wid w f) t wid { w with ended := if w.control then 0xFFFFFFFF#32 else w.ended ||| f.memb } ∧
      (f.stack = [] → w.joins = [] → w.intr = none → Tab.wf w.ents = true → t.frag? wid eid = none)) ∧
    (∃ t, exec .yield s = .next t ∧ UnitEnds s t wid eid w (afterUnit 4 true { f with yieldLeft := 8 })) ∧
    (∀ a : BitVec 8, SrcS w a →
      (opS s wid w f a = 0#32 → ∃ t, exec (.sleep a) s = .next t ∧ UnitEnds s t wid eid w (afterUnit 4 true f)) ∧
      (opS s wid w f a ≠ 0#32 → ∃ t, exec (.sleep a) s = .next t ∧
        UnitEnds s t wid eid w (afterUnit 4 true { f with
          sleepEnd := some (coreClk s (w.coreNo wid) + min (opS s wid w f a).toNat 0xFFFFF) })))) ∧
  (∀ (s : State) (wid eid : Nat) (w : Wave) (f : Frag) (n : Nat), s.wave? wid = some w → w.frag? eid = some f →
    f.sleepEnd = some n → n ≤ coreClk s (w.coreNo wid) →
    exec (.sleepEnd wid eid) s = .next (s.setFrag wid eid { f with sleepEnd := none }))

/-- R141 to R144, R150, R151: index, format, flag and mask registers; ending, yielding and sleeping. -/
def Obligations.FragmentRegistersAndEnding : Prop := FragmentRegisterInstructions ∧ EndingYieldingSleeping

/-- R153, R154, R155: a `trap` goes to the user handler with the state R154 saves, and `rett` returns from it. -/
def Sys2Proof.Claims.UserHandler : Prop :=
  ∀ (s : State) (wid eid : Nat) (w : Wave) (f : Frag), Issuing s wid eid w f →
    (∀ a : BitVec 8, SrcS w a → w.control = false → w.intr = none → w.uhandler ≠ 0 → f.trap.inHandler = false →
      ∃ t, exec (.trap a) s = .next t ∧
        UnitEnds s t wid eid (w.hashJump f.pc w.uhandler f.memb) (afterUnit 4 false { f with
          pc := w.uhandler, pending := none, held := none, sleepEnd := none,
          trap := { inHandler := true, rpc := f.pc + 4, savedRj := f.pending, cause := 0x16, tpc := f.pc,
                    targ := opS s wid w f a } })) ∧
    (f.trap.inHandler = true → ∃ t, exec .rett s = .next t ∧
      UnitEnds s t wid eid (w.hashJump f.pc f.trap.rpc f.memb) (afterUnit 4 false { f with
        pc := f.trap.rpc, pending := f.trap.savedRj, trap := { f.trap with inHandler := false } })) ∧
    (f.trap.inHandler = false → Traps .rett s wid eid f illegalOp 0 0)

/-- What `sysrd` gives of each number of the user range (R126, R156). -/
def Sys2Proof.Claims.userRegs (s : State) (w : Wave) (f : Frag) : List (Nat × Word) :=
  let hi := fun (v : DWord) => (v.extractLsb' 32 20).setWidth 32
  let team := fun i j => BitVec.ofNat 32 (w.teams.getD i 0) + BitVec.ofNat 32 (w.teams.getD j 0) <<< 16
  let wave := fun n => if w.control then 0#32 else BitVec.ofNat 32 n
  [(0x00, f.trap.cause.setWidth 32), (0x01, f.trap.tpc.setWidth 32), (0x02, hi f.trap.tpc), (0x03, f.trap.targ),
   (0x04, w.uhandler.setWidth 32), (0x05, hi w.uhandler),
   (0x06, wave (w.widx % 2 ^ 8 + 2 ^ 8 * w.quad + 2 ^ 16 * w.core)),
   (0x07, wave ((s.blkD w.blk).lin % 2 ^ 24)), (0x08, wave w.part),
   (0x09, BitVec.ofNat 32 (if w.control then w.ccSeq else (s.cmdD w.cmd).seq)),
   (0x0A, if w.control then 0 else team 0 1), (0x0B, if w.control then 0 else team 2 3),
   (0x0C, BitVec.ofNat 32 (if w.control then w.glade else w.glade + 2 ^ 8 * w.ctx))]

/-- The same of the handler range (R384, R417): a wave in no delivery reads the delivery's registers as zero, and HDONE is
write-only. -/
def Sys2Proof.Claims.handlerRegs (s : State) (w : Wave) : List (Nat × Word) :=
  let saving := w.intr.any fun it => it.cause == 0x18 && !it.restore
  let area := (w.intr.map (·.harea)).getD 0
  [(0x40, (w.intr.map fun it => BitVec.ofNat 32 (it.cause + if it.restore then 2 ^ 8 else 0)).getD 0),
   (0x41, area.setWidth 32), (0x42, (area.extractLsb' 32 20).setWidth 32),
   (0x43, BitVec.ofNat 32 (if saving then (((s.blkD w.blk).budgetAt.map fun t => (t - s.now) / 1000).getD 0) else 0)),
   (0x44, 0)] ++
  ((List.range 16).map fun n => (0x60 + n, (Tab.valD (s.coreSt w.core).preds n {}).hits)) ++
  [(0x70, w.dselLo), (0x71, w.dselHi), (0x72, w.dstat)]

/-- The numbers that name no writable register. -/
def Sys2Proof.Claims.sysFixed : List Nat :=
  [0x00, 0x01, 0x02, 0x03, 0x06, 0x07, 0x08, 0x09, 0x0A, 0x0B, 0x0C, 0x40, 0x41, 0x42, 0x43, 0x72]

/-- The HDONE value that a wave's delivery accepts (R384, R414). -/
def Sys2Proof.Claims.doneValue (it : Intr) : Word := if it.cause = 0x19 then 3 else if it.restore then 2 else 1

/-- R125, R156, R157, R384, R414, R417: what each system register reads and what a write of it changes; the timebase; numbers beyond
the level's range, unassigned numbers, read-only numbers and refused values trap. -/
def Sys2Proof.Claims.SystemRegisters : Prop :=
  ∀ (s : State) (wid eid : Nat) (w : Wave) (f : Frag), Issuing s wid eid w f →
    (∀ r ∈ userRegs s w f, ∀ d : BitVec 8, DstS w d → ∃ t, exec (.sysrd d (BitVec.ofNat 8 r.1)) s = .next t ∧
      UnitEnds s t wid eid (w.setS d.toNat r.2) (afterUnit 4 true f)) ∧
    (levelOf s w = 1 → ∀ r ∈ handlerRegs s w, ∀ d : BitVec 8, DstS w d →
      ∃ t, exec (.sysrd d (BitVec.ofNat 8 r.1)) s = .next t ∧
        UnitEnds s t wid eid (w.setS d.toNat r.2) (afterUnit 4 true f)) ∧
    (∀ a : BitVec 8, SrcS w a →
      let v := opS s wid w f a
      (v.getLsbD 0 = false → ∃ t, exec (.syswr 0x04#8 a) s = .next t ∧
        UnitEnds s t wid eid { w with uhandler := w.uhandler.extractLsb' 32 32 ++ v } (afterUnit 4 true f)) ∧
      (v.getLsbD 0 = true → Traps (.syswr 0x04#8 a) s wid eid f misalign 0 0) ∧
      (v.extractLsb' 20 12 = 0#12 → ∃ t, exec (.syswr 0x05#8 a) s = .next t ∧
        UnitEnds s t wid eid { w with uhandler := v ++ w.uhandler.extractLsb' 0 32 } (afterUnit 4 true f)) ∧
      (v.extractLsb' 20 12 ≠ 0#12 → Traps (.syswr 0x05#8 a) s wid eid f illegalOp 0 0) ∧
      (levelOf s w = 1 →
        (∀ it, w.intr = some it → v = doneValue it → (it.cause = 0x18 ∨ it.cause = 0x19) →
          ∃ t, exec (.syswr 0x44#8 a) s = .next t ∧
            UnitEnds s t wid eid { w with intr := some { it with hdone := v.toNat } } (afterUnit 4 true f)) ∧
        ((∀ it, w.intr = some it → v ≠ doneValue it) → Traps (.syswr 0x44#8 a) s wid eid f illegalOp 0 0) ∧
        (∀ n < 16, ∃ t, exec (.syswr (BitVec.ofNat 8 (0x60 + n)) a) s = .next t ∧
          UnitEnds (s.updCore w.core fun c => { c with
              preds := Tab.putD c.preds n { (Tab.valD c.preds n {}) with hits := v } {} }) t wid eid w (afterUnit 4 true f)) ∧
        (∃ t, exec (.syswr 0x70#8 a) s = .next t ∧ UnitEnds s t wid eid { w with dselLo := v } (afterUnit 4 true f)) ∧
        (∃ t, exec (.syswr 0x71#8 a) s = .next t ∧ UnitEnds s t wid eid { w with dselHi := v } (afterUnit 4 true f)))) ∧
    (∀ d n : BitVec 8,
      let known := n.toNat ∈ (userRegs s w f ++ handlerRegs s w).map (·.1)
      (¬ InRange (levelOf s w) n.toNat → Traps (.sysrd d n) s wid eid f priv 0 0 ∧ Traps (.syswr n d) s wid eid f priv 0 0) ∧
      (InRange (levelOf s w) n.toNat → ¬ known →
        Traps (.sysrd d n) s wid eid f illegalOp 0 0 ∧ Traps (.syswr n d) s wid eid f illegalOp 0 0) ∧
      (InRange (levelOf s w) n.toNat → n.toNat ∈ sysFixed → Traps (.syswr n d) s wid eid f priv 0 0)) ∧
    (∀ d : BitVec 8, DstS64 w d → ∃ t, exec (.clock d) s = .next t ∧
      UnitEnds s t wid eid (w.setSPair d.toNat (timebase s (dieOf (w.coreNo wid)))) (afterUnit 4 true f))

/-- The pending rejoin address that HRJP holds of a set-aside fragment. -/
def Sys2Proof.Claims.hrjp (it : Intr) (k : Nat) (h : Frag) : DWord := (Tab.val? it.rj k).getD (h.pending.getD 0)

/-- What `hidrd` gives of each register of the selected fragment (R158). -/
def Sys2Proof.Claims.fragRegs (it : Intr) (k : Nat) (h : Frag) : List (Nat × Word) :=
  let lo := fun (v : DWord) => v.extractLsb' 0 32
  let hi := fun (v : DWord) => (v.extractLsb' 32 20).setWidth 32
  [(0x01, lo h.pc), (0x02, hi h.pc), (0x03, h.memb), (0x04, h.emask), (0x05, h.fmt), (0x06, 0#16 ++ h.x1 ++ h.x0),
   (0x07, lo (hrjp it k h)), (0x08, BitVec.ofBool h.pending.isSome ++ 0#11 ++ (hrjp it k h).extractLsb' 32 20),
   (0x09, if h.trap.inHandler then 1 else 0), (0x0A, lo h.trap.rpc), (0x0B, hi h.trap.rpc),
   (0x0C, h.trap.cause.setWidth 32), (0x0D, h.trap.targ), (0x0E, lo h.trap.tpc), (0x0F, hi h.trap.tpc)]

/-- What `hidwr` of a value makes of the selected fragment: per number, whether the value is taken, the cause that it else
traps with, and the fragment (R158). -/
def Sys2Proof.Claims.fragWrites (it : Intr) (k : Nat) (h : Frag) (v : Word) : List (Nat × Prop × Nat × Frag) :=
  let low := fun (x : DWord) => x.extractLsb' 32 32 ++ v
  let high := fun (x : DWord) => v ++ x.extractLsb' 0 32
  let even := v.getLsbD 0 = false
  let short := v.extractLsb' 20 12 = 0#12
  [(0x01, even, misalign, { h with pc := low h.pc }), (0x02, short, illegalOp, { h with pc := high h.pc }),
   (0x04, True, illegalOp, { h with emask := v &&& h.memb }), (0x05, LegalFmt v, fmtIllegal, { h with fmt := v }),
   (0x06, v.extractLsb' 16 16 = 0#16, illegalOp, { h with x0 := v.extractLsb' 0 8, x1 := v.extractLsb' 8 8 }),
   (0x07, True, illegalOp, { h with pending := h.pending.map low }),
   (0x08, v.extractLsb' 20 11 = 0#11, illegalOp, { h with
      pending := if v.getLsbD 31 then some ((v &&& 0xFFFFF#32) ++ (hrjp it k h).extractLsb' 0 32) else none }),
   (0x09, v.extractLsb' 1 31 = 0#31, illegalOp, { h with trap := { h.trap with inHandler := v.getLsbD 0 } }),
   (0x0A, even, misalign, { h with trap := { h.trap with rpc := low h.trap.rpc } }),
   (0x0B, short, illegalOp, { h with trap := { h.trap with rpc := high h.trap.rpc } }),
   (0x0C, v.extractLsb' 8 24 = 0#24, illegalOp, { h with trap := { h.trap with cause := v.setWidth 8 } }),
   (0x0D, True, illegalOp, { h with trap := { h.trap with targ := v } }),
   (0x0E, True, illegalOp, { h with trap := { h.trap with tpc := low h.trap.tpc } }),
   (0x0F, short, illegalOp, { h with trap := { h.trap with tpc := high h.trap.tpc } })]

/-- The delivery after a write of a register of its fragment `k`: HRJP keeps its address. -/
def Sys2Proof.Claims.afterHidwr (it : Intr) (k n : Nat) (h h' : Frag) (v : Word) : Intr :=
  { it with
    ents := Tab.put it.ents k (.frag h')
    rj := if n = 0x07 then Tab.put it.rj k ((hrjp it k h).extractLsb' 32 32 ++ v)
      else if n = 0x08 then Tab.put it.rj k ((v &&& 0xFFFFF#32) ++ (hrjp it k h).extractLsb' 0 32)
      else it.rj }

/-- R158: what each hidden register of the interrupted state reads, what a write changes, and the traps; full bits and counts are
read as they stand now (notes/assumptions 129). -/
def Sys2Proof.Claims.HiddenRegisters : Prop :=
  ∀ (s : State) (wid eid : Nat) (w : Wave) (f : Frag), Issuing s wid eid w f →
    (levelOf s w = 0 → ∀ d n : BitVec 8, Traps (.hidrd d n) s wid eid f priv 0 0 ∧ Traps (.hidwr n d) s wid eid f priv 0 0) ∧
    (levelOf s w = 1 → w.intr = none → ∀ d n : BitVec 8,
      Traps (.hidrd d n) s wid eid f illegalOp 0 0 ∧ Traps (.hidwr n d) s wid eid f illegalOp 0 0) ∧
    (∀ (it : Intr), w.intr = some it →
      let copies := it.cause = 0x18
      let emptyS := if copies then it.sEmpty else w.sEmpty
      let emptyV := if copies then it.vEmpty else w.vEmpty
      let counts := fun (c : List Nat) => BitVec.ofNat 32 ((c.zipIdx.map fun x => outstanding s wid x.1 * 2 ^ (6 * x.2)).sum)
      ((∀ x ∈ hiddenFrags it, (x.1, Entry.frag x.2) ∈ it.ents) ∧
        (hiddenFrags it).length = (it.ents.filter fun e => match e.2 with
          | .frag _ => true
          | .join _ => false).length ∧
        (hiddenFrags it).Pairwise fun x y => ∀ l < 32, y.2.memb.getLsbD l = true → ∃ m ≤ l, x.2.memb.getLsbD m = true) ∧
      (∀ d : BitVec 8, DstS w d →
        let Reads := fun (n : Nat) (v : Word) => ∃ t, exec (.hidrd d (BitVec.ofNat 8 n)) s = .next t ∧
          UnitEnds s t wid eid (w.setS d.toNat v) (afterUnit 4 true f)
        Reads 0x00 (BitVec.ofNat 32 (it.hsel + (hiddenFrags it).length * 2 ^ 8)) ∧
        (∀ k h, (hiddenFrags it)[it.hsel]? = some (k, h) → ∀ r ∈ fragRegs it k h, Reads r.1 r.2) ∧
        (∀ k < 6, ∃ v, Reads (0x10 + k) v ∧ ∀ i < 32, v.getLsbD i = !emptyS.contains (32 * k + i)) ∧
        (∀ k < 8, ∃ v, Reads (0x18 + k) v ∧
          ∀ i < 32, v.getLsbD i = (decide (32 * k + i < w.nvreg) && !emptyV.contains (32 * k + i))) ∧
        Reads 0x20 (counts [0, 1, 2, 3]) ∧ Reads 0x21 (counts [4, 5, 6, 7]) ∧
        ((hiddenFrags it)[it.hsel]? = none → ∀ n, 0x01 ≤ n → n ≤ 0x0F →
          Traps (.hidrd d (BitVec.ofNat 8 n)) s wid eid f illegalOp 0 0)) ∧
      (∀ a : BitVec 8, SrcS w a →
        let v := opS s wid w f a
        let T := fun n c => Traps (.hidwr (BitVec.ofNat 8 n) a) s wid eid f c 0 0
        (v.extractLsb' 14 18 = 0#18 → v.extractLsb' 5 3 = 0#3 → ∃ t, exec (.hidwr 0x00#8 a) s = .next t ∧
          UnitEnds s t wid eid { w with intr := some { it with hsel := v.toNat % 32 } } (afterUnit 4 true f)) ∧
        (v.extractLsb' 14 18 ≠ 0#18 ∨ v.extractLsb' 5 3 ≠ 0#3 → T 0x00 illegalOp) ∧
        (∀ k h, (hiddenFrags it)[it.hsel]? = some (k, h) → ∀ r ∈ fragWrites it k h v,
          (r.2.1 → ∃ t, exec (.hidwr (BitVec.ofNat 8 r.1) a) s = .next t ∧
            UnitEnds s t wid eid { w with intr := some (afterHidwr it k r.1 h r.2.2.2 v) } (afterUnit 4 true f)) ∧
          (¬ r.2.1 → T r.1 r.2.2.1)) ∧
        ((hiddenFrags it)[it.hsel]? = none → ∀ n, 0x01 ≤ n → n ≤ 0x0F → T n illegalOp) ∧
        (∀ n ∈ ([0x03, 0x10, 0x11, 0x12, 0x13, 0x14, 0x15, 0x18, 0x19, 0x1A, 0x1B, 0x1C, 0x1D, 0x1E, 0x1F, 0x20, 0x21] : List Nat),
          T n illegalOp)) ∧
      (∀ n d : BitVec 8, n.toNat = 0x16 ∨ n.toNat = 0x17 ∨ 0x22 ≤ n.toNat →
        Traps (.hidrd d n) s wid eid f illegalOp 0 0 ∧ Traps (.hidwr n d) s wid eid f illegalOp 0 0))

/-- R125, R126, R156 to R158, R384, R414, R417: system registers, the timebase and hidden registers. -/
def Obligations.SystemAndHiddenRegisters : Prop := SystemRegisters ∧ HiddenRegisters

namespace Sys2Proof.Claims

open Sys2Proof Sys2Proof.Machine

/-! ## Vector units (R163 to R173) -/

/-- No predicate is evaluated for the wave (R398, R400). -/
def Unwatched (s : State) (w : Wave) : Prop := watching s w = false

/-- The fragment issues vector units, and predicates are not evaluated for its wave. -/
def VecIssuing (s : State) (wid eid : Nat) (w : Wave) (f : Frag) : Prop :=
  Issuing s wid eid w f ∧ w.control = false ∧ Unwatched s w

/-- The flags that the lanes of a mask raise, together. -/
def lanesFlags (m : Word) (fl : Nat → Nat) : Nat := (lanesOf m).foldl (fun a l => a ||| fl l) 0

/-- The instruction completes: in each lane of `Active` the destination gets the words `k` computes from that lane's vector
operands and the scalar operands, and `fflags` collects the flags; no other lane, register or flag changes. -/
def VecCompletes (size : Nat) (i : Instr) (o : Opnds) (k : Frag → List Nat → List Nat → List Word × Nat) : Prop :=
  ∀ (s : State) (wid eid : Nat) (w : Wave) (f : Frag), VecIssuing s wid eid w f → o.Ready w f →
    let g := o.got s wid w f
    let lane := fun l => k f ((o.v.zip g.v).map fun (x, n) => vecVal w n x.cnt l) g.s
    ∃ t, exec i s = .next t ∧
      UnitEnds s t wid eid
        ((w.setLanes g.vd (match o.vd with | some d => d.2.1 | none => 0) f.active fun l => (lane l).1).raise
          (lanesFlags f.active fun l => (lane l).2))
        (afterUnit size true f)

/-- A vector source and destination field of one register are legal and full. -/
def SrcV (w : Wave) (f : Frag) (a : Nat) : Prop := VecIn w (vecNo f a) 1 false ∧ FullV w (vecNo f a) 1
def DstV (w : Wave) (f : Frag) (d : Nat) : Prop := DstVReady w f (d, 1, false)
/-- The same for a pair. -/
def SrcV64 (w : Wave) (f : Frag) (a : Nat) : Prop := VecIn w (vecNo f a) 2 true ∧ FullV w (vecNo f a) 2
def DstV64 (w : Wave) (f : Frag) (d : Nat) : Prop := DstVReady w f (d, 2, true)

/-- The registers of a lane as a word and as a pair. -/
def laneW (w : Wave) (f : Frag) (a l : Nat) : Word := w.vreg (vecNo f a) l
def laneD (w : Wave) (f : Frag) (a l : Nat) : DWord := w.vreg (vecNo f a + 1) l ++ w.vreg (vecNo f a) l
/-- The words of a pair. -/
def pairWords (x : DWord) : List Word := [x.extractLsb' 0 32, x.extractLsb' 32 32]

/-- A unit of three vector fields completes, d = `k a b` in every lane of `Active`. -/
def LaneOp (size : Nat) (i : Instr) (d a b : Nat) (k : Word → Word → Word) : Prop :=
  ∀ (s : State) (wid eid : Nat) (w : Wave) (f : Frag),
    VecIssuing s wid eid w f → SrcV w f a → SrcV w f b → DstV w f d →
    ∃ t, exec i s = .next t ∧
      UnitEnds s t wid eid (w.setLanes (vecNo f d) 1 f.active fun l => [k (laneW w f a l) (laneW w f b l)])
        (afterUnit size true f)

def Vec3 (i : BitVec 7 → BitVec 7 → BitVec 7 → Bool → Bool → Instr) (k : Word → Word → Word) : Prop :=
  ∀ (d a b : BitVec 7) (fa fb : Bool), LaneOp 4 (i d a b fa fb) d.toNat a.toNat b.toNat k

/-- The same for an instruction that also reads d. -/
def Vec3d (i : BitVec 7 → BitVec 7 → BitVec 7 → Bool → Bool → Instr) (k : Word → Word → Word → Word) : Prop :=
  ∀ (s : State) (wid eid : Nat) (w : Wave) (f : Frag) (d a b : BitVec 7) (fa fb : Bool),
    VecIssuing s wid eid w f → SrcV w f a.toNat → SrcV w f b.toNat → DstV w f d.toNat →
    ∃ t, exec (i d a b fa fb) s = .next t ∧
      UnitEnds s t wid eid
        (w.setLanes (vecNo f d.toNat) 1 f.active fun l =>
          [k (laneW w f d.toNat l) (laneW w f a.toNat l) (laneW w f b.toNat l)])
        (afterUnit 4 true f)

/-- A 16-bit form: d is the first source and the destination. -/
def Short (i : BitVec 6 → BitVec 5 → Instr) (k : Word → Word → Word) : Prop :=
  ∀ (d : BitVec 6) (b : BitVec 5), LaneOp 2 (i d b) d.toNat d.toNat b.toNat k

/-- An integer clamped to a range, as a word. -/
def clampWord (lo hi x : Int) : Word := BitVec.ofInt 32 (max lo (min hi x))

/-- An operation on each element of width `w`. -/
def perElem {W : Nat} (w : Nat) (op : BitVec w → BitVec w → BitVec w) (x y : BitVec W) : BitVec W :=
  BitVec.ofFnLE fun i : Fin W =>
    (op (x.extractLsb' (i.val / w * w) w) (y.extractLsb' (i.val / w * w) w)).getLsbD (i.val % w)

/-- The element types of VIX (R115): code, width, signed. -/
def vixTypes : List (BitVec 3 × Nat × Bool) :=
  [(0, 8, true), (1, 8, false), (2, 16, true), (3, 16, false), (4, 32, true)]

/-- A binary VIX instruction on the types listed; d is the first source. -/
def Vix2 (codes : List (BitVec 3)) (i : BitVec 7 → BitVec 7 → Bool → BitVec 3 → Instr)
    (op : (w : Nat) → Bool → BitVec w → BitVec w → BitVec w) : Prop :=
  ∀ (s : State) (wid eid : Nat) (w : Wave) (f : Frag) (d a : BitVec 7) (fa : Bool), VecIssuing s wid eid w f →
    (∀ p ∈ vixTypes, p.1 ∈ codes → SrcV w f a.toNat → DstV w f d.toNat →
      ∃ t, exec (i d a fa p.1) s = .next t ∧
        UnitEnds s t wid eid (w.setLanes (vecNo f d.toNat) 1 f.active fun l =>
          [perElem p.2.1 (op p.2.1 p.2.2) (laneW w f d.toNat l) (laneW w f a.toNat l)]) (afterUnit 4 true f)) ∧
    (6#3 ∈ codes → SrcV64 w f a.toNat → DstV64 w f d.toNat →
      ∃ t, exec (i d a fa 6#3) s = .next t ∧
        UnitEnds s t wid eid (w.setLanes (vecNo f d.toNat) 2 f.active fun l =>
          pairWords (op 64 true (laneD w f d.toNat l) (laneD w f a.toNat l))) (afterUnit 4 true f)) ∧
    (∀ c : BitVec 3, c ∉ codes → Traps (i d a fa c) s wid eid f illegalOp 0 0)

/-- A unary VIX instruction on the types listed. -/
def Vix1 (codes : List (BitVec 3)) (i : BitVec 7 → BitVec 7 → Bool → BitVec 3 → Instr)
    (op : (w : Nat) → BitVec w → BitVec w) : Prop :=
  ∀ (s : State) (wid eid : Nat) (w : Wave) (f : Frag) (d a : BitVec 7) (fa : Bool), VecIssuing s wid eid w f →
    (∀ p ∈ vixTypes, p.1 ∈ codes → SrcV w f a.toNat → DstV w f d.toNat →
      ∃ t, exec (i d a fa p.1) s = .next t ∧
        UnitEnds s t wid eid (w.setLanes (vecNo f d.toNat) 1 f.active fun l =>
          [perElem p.2.1 (fun x _ => op p.2.1 x) (laneW w f a.toNat l) 0#32]) (afterUnit 4 true f)) ∧
    (6#3 ∈ codes → SrcV64 w f a.toNat → DstV64 w f d.toNat →
      ∃ t, exec (i d a fa 6#3) s = .next t ∧
        UnitEnds s t wid eid (w.setLanes (vecNo f d.toNat) 2 f.active fun l =>
          pairWords (op 64 (laneD w f a.toNat l))) (afterUnit 4 true f)) ∧
    (∀ c : BitVec 3, c ∉ codes → Traps (i d a fa c) s wid eid f illegalOp 0 0)

/-- The types `.i8`, `.i16`, `.i32`, `.i64`; `.i32`, `.i64`; `.i8` to `.ui16`; and those with `.i64`. -/
def signedTypes : List (BitVec 3) := [0, 2, 4, 6]
def wordTypes : List (BitVec 3) := [4, 6]
def smallTypes : List (BitVec 3) := [0, 1, 2, 3]
def smallAnd64 : List (BitVec 3) := [0, 1, 2, 3, 6]

/-- An element's value under its type, and a value clamped to a type. -/
def asInt {w : Nat} (sg : Bool) (x : BitVec w) : Int := if sg then x.toInt else (x.toNat : Int)
def clampTo (w : Nat) (sg : Bool) (x : Int) : BitVec w :=
  if sg then BitVec.ofInt w (max (-(2 ^ (w - 1))) (min (2 ^ (w - 1) - 1) x)) else BitVec.ofInt w (max 0 (min (2 ^ w - 1) x))

/-- Bits set and leading zero bits of an element. -/
def popcount {w : Nat} (x : BitVec w) : Nat := ((List.range w).filter fun i => x.getLsbD i).length
def leadingZeros {w : Nat} (x : BitVec w) : Nat := ((List.range w).find? fun i => x.getLsbD (w - 1 - i)).getD w

/-- A comparison completes: bit L of d is 1 where lane L is in `Active` and the relation holds, and every other bit 0. -/
def Vcmp (i : BitVec 7 → BitVec 7 → BitVec 7 → Bool → Bool → Instr) (k : Word → Word → Bool) : Prop :=
  ∀ (s : State) (wid eid : Nat) (w : Wave) (f : Frag) (d a b : BitVec 7) (fa fb : Bool),
    VecIssuing s wid eid w f → SrcV w f a.toNat → SrcV w f b.toNat → DstSReady w (d.toNat, 1, false) →
    ∃ t m, exec (i d a b fa fb) s = .next t ∧ UnitEnds s t wid eid (w.setS d.toNat m) (afterUnit 4 true f) ∧
      ∀ l, l < 32 → m.getLsbD l = (f.active.getLsbD l && k (laneW w f a.toNat l) (laneW w f b.toNat l))

end Sys2Proof.Claims

open Sys2Proof Sys2Proof.Machine Sys2Proof.Claims

/-- R167: what each V-layout integer instruction writes in the lanes of `Active`; no other lane changes. -/
def Sys2Proof.Claims.VectorIntegerResults : Prop :=
  Vec3 .vaddI32 (fun a b => a + b) ∧
  Vec3 .vsubI32 (fun a b => a - b) ∧
  Vec3 .vmulI32 (fun a b => a * b) ∧
  Vec3 .vmulhI32 (fun a b => (a.signExtend 64 * b.signExtend 64).extractLsb' 32 32) ∧
  Vec3 .vmulhUi32 (fun a b => (a.setWidth 64 * b.setWidth 64).extractLsb' 32 32) ∧
  Vec3d .vmadI32 (fun d a b => a * b + d) ∧
  Vec3 .vaddsatI32 (fun a b => clampWord (-2 ^ 31) (2 ^ 31 - 1) (a.toInt + b.toInt)) ∧
  Vec3 .vaddsatUi32 (fun a b => clampWord 0 (2 ^ 32 - 1) (a.toNat + b.toNat)) ∧
  Vec3 .vsubsatI32 (fun a b => clampWord (-2 ^ 31) (2 ^ 31 - 1) (a.toInt - b.toInt)) ∧
  Vec3 .vsubsatUi32 (fun a b => clampWord 0 (2 ^ 32 - 1) ((a.toNat : Int) - b.toNat)) ∧
  Vec3 .vminI32 (fun a b => if a.sle b then a else b) ∧
  Vec3 .vminUi32 (fun a b => if a ≤ b then a else b) ∧
  Vec3 .vmaxI32 (fun a b => if a.sle b then b else a) ∧
  Vec3 .vmaxUi32 (fun a b => if a ≤ b then b else a) ∧
  Vec3 .vand (fun a b => a &&& b) ∧
  Vec3 .vor (fun a b => a ||| b) ∧
  Vec3 .vxor (fun a b => a ^^^ b) ∧
  Vec3 .vandn (fun a b => a &&& ~~~b) ∧
  Vec3 .vshl (fun a b => a <<< (b.toNat % 32)) ∧
  Vec3 .vrot (fun a b => a.rotateLeft (b.toNat % 32)) ∧
  Vec3 .vshr (fun a b => a >>> (b.toNat % 32)) ∧
  Vec3 .vsra (fun a b => a.sshiftRight (b.toNat % 32)) ∧
  Vec3 .vbfeUi32 (fun a b => extracted a (b &&& ~~~0x10000#32)) ∧
  Vec3 .vbfeI32 (fun a b => extracted a (b ||| 0x10000#32)) ∧
  Vec3d .vbfi (fun d a b => (d &&& ~~~(bfMask b)) ||| ((a <<< bfOff b) &&& bfMask b))

/-- R106: the integer 16-bit instructions have the effect of their 32-bit forms with a = d, and `vmov` copies b. -/
def Sys2Proof.Claims.ShortIntegerResults : Prop :=
  (∀ (s : State) (wid eid : Nat) (w : Wave) (f : Frag) (d : BitVec 6) (b : BitVec 5),
    VecIssuing s wid eid w f → SrcV w f b.toNat → DstV w f d.toNat →
    ∃ t, exec (.vmovShort d b) s = .next t ∧
      UnitEnds s t wid eid (w.setLanes (vecNo f d.toNat) 1 f.active fun l => [laneW w f b.toNat l]) (afterUnit 2 true f)) ∧
  Short .vaddI32Short (fun d b => d + b) ∧
  Short .vsubI32Short (fun d b => d - b) ∧
  Short .vmulI32Short (fun d b => d * b) ∧
  Short .vandShort (fun d b => d &&& b) ∧
  Short .vorShort (fun d b => d ||| b) ∧
  Short .vxorShort (fun d b => d ^^^ b) ∧
  Short .vandnShort (fun d b => d &&& ~~~b) ∧
  Short .vshlShort (fun d b => d <<< (b.toNat % 32)) ∧
  Short .vshrShort (fun d b => d >>> (b.toNat % 32)) ∧
  Short .vsraShort (fun d b => d.sshiftRight (b.toNat % 32))

/-- R169: the VIX functions act on each element of the type; a type that R169 does not list for a function traps. -/
def Sys2Proof.Claims.ElementIntegerResults : Prop :=
  Vix1 wordTypes .vixVmov (fun _ x => x) ∧
  Vix1 signedTypes .vixVabs (fun _ x => if x.msb then -x else x) ∧
  Vix1 signedTypes .vixVneg (fun _ x => -x) ∧
  Vix1 wordTypes .vixVnot (fun _ x => ~~~x) ∧
  Vix1 wordTypes .vixVpopc (fun w x => BitVec.ofNat w (popcount x)) ∧
  Vix1 wordTypes .vixVclz (fun w x => BitVec.ofNat w (leadingZeros x)) ∧
  Vix1 wordTypes .vixVbrev (fun _ x => x.reverse) ∧
  Vix2 smallAnd64 .vixVadd (fun _ _ x y => x + y) ∧
  Vix2 smallAnd64 .vixVsub (fun _ _ x y => x - y) ∧
  Vix2 smallAnd64 .vixVmul (fun _ _ x y => x * y) ∧
  Vix2 smallTypes .vixVmulh (fun w sg x y => BitVec.ofInt w (asInt sg x * asInt sg y / 2 ^ w)) ∧
  Vix2 smallTypes .vixVaddsat (fun w sg x y => clampTo w sg (asInt sg x + asInt sg y)) ∧
  Vix2 smallTypes .vixVsubsat (fun w sg x y => clampTo w sg (asInt sg x - asInt sg y)) ∧
  Vix2 smallAnd64 .vixVmin (fun _ sg x y => if asInt sg x ≤ asInt sg y then x else y) ∧
  Vix2 smallAnd64 .vixVmax (fun _ sg x y => if asInt sg x ≤ asInt sg y then y else x) ∧
  Vix2 smallAnd64 .vixVshl (fun w _ x y => x <<< (y.toNat % w)) ∧
  Vix2 smallAnd64 .vixVshr (fun w _ x y => x >>> (y.toNat % w)) ∧
  Vix2 smallAnd64 .vixVsra (fun w _ x y => x.sshiftRight (y.toNat % w)) ∧
  Vix2 smallAnd64 .vixVrot (fun w _ x y => x.rotateLeft (y.toNat % w))

/-- R170, R171, R173: immediates, moves, selection and integer comparison. -/
def Sys2Proof.Claims.VectorMovesAndComparisons : Prop :=
  (∀ (s : State) (wid eid : Nat) (w : Wave) (f : Frag), VecIssuing s wid eid w f →
    (∀ (d : BitVec 8) (i : BitVec 16), d.toNat < w.nvreg → d.toNat ∉ w.vEmpty → saveRefuses w = false →
      (∃ t, exec (.vli .none d i) s = .next t ∧
        UnitEnds s t wid eid (w.setLanes d.toNat 1 f.active fun _ => [i.signExtend 32]) (afterUnit 4 true f)) ∧
      ∀ hi : BitVec 16, ∃ t, exec (.vli (.imm hi) d i) s = .next t ∧
        UnitEnds s t wid eid (w.setLanes d.toNat 1 f.active fun _ => [hi ++ i]) (afterUnit 8 true f)) ∧
    (∀ (d : BitVec 8) (i : BitVec 16), w.nvreg ≤ d.toNat → Traps (.vli .none d i) s wid eid f regBound 0 0) ∧
    (∀ (d : BitVec 7) (a : BitVec 8), SrcS w a → DstV w f d.toNat → ∃ t, exec (.vmovs d a) s = .next t ∧
      UnitEnds s t wid eid (w.setLanes (vecNo f d.toNat) 1 f.active fun _ => [opS s wid w f a]) (afterUnit 4 true f)) ∧
    (∀ (d a : BitVec 7) (m : BitVec 8) (fa : Bool), SrcS w m → SrcV w f a.toNat → DstV w f d.toNat →
      ∃ t, exec (.vsel d a m fa) s = .next t ∧
        UnitEnds s t wid eid
          (w.setLanes (vecNo f d.toNat) 1 (f.active &&& opS s wid w f m) fun l => [laneW w f a.toNat l])
          (afterUnit 4 true f))) ∧
  Vcmp .vcmpEqI32 (fun a b => a == b) ∧
  Vcmp .vcmpNeI32 (fun a b => a != b) ∧
  Vcmp .vcmpLtI32 (fun a b => a.slt b) ∧
  Vcmp .vcmpLtUi32 (fun a b => a.ult b) ∧
  Vcmp .vcmpLeI32 (fun a b => a.sle b) ∧
  Vcmp .vcmpLeUi32 (fun a b => a.ule b)

/-- R95, R163: a vector write reaches the lanes of its mask and the registers of its range, and nothing else. -/
def Sys2Proof.Claims.LaneWrites : Prop :=
  ∀ (w : Wave) (n cnt : Nat) (m : Word) (val : Nat → List Word), Tab.wf w.vregs = true → (∀ l, (val l).length = cnt) →
    let w' := w.setLanes n cnt m val
    Tab.wf w'.vregs = true ∧ w'.sregs = w.sregs ∧ w'.fflags = w.fflags ∧ w'.tiles = w.tiles ∧
    ∀ r l, l < 32 → w'.vreg r l =
      if n ≤ r ∧ r < n + cnt ∧ m.getLsbD l = true then (val l).getD (r - n) 0 else w.vreg r l

/-- R95, R106, R163 to R173: vector integer instructions in 32-bit and 16-bit forms, element types, moves and comparisons. -/
def Obligations.VectorIntegerUnits : Prop := VectorIntegerResults ∧ ShortIntegerResults ∧ ElementIntegerResults ∧ VectorMovesAndComparisons ∧ LaneWrites

namespace Sys2Proof.Claims

open Sys2Proof Sys2Proof.Machine

/-! ## Floating-point vector units (R72 to R83, R174 to R181) -/

/-- Registers of a value of a format. -/
def regsOf (F : Fmt) : Nat := if F.width = 64 then 2 else 1
/-- A source of `c` registers, a pair where `c` is 2. -/
def srcOf (c fd : Nat) : VSrc := { fd := fd, cnt := c, pair := c == 2 }

/-- RND of the fragment (R75). -/
def rnd (f : Frag) : Nat := f.fmt.toNat % 4
/-- SAT of the fragment (R75). -/
def sat (f : Frag) : Bool := f.fmt.getLsbD 2

/-- A unit on two sources of a format: the result is `k RND a b`. -/
def FpUnit (size : Nat) (F : Fmt) (i : Instr) (d a b : Nat) (fa fb : Bool) (k : Nat → Nat → Nat → Nat × Nat) : Prop :=
  VecCompletes size i
    { v := [{ srcOf (regsOf F) a with tie := fa }, { srcOf (regsOf F) b with tie := fb }],
      vd := some (d, regsOf F, regsOf F == 2) }
    fun f v _ => let r := k (rnd f) (v.getD 0 0) (v.getD 1 0); (wordsOf (regsOf F) r.1, r.2)

def Fp2 (F : Fmt) (i : BitVec 7 → BitVec 7 → BitVec 7 → Bool → Bool → Instr) (k : Nat → Nat → Nat → Nat × Nat) : Prop :=
  ∀ (d a b : BitVec 7) (fa fb : Bool), FpUnit 4 F (i d a b fa fb) d.toNat a.toNat b.toNat fa fb k

/-- The same with the addend d: the result is `k RND a b d`. -/
def Fp3 (F : Fmt) (i : BitVec 7 → BitVec 7 → BitVec 7 → Bool → Bool → Instr) (k : Nat → Nat → Nat → Nat → Nat × Nat) : Prop :=
  ∀ (d a b : BitVec 7) (fa fb : Bool), VecCompletes 4 (i d a b fa fb)
    { v := [{ srcOf (regsOf F) a.toNat with tie := fa }, { srcOf (regsOf F) b.toNat with tie := fb }, srcOf (regsOf F) d.toNat],
      vd := some (d.toNat, regsOf F, regsOf F == 2) }
    fun f v _ => let r := k (rnd f) (v.getD 0 0) (v.getD 1 0) (v.getD 2 0); (wordsOf (regsOf F) r.1, r.2)

/-- Both 16-bit elements of a register, each by itself; flags combine by OR (R174). -/
def bothHalves (k : Nat → Nat → Nat → Nat × Nat) (x y z : Nat) : Nat × Nat :=
  let l := k (x % 2 ^ 16) (y % 2 ^ 16) (z % 2 ^ 16)
  let h := k (x / 2 ^ 16 % 2 ^ 16) (y / 2 ^ 16 % 2 ^ 16) (z / 2 ^ 16 % 2 ^ 16)
  (l.1 + 2 ^ 16 * h.1, l.2 ||| h.2)

def Packed2 (i : BitVec 7 → BitVec 7 → BitVec 7 → Bool → Bool → Instr) (k : Nat → Nat → Nat → Nat × Nat) : Prop :=
  Fp2 FP32 i fun r x y => bothHalves (fun x y _ => k r x y) x y 0

/-- A floating-point comparison completes with the mask of the lanes where it holds, and its flags (R173). -/
def FpCmp (F : Fmt) (cc : Nat) (i : BitVec 7 → BitVec 7 → BitVec 7 → Bool → Bool → Instr) : Prop :=
  ∀ (s : State) (wid eid : Nat) (w : Wave) (f : Frag) (d a b : BitVec 7) (fa fb : Bool), VecIssuing s wid eid w f →
    (srcOf (regsOf F) a.toNat).Ready w f → (srcOf (regsOf F) b.toNat).Ready w f → DstSReady w (d.toNat, 1, false) →
    let cmp := fun l => fcompare F cc (vecVal w (vecNo f a.toNat) (regsOf F) l) (vecVal w (vecNo f b.toNat) (regsOf F) l)
    ∃ t m, exec (i d a b fa fb) s = .next t ∧
      UnitEnds s t wid eid ((w.setS d.toNat m).raise (lanesFlags f.active fun l => (cmp l).2)) (afterUnit 4 true f) ∧
      ∀ l, l < 32 → m.getLsbD l = (f.active.getLsbD l && (cmp l).1)

/-- A unary unit on one value per lane, from `sc` registers to `dc`. -/
def Fp1 (i : BitVec 7 → BitVec 7 → Bool → Instr) (sc dc : Nat) (k : Frag → Nat → Nat × Nat) : Prop :=
  ∀ (d a : BitVec 7) (fa : Bool), VecCompletes 4 (i d a fa)
    { v := [{ srcOf sc a.toNat with tie := fa }], vd := some (d.toNat, dc, dc == 2) }
    fun f v _ => (wordsOf dc (k f (v.getD 0 0)).1, (k f (v.getD 0 0)).2)

/-- A VFX type code that is not among those listed traps ILLEGAL_OP. -/
def VfxTraps (codes : List (BitVec 3)) (i : BitVec 7 → BitVec 7 → Bool → BitVec 3 → Instr) : Prop :=
  ∀ (s : State) (wid eid : Nat) (w : Wave) (f : Frag) (d a : BitVec 7) (fa : Bool) (c : BitVec 3),
    Issuing s wid eid w f → c ∉ codes → Traps (i d a fa c) s wid eid f illegalOp 0 0

/-- A VFX function on `.f32` and `.f64`, or on `.f32` alone. -/
def Vfx (i : BitVec 7 → BitVec 7 → Bool → BitVec 3 → Instr) (k : Fmt → Nat → Nat → Nat × Nat) : Prop :=
  Fp1 (fun d a fa => i d a fa 0#3) 1 1 (fun f x => k FP32 (rnd f) x) ∧
  Fp1 (fun d a fa => i d a fa 1#3) 2 2 (fun f x => k FP64 (rnd f) x) ∧ VfxTraps [0, 1] i
def Vfx32 (i : BitVec 7 → BitVec 7 → Bool → BitVec 3 → Instr) (k : Nat → Nat → Nat × Nat) : Prop :=
  Fp1 (fun d a fa => i d a fa 0#3) 1 1 (fun f x => k (rnd f) x) ∧ VfxTraps [0] i

/-- `vabs` and `vneg`: the sign bit is cleared or flipped, a NaN becomes canonical, and no flag is raised. -/
def VfxSign (i : BitVec 7 → BitVec 7 → Bool → BitVec 3 → Instr) (negate : Bool) : Prop :=
  Fp1 (fun d a fa => i d a fa 0#3) 1 1 (fun _ x => (fsignop FP32 negate x, 0)) ∧
  Fp1 (fun d a fa => i d a fa 1#3) 2 2 (fun _ x => (fsignop FP64 negate x, 0)) ∧
  Fp1 (fun d a fa => i d a fa 2#3) 1 1 (fun _ x => (bothHalves (fun x _ _ => (fsignop FP16 negate x, 0)) x 0 0)) ∧
  Fp1 (fun d a fa => i d a fa 3#3) 1 1 (fun _ x => (bothHalves (fun x _ _ => (fsignop BF16 negate x, 0)) x 0 0)) ∧
  VfxTraps [0, 1, 2, 3] i

/-- The formats and integer types by their VCVT codes (R121). -/
def floatCodes : List (BitVec 3 × Fmt) := [(0, FP64), (1, FP32), (2, FP16), (3, BF16), (4, E4M3), (5, E5M2), (6, E2M1)]
def intCodes : List (BitVec 3 × Nat × Bool) :=
  [(0, 8, true), (1, 8, false), (2, 16, true), (3, 16, false), (4, 32, true), (5, 32, false), (6, 64, true)]
/-- Registers of a value of `n` bits. -/
def regsFor (n : Nat) : Nat := if n = 64 then 2 else 1

/-- The formats IEEE 754 defines here, with BF16. -/
def arithmeticFormats : List Fmt := [FP64, FP32, FP16, BF16]

/-- Twice the distance of m × 2^e from n × 2^q, as integers over the smaller power. -/
def twiceError (m : Nat) (e : Int) (n : Nat) (q : Int) : Int :=
  2 * ((n : Int) * 2 ^ (q - min e q).toNat - (m : Int) * 2 ^ (e - min e q).toNat)

end Sys2Proof.Claims

open Sys2Proof Sys2Proof.Machine Sys2Proof.Claims

/-- R106, R174: floating-point arithmetic in every lane of `Active`, with its flags. -/
def Sys2Proof.Claims.FloatingPointArithmetic : Prop :=
  (Fp2 FP32 .vaddF32 (fadd FP32) ∧ Fp2 FP32 .vsubF32 (fsub FP32) ∧ Fp2 FP64 .vaddF64 (fadd FP64) ∧
   Fp2 FP64 .vsubF64 (fsub FP64) ∧ Fp2 FP32 .vmulF32 (fmul FP32) ∧ Fp2 FP64 .vmulF64 (fmul FP64) ∧
   Fp2 FP32 .vdivF32 (fdiv FP32) ∧ Fp2 FP64 .vdivF64 (fdiv FP64) ∧
   Fp2 FP32 .vminF32 (fun _ => minMaxNum FP32 false) ∧ Fp2 FP32 .vmaxF32 (fun _ => minMaxNum FP32 true)) ∧
  (Fp3 FP32 .vfmaF32 (ffma FP32) ∧ Fp3 FP64 .vfmaF64 (ffma FP64) ∧
   Fp3 FP32 .vfmaF16x2 (fun r => bothHalves (ffma FP16 r)) ∧ Fp3 FP32 .vfmaBf16x2 (fun r => bothHalves (ffma BF16 r))) ∧
  (Packed2 .vaddF16x2 (fadd FP16) ∧ Packed2 .vaddBf16x2 (fadd BF16) ∧ Packed2 .vmulF16x2 (fmul FP16) ∧
   Packed2 .vmulBf16x2 (fmul BF16) ∧ Packed2 .vminF16x2 (fun _ => minMaxNum FP16 false) ∧
   Packed2 .vminBf16x2 (fun _ => minMaxNum BF16 false) ∧ Packed2 .vmaxF16x2 (fun _ => minMaxNum FP16 true) ∧
   Packed2 .vmaxBf16x2 (fun _ => minMaxNum BF16 true)) ∧
  ∀ (d : BitVec 6) (b : BitVec 5),
    FpUnit 2 FP32 (.vaddF32Short d b) d.toNat d.toNat b.toNat false false (fadd FP32) ∧
    FpUnit 2 FP32 (.vsubF32Short d b) d.toNat d.toNat b.toNat false false (fsub FP32) ∧
    FpUnit 2 FP32 (.vmulF32Short d b) d.toNat d.toNat b.toNat false false (fmul FP32) ∧
    FpUnit 2 FP32 (.vminF32Short d b) d.toNat d.toNat b.toNat false false (fun _ => minMaxNum FP32 false) ∧
    FpUnit 2 FP32 (.vmaxF32Short d b) d.toNat d.toNat b.toNat false false (fun _ => minMaxNum FP32 true)

/-- R173: floating-point comparisons. -/
def Sys2Proof.Claims.FloatingPointComparisons : Prop :=
  FpCmp FP32 0 .vcmpEqF32 ∧ FpCmp FP64 0 .vcmpEqF64 ∧ FpCmp FP32 1 .vcmpNeF32 ∧ FpCmp FP64 1 .vcmpNeF64 ∧
  FpCmp FP32 2 .vcmpLtF32 ∧ FpCmp FP64 2 .vcmpLtF64 ∧ FpCmp FP32 3 .vcmpLeF32 ∧ FpCmp FP64 3 .vcmpLeF64

/-- R106, R173, R174: floating-point arithmetic, in 32-bit and 16-bit forms, and comparisons. -/
def Obligations.FloatArithmeticAndComparisons : Prop := FloatingPointArithmetic ∧ FloatingPointComparisons

/-- R175, R176, R177: the VFX functions, and the types that each does not take. -/
def Sys2Proof.Claims.FloatingPointFunctions : Prop :=
  VfxSign .vfxVabs false ∧ VfxSign .vfxVneg true ∧ Vfx .vfxVrnd fround ∧ Vfx32 .vfxVfrac ffrac ∧
  Vfx .vfxVclass (fun F _ x => (fclass F x, 0)) ∧ Vfx .vfxVsqrt fsqrt ∧
  Vfx32 .vfxVrcp (fun _ => approxFn 6) ∧ Vfx32 .vfxVrsq (fun _ => approxFn 7) ∧ Vfx32 .vfxVexp2 (fun _ => approxFn 8) ∧
  Vfx32 .vfxVlog2 (fun _ => approxFn 9) ∧ Vfx32 .vfxVsin (fun _ => approxFn 10) ∧ Vfx32 .vfxVcos (fun _ => approxFn 11) ∧
  Vfx32 .vfxVtanh (fun _ => approxFn 12)

/-- R178, R179: conversions between every pair of codes, and packing. -/
def Sys2Proof.Claims.Conversions : Prop :=
  (∀ x ∈ floatCodes, ∀ y ∈ floatCodes, x.1 ≠ y.1 →
    Fp1 (fun d a fa => .vcvtFloatFromFloat d a y.1 x.1 fa) (regsOf y.2) (regsOf x.2) fun f v =>
      cvtFF x.2 y.2 (rnd f) (sat f) (v % 2 ^ y.2.width)) ∧
  (∀ x ∈ floatCodes, ∀ y ∈ intCodes,
    Fp1 (fun d a fa => .vcvtFloatFromInteger d a y.1 x.1 fa) (regsFor y.2.1) (regsOf x.2) fun f v =>
      cvtFI x.2 (rnd f) (elemInt y.2.1 y.2.2 (v % 2 ^ y.2.1))) ∧
  (∀ x ∈ intCodes, ∀ y ∈ floatCodes,
    Fp1 (fun d a fa => .vcvtIntegerFromFloat d a y.1 x.1 fa) (regsOf y.2) (regsFor x.2.1) fun f v =>
      cvtIF x.2.1 x.2.2 y.2 (rnd f) (v % 2 ^ y.2.width)) ∧
  (∀ x ∈ intCodes, ∀ y ∈ intCodes, x.1 ≠ y.1 →
    Fp1 (fun d a fa => .vcvtIntegerFromInteger d a y.1 x.1 fa) (regsFor y.2.1) (regsFor x.2.1) fun _ v =>
      (wrap x.2.1 (clampInt x.2.1 x.2.2 (elemInt y.2.1 y.2.2 (v % 2 ^ y.2.1))).1, 0)) ∧
  (∀ (n : BitVec 3) (N : Fmt) (wc : BitVec 3) (W : Fmt), (n, N) ∈ floatCodes → (wc, W) ∈ floatCodes → 4 ≤ n.toNat →
    1 ≤ wc.toNat → wc.toNat ≤ 3 → ∀ (d a : BitVec 7) (fa : Bool),
    let k := if N.width = 4 then 8 else 4
    (VecCompletes 4 (.vpack d a n wc fa) { v := [{ fd := a.toNat, cnt := k, tie := fa }], vd := some (d.toNat, 1, false) }
      fun f v _ =>
        let r := (List.range k).map fun i => cvtFF N W (rnd f) (sat f) (v.getD 0 0 / 2 ^ (32 * i) % 2 ^ W.width)
        (wordsOf 1 ((r.zipIdx).foldl (fun acc (x, i) => acc + x.1 * 2 ^ (N.width * i)) 0), r.foldl (fun fl x => fl ||| x.2) 0)) ∧
    (VecCompletes 4 (.vunpack d a n wc fa) { v := [{ fd := a.toNat, tie := fa }], vd := some (d.toNat, k, false) }
      fun f v _ =>
        let r := (List.range k).map fun i => cvtFF W N (rnd f) false (v.getD 0 0 / 2 ^ (N.width * i) % 2 ^ N.width)
        (r.map fun x => BitVec.ofNat 32 x.1, r.foldl (fun fl x => fl ||| x.2) 0)))

/-- R180, R181: the dot products. -/
def Sys2Proof.Claims.DotProducts : Prop :=
  Vec3d .vdotI8x4 (fun d a b => d + BitVec.ofInt 32 (((List.range 4).map fun i =>
    (a.extractLsb' (8 * i) 8).toInt * (b.extractLsb' (8 * i) 8).toInt).sum)) ∧
  Fp3 FP32 .vdotE4m3x4 (fdot E4M3 4) ∧ Fp3 FP32 .vdotBf16x2 (fdot BF16 2) ∧
  ∀ (d a b : BitVec 7) (fa fb : Bool), VecCompletes 4 (.vdotE2m1b d a b fa fb)
    { v := [{ srcOf 2 a.toNat with tie := fa }, { srcOf 2 b.toNat with tie := fb }, srcOf 1 d.toNat],
      vd := some (d.toNat, 1, false) }
    fun f v _ => let r := fdotBlock (rnd f) (v.getD 0 0) (v.getD 1 0) (v.getD 2 0); (wordsOf 1 r.1, r.2)

/-- R178 to R181: conversions, packing and dot products. -/
def Obligations.ConversionsAndDotProducts : Prop := Conversions ∧ DotProducts

/-- R72, R73, R74: NaN results are canonical, NV is raised for signalling operands and invalid operations, and MinNum and
MaxNum return the other operand. -/
def Sys2Proof.Claims.NaNRules : Prop :=
  ∀ F ∈ arithmeticFormats, ∀ (r a b c : Nat),
    let nv := fun (x : Bool) => if x then flNV else 0
    (((unpack F a).isNan = true ∨ (unpack F b).isNan = true) →
      let sig := (unpack F a).isSig || (unpack F b).isSig
      fadd F r a b = (F.nan, nv sig) ∧ fsub F r a b = (F.nan, nv sig) ∧ fmul F r a b = (F.nan, nv sig) ∧
      fdiv F r a b = (F.nan, nv sig)) ∧
    (((unpack F a).isNan = true ∨ (unpack F b).isNan = true ∨ (unpack F c).isNan = true) → (ffma F r a b c).1 = F.nan) ∧
    ((unpack F a).isNan = true → (unpack F b).isNan = false →
      (minMaxNum F false a b).1 = b ∧ (minMaxNum F true a b).1 = b ∧ (minMaxNum F false b a).1 = b ∧
      (minMaxNum F true b a).1 = b) ∧
    ((unpack F a).isNan = true → (unpack F b).isNan = true →
      (minMaxNum F false a b).1 = F.nan ∧ (minMaxNum F true a b).1 = F.nan) ∧
    (∀ n : Bool, unpack F a = .inf n → unpack F b = .inf (!n) → fadd F r a b = (F.nan, flNV)) ∧
    (∀ n : Bool, unpack F a = .inf n → (unpack F b).isZero = true → fmul F r a b = (F.nan, flNV)) ∧
    ((unpack F a).isZero = true → (unpack F b).isZero = true → fdiv F r a b = (F.nan, flNV)) ∧
    (∀ (m : Nat) (e : Int), unpack F a = .num true m e → m ≠ 0 → fsqrt F r a = (F.nan, flNV))

/-- R78: rounding a magnitude to a multiple of a power of two obeys the mode, for either sign. -/
def Sys2Proof.Claims.RoundingModes : Prop :=
  ∀ (neg : Bool) (m : Nat) (e q : Int),
    let err := fun (r : Nat) => twiceError m e (quantize r neg m e q).1 q
    let unit := (2 : Int) ^ (q - min e q).toNat
    (∀ r, r < 4 → -2 * unit < err r ∧ err r < 2 * unit ∧ ((quantize r neg m e q).2 = false ↔ err r = 0)) ∧
    (-unit ≤ err 0 ∧ err 0 ≤ unit ∧ ((err 0 = unit ∨ err 0 = -unit) → (quantize 0 neg m e q).1 % 2 = 0)) ∧
    err 1 ≤ 0 ∧
    (if neg then 0 ≤ err 2 else err 2 ≤ 0) ∧
    (if neg then err 3 ≤ 0 else 0 ≤ err 3)

/-- R176, R177: `vclass` sets exactly one bit, and the approximating functions give the results R177 states for special
inputs whatever value the model leaves free. -/
def Sys2Proof.Claims.ClassesAndSpecialInputs : Prop :=
  (∀ F ∈ [FP32, FP64], ∀ a, ∃ k, k < 10 ∧ fclass F a = 2 ^ k) ∧
  (∀ k, 6 ≤ k → k ≤ 12 → ∀ a, (unpack FP32 a).isNan = true →
    approxFn k a = (0x7FC00000, if (unpack FP32 a).isSig then flNV else 0)) ∧
  (∀ (n : Bool) (a : Nat) (e : Int), unpack FP32 a = .num n 0 e →
    approxFn 6 a = (FP32.inf n, flDZ) ∧ approxFn 7 a = (FP32.inf n, flDZ) ∧ approxFn 9 a = (FP32.inf true, flDZ) ∧
    approxFn 10 a = (FP32.sign n, 0) ∧ approxFn 12 a = (FP32.sign n, 0)) ∧
  (∀ (n : Bool) (a : Nat), unpack FP32 a = .inf n →
    approxFn 6 a = (FP32.sign n, 0) ∧ approxFn 10 a = (FP32.nan, flNV) ∧ approxFn 11 a = (FP32.nan, flNV)) ∧
  (∀ (a m : Nat) (e : Int), unpack FP32 a = .num true m e → m ≠ 0 →
    approxFn 7 a = (FP32.nan, flNV) ∧ approxFn 9 a = (FP32.nan, flNV))

/-- R72 to R74, R78, R175 to R177: floating-point functions, NaN results, rounding modes, classes and special inputs. -/
def Obligations.FloatFunctionsAndSpecialResults : Prop := FloatingPointFunctions ∧ NaNRules ∧ RoundingModes ∧ ClassesAndSpecialInputs

namespace Sys2Proof.Claims

open Sys2Proof Sys2Proof.Machine

/-! ## Cross-lane instructions, the crossbar and the decoder (R164, R172, R182 to R196) -/

/-- A unit gives each lane L of `Active` the word `k w f a L`, from all lanes of the register in a. -/
def CrossUnit (i : BitVec 7 → BitVec 7 → Bool → Instr) (k : Frag → (Nat → Word) → Nat → Word) : Prop :=
  ∀ (s : State) (wid eid : Nat) (w : Wave) (f : Frag) (d a : BitVec 7) (fa : Bool),
    VecIssuing s wid eid w f → SrcV w f a.toNat → DstV w f d.toNat →
    ∃ t, exec (i d a fa) s = .next t ∧
      UnitEnds s t wid eid (w.setLanes (vecNo f d.toNat) 1 f.active fun l => [k f (laneW w f a.toNat) l]) (afterUnit 4 true f)

/-- A unit writes scalar d from the lanes of the register in a. -/
def ToScalar (i : BitVec 7 → BitVec 7 → Bool → Instr) (k : Frag → (Nat → Word) → Word) : Prop :=
  ∀ (s : State) (wid eid : Nat) (w : Wave) (f : Frag) (d a : BitVec 7) (fa : Bool),
    VecIssuing s wid eid w f → SrcV w f a.toNat → DstSReady w (d.toNat, 1, false) →
    ∃ t, exec (i d a fa) s = .next t ∧ UnitEnds s t wid eid (w.setS d.toNat (k f (laneW w f a.toNat))) (afterUnit 4 true f)

/-- The same with flags. -/
def ToScalarF (i : BitVec 7 → BitVec 7 → Bool → Instr) (k : Frag → (Nat → Word) → Word × (Nat → Nat)) : Prop :=
  ∀ (s : State) (wid eid : Nat) (w : Wave) (f : Frag) (d a : BitVec 7) (fa : Bool),
    VecIssuing s wid eid w f → SrcV w f a.toNat → DstSReady w (d.toNat, 1, false) →
    let r := k f (laneW w f a.toNat)
    ∃ t, exec (i d a fa) s = .next t ∧
      UnitEnds s t wid eid ((w.setS d.toNat r.1).raise (lanesFlags f.active r.2)) (afterUnit 4 true f)

/-- Lane j where there is one, else the lane itself (R182). -/
def laneOr (v : Nat → Word) (l : Nat) (j : Int) : Word := if 0 ≤ j ∧ j ≤ 31 then v j.toNat else v l

/-- The words of the lanes of `Active`, rising. -/
def activeWords (f : Frag) (v : Nat → Word) : List Word := (lanesOf f.active).map v

/-- The values that an inclusive or exclusive scan delivers, for words without flags (R183). -/
def scanWords (k : Word → Word → Word) (ident : Word) (excl : Bool) : Option Word → List Word → List Word
  | _, [] => []
  | acc, x :: t =>
    let next := match acc with
      | none => x
      | some y => k y x
    (if excl then acc.getD ident else next) :: scanWords k ident excl (some next) t

/-- An integer scan: the lanes of `Active` receive the values in ascending order. -/
def IntScan (e : BitVec 1) (o : BitVec 2) (k : Word → Word → Word) (ident : Word) : Prop :=
  CrossUnit (fun d a fa => .vscan d a e 0#1 o fa) fun f v l =>
    (scanWords k ident (e == 1#1) none (activeWords f v)).getD ((lanesOf f.active).idxOf l) 0

/-- An integer reduction of the lanes of `Active`. -/
def IntReduce (i : BitVec 7 → BitVec 7 → Bool → Instr) (k : Word → Word → Word) (ident : Word) : Prop :=
  ToScalar i fun f v => (activeWords f v).foldl k ident

def smaller (a b : Word) : Word := if a.sle b then a else b
def larger (a b : Word) : Word := if a.sle b then b else a
def smallerU (a b : Word) : Word := if a ≤ b then a else b
def largerU (a b : Word) : Word := if a ≤ b then b else a

/-- A mask from a condition on lanes. -/
def maskOf (p : Nat → Bool) : Word := BitVec.ofFnLE fun i : Fin 32 => p i.val

/-- The scratch address is legal for `size` bytes (R237): aligned, within the part's allotment, and no control core. -/
def ScratchOk (s : State) (w : Wave) (a size align : Nat) : Prop :=
  a % align = 0 ∧ w.control = false ∧ a < 2 ^ 24 ∧ partOf a < (s.blkD w.blk).cores.length ∧
  offOf a + size ≤ (s.blkD w.blk).scrSize

/-- A unit has completed that changed its wave and its core: the rest of the device, and every byte of memory, is as it was. -/
def CoreUnitEnds (s t : State) (wid core : Nat) (w : Wave) (c : CoreSt) : Prop :=
  UnitLeaves (s.setCore core c) t wid w

/-- Lane L of a PACK block (R193): field L, sign-extended where SIGNED, shifted, plus BASE. -/
def packLane (n shift : Nat) (sg : Bool) (base bits l : Nat) : Word :=
  let fld := bits / 2 ^ (n * l) % 2 ^ n
  let x : Int := if sg && 2 ^ (n - 1) ≤ fld then (fld : Int) - 2 ^ n else fld
  BitVec.ofInt 32 (x * 2 ^ shift + base)

/-- Lane L of a block that codes literals and zeros: the next literal in lane order where the lane has one, else 0. -/
def sparseLane (has : List Bool) (lit : Nat → Nat) (l : Nat) : Word :=
  if has.getD l false then BitVec.ofNat 32 (lit ((has.take l).count true)) else 0#32

/-- The block at `a` of a stream, whose bytes `rd address count` gives as a number (R192, R193). -/
structure Blk where
  rd : Nat → Nat → Nat
  a : Nat

namespace Blk

def head (b : Blk) : Nat := b.rd b.a 4
def mode (b : Blk) : Nat := b.head / 2 ^ 29
def len (b : Blk) : Nat := b.head / 2 ^ 16 % 2 ^ 11
def param (b : Blk) : Nat := b.head % 2 ^ 16
def ntok (b : Blk) : Nat := b.param % 64
def tok (b : Blk) (k : Nat) : Nat := b.rd (b.a + 4 + k) 1
/-- The bytes of the tokens with their padding. -/
def pad (b : Blk) : Nat := 4 * ((b.ntok + 3) / 4)
/-- The lanes that have a literal. -/
def has (b : Blk) : List Bool :=
  if b.mode = 2 then (List.range b.ntok).flatMap fun k => List.replicate (b.tok k % 32 + 1) (128 ≤ b.tok k)
  else (List.range 32).map fun l => (b.rd (b.a + 4) 4).testBit l
/-- The bytes before the literals, which the checks of its fields read. -/
def front (b : Blk) : Nat := if b.mode = 2 then 4 + b.pad else if b.mode = 3 then 8 else 4

/-- Reserved and zero fields are zero, ZRL padding included. -/
def fieldsZero (b : Blk) : Prop :=
  b.head / 2 ^ 27 % 4 = 0 ∧
  (b.mode = 0 ∨ b.mode = 3 → b.param = 0) ∧ (b.mode = 1 → b.param / 2 ^ 4 % 2 ^ 6 = 0) ∧
  (b.mode = 2 → b.param / 2 ^ 6 = 0 ∧ (∀ k < b.ntok, b.tok k / 32 % 4 = 0) ∧ ∀ k < b.pad, b.ntok ≤ k → b.tok k = 0)
/-- The token counts of ZRL cover the 32 lanes. -/
def countsFit (b : Blk) : Prop := b.mode = 2 → b.ntok ≠ 0 ∧ b.has.length = 32
/-- LEN by the formula of R193. -/
def size (b : Blk) : Nat :=
  if b.mode = 0 then 132 else if b.mode = 1 then 8 + 4 * (b.param % 16 + 1) else b.front + 4 * b.has.count true
/-- Val(L). -/
def lane (b : Blk) (l : Nat) : Word :=
  if b.mode = 0 then BitVec.ofNat 32 (b.rd (b.a + 4 + 4 * l) 4)
  else if b.mode = 1 then
    packLane (b.param % 16 + 1) (b.param / 2 ^ 11) (b.param.testBit 10) (b.rd (b.a + 4) 4) (b.rd (b.a + 8) (4 * (b.param % 16 + 1))) l
  else sparseLane b.has (fun k => b.rd (b.a + b.front + 4 * k) 4) l

/-- A block that is not malformed (R195). -/
def Good (b : Blk) : Prop :=
  b.mode < 4 ∧ b.fieldsZero ∧ b.countsFit ∧ b.len = b.size ∧ (b.mode ≠ 0 → b.size < 132)
/-- The reason for which a block is malformed, the first of several (R195, notes/assumptions 130). -/
def Bad (b : Blk) (reason : Nat) : Prop :=
  (reason = 0 ∧ 4 ≤ b.mode) ∨
  (b.mode < 4 ∧ ((reason = 1 ∧ ¬ b.fieldsZero) ∨
    (b.fieldsZero ∧ ((reason = 2 ∧ ¬ b.countsFit) ∨
      (b.countsFit ∧ ((reason = 3 ∧ b.len ≠ b.size) ∨
        (b.len = b.size ∧ reason = 4 ∧ b.mode ≠ 0 ∧ 132 ≤ b.size)))))))

end Blk

/-- Block `i` of the stream at `ad` in the scratch of a wave's block, after blocks of the lengths in `lens`. -/
def streamBlk (s : State) (w : Wave) (ad : Nat) (lens : List Nat) (i : Nat) : Blk :=
  { rd := fun x n => scrGet s w.blk (partOf x) (offOf x) n, a := ad + (lens.take i).sum }

/-- The first `n` blocks of the stream are well formed, have the lengths in `lens`, and lie in the part's allotment. -/
def GoodBlks (s : State) (w : Wave) (ad n : Nat) (lens : List Nat) : Prop :=
  n ≤ lens.length ∧ ∀ i < n,
    (streamBlk s w ad lens i).Good ∧ lens.getD i 0 = (streamBlk s w ad lens i).size ∧
    ScratchOk s w (streamBlk s w ad lens i).a (streamBlk s w ad lens i).size 4

/-- The word of lane L in an operation's data. -/
def dataLane (x l : Nat) : Word := BitVec.ofNat 32 (x / 2 ^ (32 * l))

end Sys2Proof.Claims

open Sys2Proof Sys2Proof.Machine Sys2Proof.Claims

/-- R172, R182, R183, R184, R185: moves between lanes, integer scans and reductions, ballot, match and compact. -/
def Sys2Proof.Claims.CrossLaneResults : Prop :=
  (∀ (s : State) (wid eid : Nat) (w : Wave) (f : Frag) (d a : BitVec 7) (x : BitVec 8) (fa : Bool),
    VecIssuing s wid eid w f → SrcV w f a.toNat → SrcS w x →
    let j := (opS s wid w f x).toNat % 32
    (DstSReady w (d.toNat, 1, false) → ∃ t, exec (.vlane d a x fa) s = .next t ∧
      UnitEnds s t wid eid (w.setS d.toNat (laneW w f a.toNat j)) (afterUnit 4 true f)) ∧
    (DstV w f d.toNat → ∃ t, exec (.vbcast d a x fa) s = .next t ∧
      UnitEnds s t wid eid (w.setLanes (vecNo f d.toNat) 1 f.active fun _ => [laneW w f a.toNat j]) (afterUnit 4 true f))) ∧
  (∀ n : BitVec 5,
    CrossUnit (fun d a fa => .vshflXor d a n fa) (fun _ v l => v (l ^^^ n.toNat)) ∧
    CrossUnit (fun d a fa => .vshflUp d a n fa) (fun _ v l => laneOr v l ((l : Int) - n.toNat)) ∧
    CrossUnit (fun d a fa => .vshflDown d a n fa) (fun _ v l => laneOr v l ((l : Int) + n.toNat))) ∧
  (∀ (s : State) (wid eid : Nat) (w : Wave) (f : Frag) (d a : BitVec 7) (fa : Bool),
    VecIssuing s wid eid w f → SrcV w f a.toNat → DstV w f d.toNat → ∃ t, exec (.vshflIdx d a fa) s = .next t ∧
      UnitEnds s t wid eid (w.setLanes (vecNo f d.toNat) 1 f.active fun l =>
        [laneW w f a.toNat ((laneW w f d.toNat l).toNat % 32)]) (afterUnit 4 true f)) ∧
  (∀ e : BitVec 1, IntScan e 0#2 (fun x y => x + y) 0#32 ∧ IntScan e 1#2 smaller 0x7FFFFFFF#32 ∧
    IntScan e 2#2 larger 0x80000000#32 ∧ IntScan e 3#2 (fun x y => x ||| y) 0#32) ∧
  (IntReduce (fun d a fa => .vredAdd d a fa 0#3) (fun x y => x + y) 0#32 ∧
   IntReduce (fun d a fa => .vredMin d a fa 0#3) smaller 0x7FFFFFFF#32 ∧
   IntReduce (fun d a fa => .vredMin d a fa 1#3) smallerU 0xFFFFFFFF#32 ∧
   IntReduce (fun d a fa => .vredMax d a fa 0#3) larger 0x80000000#32 ∧
   IntReduce (fun d a fa => .vredMax d a fa 1#3) largerU 0#32 ∧
   IntReduce .vredAnd (fun x y => x &&& y) 0xFFFFFFFF#32 ∧
   IntReduce .vredOr (fun x y => x ||| y) 0#32) ∧
  ToScalar .vballot (fun f v => maskOf fun l => f.active.getLsbD l && v l != 0#32) ∧
  CrossUnit .vmatch (fun f v l => maskOf fun k => f.active.getLsbD k && v k == v l) ∧
  CrossUnit .vcompact (fun f v l =>
    (((lanesOf f.active).filter fun k => v k != 0#32).map (BitVec.ofNat 32)).getD ((lanesOf f.active).idxOf l) 0xFFFFFFFF#32)

/-- R183, R184: scans and reductions of `.f32`, which round and raise flags, and the function and types that do not exist. -/
def Sys2Proof.Claims.FloatScansAndReductions : Prop :=
  (∀ (s : State) (wid eid : Nat) (w : Wave) (f : Frag) (d a : BitVec 7) (e : BitVec 1) (o : BitVec 2) (fa : Bool),
    VecIssuing s wid eid w f → SrcV w f a.toNat → DstV w f d.toNat → o ≠ 3#2 →
    let op : RedOp := if o = 0#2 then .add else if o = 1#2 then .min else .max
    let r := scanFrom op 2 (rnd f) (e == 1#1) (fun l => (laneW w f a.toNat l).toNat) none (lanesOf f.active)
    ∃ t, exec (.vscan d a e 1#1 o fa) s = .next t ∧
      UnitEnds s t wid eid ((w.setLanes (vecNo f d.toNat) 1 f.active fun l => [BitVec.ofNat 32 (scanAt r l).1]).raise
        (lanesFlags f.active fun l => (scanAt r l).2)) (afterUnit 4 true f)) ∧
  ToScalarF (fun d a fa => .vredAdd d a fa 2#3) (fun f v => reduce .add 2 (rnd f) f.active v) ∧
  ToScalarF (fun d a fa => .vredMin d a fa 2#3) (fun f v => reduce .min 2 (rnd f) f.active v) ∧
  ToScalarF (fun d a fa => .vredMax d a fa 2#3) (fun f v => reduce .max 2 (rnd f) f.active v) ∧
  (∀ (s : State) (wid eid : Nat) (w : Wave) (f : Frag) (d a : BitVec 7) (fa : Bool), Issuing s wid eid w f →
    (∀ e : BitVec 1, Traps (.vscan d a e 1#1 3#2 fa) s wid eid f illegalOp 0 0) ∧
    (∀ c : BitVec 3, c ≠ 0#3 → c ≠ 2#3 → Traps (.vredAdd d a fa c) s wid eid f illegalOp 0 0) ∧
    (∀ c : BitVec 3, 3 ≤ c.toNat → Traps (.vredMin d a fa c) s wid eid f illegalOp 0 0 ∧
      Traps (.vredMax d a fa c) s wid eid f illegalOp 0 0))

/-- R187, R188, R189: `xbload` loads a pattern table from scratch with the loader's context, and `vxbar` uses one of its
own context only. -/
def Sys2Proof.Claims.CrossbarResults : Prop :=
  ∀ (s : State) (wid eid : Nat) (w : Wave) (f : Frag), Issuing s wid eid w f → w.control = false →
    (∀ (n : BitVec 4) (a : BitVec 8), SrcS w a → ScratchOk s w (opS s wid w f a).toNat 256 128 →
      scrStoresOut s wid s.nextId = false →
      let ad := (opS s wid w f a).toNat
      let p : Pattern := { owner := some (w.glade, w.ctx), data := BitVec.ofNat 2048 (scrGet s w.blk (partOf ad) (offOf ad) 256) }
      ∃ t, exec (.xbload n a) s = .next t ∧
        CoreUnitEnds s t wid w.core w { s.coreSt w.core with tables := Tab.put (s.coreSt w.core).tables n.toNat p }) ∧
    (∀ (n : BitVec 4) (a : BitVec 8), SrcS w a → (opS s wid w f a).toNat % 128 ≠ 0 →
      Traps (.xbload n a) s wid eid f misalign 0 (opS s wid w f a).toNat) ∧
    (∀ (d a : BitVec 7) (n : BitVec 4) (fa : Bool) (c : BitVec 3),
      (Tab.valD (s.coreSt w.core).tables n.toNat {}).owner ≠ some (w.glade, w.ctx) →
        Traps (.vxbar d a n fa c) s wid eid f illegalOp 0 0) ∧
    (∀ (d a : BitVec 7) (n : BitVec 4) (fa : Bool) (c : BitVec 3), Unwatched s w →
      (Tab.valD (s.coreSt w.core).tables n.toNat {}).owner = some (w.glade, w.ctx) →
      VSrc.Ready w f { fd := a.toNat, cnt := c.toNat + 1 } → DstV w f d.toNat →
      ∃ (t : State) (v : Nat → Word), exec (.vxbar d a n fa c) s = .next t ∧
        UnitEnds s t wid eid (w.setLanes (vecNo f d.toNat) 1 f.active fun l => [v l]) (afterUnit 4 true f) ∧
        ∀ l j, l < 32 → j < 4 → f.active.getLsbD l = true →
          let e := ((Tab.valD (s.coreSt w.core).tables n.toNat {}).data.extractLsb' (16 * (4 * l + j)) 16).toNat
          let reg := e / 2 ^ 7 % 8
          ((v l).extractLsb' (8 * j) 8) =
            if e / 2 ^ 15 = 1 ∨ c.toNat + 1 ≤ reg then 0#8
            else (w.vreg (vecNo f a.toNat + reg) (e / 4 % 32)).extractLsb' (8 * (e % 4)) 8)

/-- R98, R191 to R196: `vdec` makes its destinations empty, waits with its operand kept for the wave's earlier scratch stores,
sampled as DECODE_BUSY, and starts an operation that holds the 32 lane values of each block; a malformed block traps ILLEGAL_OP with
the block's index and the reason, its destinations as they were before; VDEC_COMPLETE writes one block per register in the lanes active
at issue and marks the registers full. -/
def Sys2Proof.Claims.DecoderUnits : Prop :=
  (∀ (s : State) (wid eid : Nat) (w : Wave) (f : Frag) (d : BitVec 7) (a : BitVec 8), Issuing s wid eid w f → w.control = false →
    (f.held = none → SrcS w a) →
    let v := match f.held with | some h => h.a | none => (opS s wid w f a).toNat
    let before := match f.held with | some h => h.b | none => s.nextId
    let n := v / 2 ^ 24 % 8 + 1
    let ad := v % 2 ^ 24
    let r := vecNo f d.toNat
    (ad % 4 ≠ 0 → Traps (.vdec d a) s wid eid f misalign 0 0) ∧
    (ad % 4 = 0 → VecIn w r n false → (saveRefuses w = true → r + n ≤ 2) → (f.held = none → FullV w r n) →
      (scrStoresOut s wid before = true →
        ∃ t h w', exec (.vdec d a) s = .next t ∧ h.a = v ∧ h.b = before ∧ t.mem = s.mem ∧ t.ops = s.ops ∧
          (f.held = none → h.kind = 10 ∧ h.limit = none) ∧ t.wave? wid = some w' ∧ w'.rest = (w.markEmptyV (range r n)).rest ∧
          t.frag? wid eid = some { f with held := some h, stall := .decodeBusy }) ∧
      (scrStoresOut s wid before = false →
        (∀ lens, GoodBlks s w ad n lens →
          ∃ t o w', exec (.vdec d a) s = .next t ∧ t.op? s.nextId = some o ∧ o.kind = .vdec ∧ o.dst = range r n ∧
            o.active = f.active ∧ o.wid = wid ∧ o.cls = none ∧ t.mem = s.mem ∧ t.wave? wid = some w' ∧
            w'.rest = (w.markEmptyV (range r n)).rest ∧
            ∀ i < n, ∀ l < 32, dataLane (o.accs.getD i {}).data l = (streamBlk s w ad lens i).lane l) ∧
        (∀ lens i reason, i < n → GoodBlks s w ad i lens → (streamBlk s w ad lens i).Bad reason →
          ScratchOk s w (streamBlk s w ad lens i).a (streamBlk s w ad lens i).front 4 →
          let arg := BitVec.ofNat 32 (i + 16 * reason)
          (f.held = none → Traps (.vdec d a) s wid eid f illegalOp arg 0) ∧
          (f.held ≠ none → exec (.vdec d a) s = .next (stepTrap f wid eid
            ((takeTrap ((s.withEv []).updWave wid fun w => w.markFullV (range r n)) wid eid illegalOp arg 0 0).withEv []))))))) ∧
  (∀ (s : State) (op wid r n : Nat) (o : Op) (w : Wave), s.op? op = some o → o.kind = .vdec → o.cls = none → o.wid = wid →
    s.wave? wid = some w → w.ended ≠ 0xFFFFFFFF#32 → Unwatched s w → o.dst = range r n → Tab.wf w.vregs = true →
    ∃ t w', exec (.vdecComplete op) s = .next t ∧ t.mem = s.mem ∧ t.ops = Tab.del s.ops op ∧ t.wave? wid = some w' ∧
      w'.sregs = w.sregs ∧ w'.fflags = w.fflags ∧ (∀ q, q ∈ w'.vEmpty ↔ q ∈ w.vEmpty ∧ q ∉ o.dst) ∧
      ∀ q l, l < 32 → w'.vreg q l =
        if r ≤ q ∧ q < r + n ∧ o.active.getLsbD l = true then dataLane (o.accs.getD (q - r) {}).data l else w.vreg q l)

/-- R172, R182 to R196: shuffles, scans, reductions, ballots, crossbar patterns and the weight decoder. -/
def Obligations.CrossLaneAndDecoderUnits : Prop := CrossLaneResults ∧ FloatScansAndReductions ∧ CrossbarResults ∧ DecoderUnits

namespace Sys2Proof.Claims

open Sys2Proof Sys2Proof.Machine

/-! ## Witnesses, waits, barriers and rings (R215 to R222, R248 to R258) -/

/-- The context a wave's global accesses translate in; a control core uses context 0 (R439). -/
def memCtx (w : Wave) : Nat := if w.control then 0 else w.ctx

/-- A global address passes R236: canonical, aligned to `size`, translated by a cached page that permits the access. -/
def Translated (s : State) (wid : Nat) (w : Wave) (va size kind home : Nat) : Prop :=
  va < 2 ^ 52 ∧ va % size = 0 ∧ (w.control = true → ctxState s w.glade 0 = 1) ∧
  ∃ p, tlbLookup s (w.coreNo wid) w.glade (memCtx w) va = some p ∧ (kind = aWrite → p.cow = false ∧ p.w = true) ∧
    (kind = aFetch → p.x = true) ∧ home = p.homeOf va

/-- What a unit that begins to wait keeps: when it issued, when its TIMEOUT ends, and its operands (R250). -/
def beginWait (s : State) (x : Ext) (kind a b : Nat) : Held := match x with
  | .timeout n => { since := s.now, limit := some (s.now + 1000 * n.toNat), tcount := n.toNat, kind := kind, a := a, b := b }
  | _ => { since := s.now, kind := kind, a := a, b := b }

/-- The fragment waits at its unit. -/
def WaitsAt (i : Instr) (s : State) (wid eid : Nat) (f : Frag) (h : Held) (why : Stall) : Prop :=
  ∃ t, exec i s = .next t ∧ t.frag? wid eid = some { f with held := some h, stall := why } ∧ t.mem = s.mem ∧
    ∀ k, k ≠ wid → t.wave? k = s.wave? k

/-- A waiting unit completes where its condition holds, leaving the device `s'`; else it waits, and traps WAIT_TIMEOUT once
its time is up (R250). -/
def WaitForm (i : Instr) (size : Nat) (s s' : State) (wid eid : Nat) (w : Wave) (f : Frag) (h : Held) (why : Stall)
    (cond : Prop) : Prop :=
  (cond → ∃ t, exec i s = .next t ∧ UnitEnds s' t wid eid w (afterUnit size true f)) ∧
  (¬ cond → h.due s.now = false → WaitsAt i s wid eid f h why) ∧
  (¬ cond → h.due s.now = true → Traps i s wid eid f waitTimeout (BitVec.ofNat 32 h.tcount) 0)

/-- An operation of a class may issue (R238, R351). -/
def Room (s : State) (wid : Nat) (cls : Nat) : Prop := outstanding s wid cls < 63
def MeshRoom (s : State) (wid : Nat) (w : Wave) : Prop := meshRequests s (w.coreNo wid) < 256

/-- A scratch barrier as the object of R252. -/
def barWord (expect arrived : Nat) (bytes : Int) (phase : Nat) : Nat :=
  2 ^ 30 + expect * 2 ^ 16 + arrived + wrap 32 bytes * 2 ^ 32 + phase * 2 ^ 64
def IsBar (s : State) (blk a expect arrived : Nat) (bytes : Int) (phase : Nat) : Prop :=
  1 ≤ expect ∧ expect ≤ 6144 ∧ arrived ≤ expect ∧ -2 ^ 31 ≤ bytes ∧ bytes < 2 ^ 31 ∧ phase < 2 ^ 32 ∧
  scrGet s blk (partOf a) (offOf a) 16 = barWord expect arrived bytes phase
/-- The barrier after Complete (R253). -/
def barDone (expect arrived : Nat) (bytes : Int) (phase : Nat) : Nat :=
  if arrived = expect ∧ bytes = 0 then barWord expect 0 0 ((phase + 1) % 2 ^ 32) else barWord expect arrived bytes phase
/-- The state with an object written at a scratch address. -/
def scrWritten (s : State) (blk a size x : Nat) : State := scrSet s blk (partOf a) (offOf a) size x

/-- A ring as the object of R257. -/
def ringWord (geom done put rel landed : Nat) : Nat :=
  2 ^ 31 + geom + (done + put * 2 ^ 16) * 2 ^ 32 + rel * 2 ^ 64 + landed * 2 ^ 128
def IsRing (s : State) (blk a geom done put rel landed : Nat) : Prop :=
  geom < 2 ^ 27 ∧ done < 2 ^ 16 ∧ put < 2 ^ 16 ∧ rel < 2 ^ 16 ∧ landed < 2 ^ 256 ∧
  scrGet s blk (partOf a) (offOf a) 64 = ringWord geom done put rel landed

/-- An operation on scratch of the wave's part, or of another where the core's requests in the mesh leave room (R351). -/
def PartRoom (s : State) (w : Wave) (a : Nat) : Prop := partOf a ≠ w.part → meshRequests s w.core < 256

/-- A scratch object can be used now: its address passes R237, no earlier access of the wave to the part is pending, and the mesh has
room where it is another part's. -/
def ObjReady (s : State) (wid : Nat) (w : Wave) (a size : Nat) : Prop :=
  ScratchOk s w a size size ∧ scrEarlier s wid (partOf a) s.nextId = false ∧ PartRoom s w a

end Sys2Proof.Claims

open Sys2Proof Sys2Proof.Machine Sys2Proof.Claims

/-- R219: the cases of WMerge for witnesses of one glade, on their fields. -/
def Sys2Proof.Claims.WitnessMergeCases : Prop :=
  ∀ p q : DWord,
    (wKind p = 0 → wMerge p q = q) ∧
    (wKind p ≠ 0 → wKind q = 0 → wMerge p q = p) ∧
    (wKind p ≠ 0 → wKind q ≠ 0 → wGlade p = wGlade q →
      let e := if epochLater (wEpoch p) (wEpoch q) then wEpoch p else wEpoch q
      let m := wMerge p q
      wGlade m = wGlade p ∧ wEpoch m = e ∧
      (wKind p = 3 ∨ wKind q = 3 → wKind m = 3 ∧ wCore m = 0) ∧
      (wKind p ≠ 3 → wKind q ≠ 3 → wKind p = 1 → wKind q = 1 → wCore p = wCore q → wKind m = 1 ∧ wCore m = wCore p) ∧
      (wKind p ≠ 3 → wKind q ≠ 3 → ¬ (wKind p = 1 ∧ wKind q = 1 ∧ wCore p = wCore q) → wKind m = 2 ∧ wCore m = 0))

/-- R218: which trap CheckWitness takes, in order. -/
def Sys2Proof.Claims.WitnessCheckCases : Prop :=
  ∀ (s : State) (g : Nat) (w : DWord),
    let lag := ((s.gladeSt g).epoch + 2 ^ 48 - wEpoch w) % 2 ^ 48
    (w = 0 → witnessTrap s g w = none) ∧
    (wKind w = 0 → w ≠ 0 → witnessTrap s g w = some witnessInvalid) ∧
    (wKind w ≠ 0 → wGlade w ≠ g → witnessTrap s g w = some witnessForeign) ∧
    (wKind w ≠ 0 → wGlade w = g → (wKind w ≠ 1 ∧ wCore w ≠ 0) ∨ (wKind w = 1 ∧ 159 < wCore w) ∨ 2 ^ 47 ≤ lag →
      witnessTrap s g w = some witnessInvalid) ∧
    (wKind w ≠ 0 → wGlade w = g → (wKind w = 1 ∧ wCore w ≤ 159) ∨ (wKind w ≠ 1 ∧ wCore w = 0) →
      (2 ^ 46 ≤ lag → lag < 2 ^ 47 → witnessTrap s g w = some witnessExpired) ∧
      (lag < 2 ^ 46 → poisoned s g w = true → witnessTrap s g w = some witnessPoisoned) ∧
      (lag < 2 ^ 46 → poisoned s g w = false → witnessTrap s g w = none))

/-- R239, R248, R249, R287: the witness instructions and `waitcnt`, which is sampled as MX_FUSE_HOLD where it waits for an open
fusion group. A witness that fails its check traps. -/
def Sys2Proof.Claims.WitnessInstructions : Prop :=
  ∀ (s : State) (wid eid : Nat) (w : Wave) (f : Frag), Issuing s wid eid w f →
    let core := w.coreNo wid
    let view := (s.coreSt core).view
    (∀ d : BitVec 8, DstS64 w d →
      (∃ t, exec (.wnull d) s = .next t ∧ UnitEnds s t wid eid (w.setSPair d.toNat 0) (afterUnit 4 true f)) ∧
      (∃ t, exec (.wcur d) s = .next t ∧
        UnitEnds (requestAdvance s w.glade) t wid eid
          (w.setSPair d.toNat (wMerge w.sw (if w.control then mkWit 2 w.glade 0 view else mkWit 1 w.glade w.core view)))
          (afterUnit 4 true f))) ∧
    (∀ d a b : BitVec 8, SrcS64 w a → SrcS64 w b → DstS64 w d →
      let p := opS64 s wid w f a
      let q := opS64 s wid w f b
      (witnessTrap s w.glade p = none → witnessTrap s w.glade q = none → ∃ t, exec (.wmerge d a b) s = .next t ∧
        UnitEnds s t wid eid (w.setSPair d.toNat (wMerge p q)) (afterUnit 4 true f)) ∧
      (∀ c, witnessTrap s w.glade p = some c → Traps (.wmerge d a b) s wid eid f c 0 0) ∧
      (∀ c, witnessTrap s w.glade p = none → witnessTrap s w.glade q = some c → Traps (.wmerge d a b) s wid eid f c 0 0)) ∧
    (∀ d a : BitVec 8, SrcS64 w a → DstS w d →
      let v := opS64 s wid w f a
      (witnessTrap s w.glade v = none → ∃ t, exec (.wtest d a) s = .next t ∧
        UnitEnds (requestWitness s core w.glade w.ctx v) t wid eid (w.setS d.toNat (flagWord (satisfied s core w.glade v)))
          (afterUnit 4 true f)) ∧
      (∀ c, witnessTrap s w.glade v = some c → Traps (.wtest d a) s wid eid f c 0 0)) ∧
    (∀ (x : Ext) (a : BitVec 8) (h : Held),
      (f.held = none ∧ SrcS64 w a ∧ h = beginWait s x 1 (opS64 s wid w f a).toNat 0) ∨ f.held = some h →
      let v := BitVec.ofNat 64 h.a
      (witnessTrap s w.glade v = none → WaitForm (.waitW x a) (extSize x) s (useWitness s core w.glade v) wid eid w f h
        .waitWitness (satisfied s core w.glade v = true)) ∧
      (∀ c, witnessTrap s w.glade v = some c → Traps (.waitW x a) s wid eid f c 0 0)) ∧
    (∀ (c : BitVec 3) (n : BitVec 6),
      (outstanding s wid c.toNat ≤ n.toNat → ∃ t, exec (.waitcnt c n) s = .next t ∧
        UnitEnds s t wid eid w (afterUnit 4 true f)) ∧
      (n.toNat < outstanding s wid c.toNat → NotReady (.waitcnt c n) s wid eid
        (if c.toNat = cMX ∧ fuseHeld s wid = true then .mxFuseHold else .waitcnt)))

/-- R217 to R219, R239, R248, R249: merging, checking and waiting for witnesses. -/
def Obligations.Witnesses : Prop := WitnessMergeCases ∧ WitnessCheckCases ∧ WitnessInstructions

/-- R201, R241: scratch holds bytes; a write is read back and reaches no other byte. -/
def Sys2Proof.Claims.ScratchBytes : Prop :=
  ∀ (b : Block) (part off n x : Nat), Tab.wf b.scr = true →
    (b.scrSet part off n x).scrGet part off n = x % 2 ^ (8 * n) ∧ Tab.wf (b.scrSet part off n x).scr = true ∧
    ∀ p o, scrKey p o < scrKey part off ∨ scrKey part off + n ≤ scrKey p o →
      (b.scrSet part off n x).scrByte p o = b.scrByte p o

/-- R237, R252, R253: scratch barriers. -/
def Sys2Proof.Claims.ScratchBarriers : Prop :=
  (∀ (s : State) (wid eid : Nat) (w : Wave) (f : Frag), Issuing s wid eid w f →
    (∀ d a : BitVec 8, SrcS w d → SrcS w a →
      let n := (opS s wid w f d).toNat
      let ad := (opS s wid w f a).toNat
      (ad % 16 ≠ 0 → Traps (.barinit d a) s wid eid f misalign 0 ad ∧ Traps (.barexpect d a) s wid eid f misalign 0 ad) ∧
      (ad % 16 = 0 → ¬ ScratchOk s w ad 16 16 →
        Traps (.barinit d a) s wid eid f perm 0 ad ∧ Traps (.barexpect d a) s wid eid f perm 0 ad) ∧
      (ScratchOk s w ad 16 16 → scrEarlier s wid (partOf ad) s.nextId = true →
        NotReady (.barinit d a) s wid eid .scratchBank ∧ NotReady (.barexpect d a) s wid eid .scratchBank) ∧
      (ScratchOk s w ad 16 16 → scrEarlier s wid (partOf ad) s.nextId = false → ¬ PartRoom s w ad →
        NotReady (.barinit d a) s wid eid .lsuQueueFull ∧ NotReady (.barexpect d a) s wid eid .lsuQueueFull) ∧
      (ObjReady s wid w ad 16 → n = 0 ∨ 6144 < n → Traps (.barinit d a) s wid eid f barOverflow 0 0) ∧
      (ObjReady s wid w ad 16 → 1 ≤ n → n ≤ 6144 → ∃ t, exec (.barinit d a) s = .next t ∧
        UnitEnds (scrWritten s w.blk ad 16 (barWord n 0 0 0)) t wid eid w (afterUnit 4 true f)) ∧
      (∀ e r y ph, ObjReady s wid w ad 16 → IsBar s w.blk ad e r y ph →
        (n ≤ 0x01000000 → -2 ^ 31 ≤ y - n → ∃ t, exec (.barexpect d a) s = .next t ∧
          UnitEnds (scrWritten s w.blk ad 16 (barDone e r (y - n) ph)) t wid eid w (afterUnit 4 true f)) ∧
        (0x01000000 < n ∨ y - n < -2 ^ 31 → Traps (.barexpect d a) s wid eid f barOverflow 0 0)) ∧
      (∀ (x : Ext) (h : Held) e r y ph,
        (f.held = none ∧ ObjReady s wid w ad 16 ∧ h = beginWait s x 2 ad n) ∨ (f.held = some h ∧ w.control = false) →
        IsBar s w.blk h.a e r y ph →
        WaitForm (.waitBar x d a) (extSize x) s s wid eid w f h .waitBar (ph ≠ h.b))) ∧
    (∀ a : BitVec 8, SrcS w a →
      let ad := (opS s wid w f a).toNat
      (f.held = none → ScratchOk s w ad 16 16 → Room s wid cST → PartRoom s w ad → ∃ t o, exec (.barrive a) s = .next t ∧
        t.op? s.nextId = some o ∧ o.kind = .barrive ∧ o.cls = some cST ∧ o.accs.map (·.va) = [ad] ∧ o.blk = w.blk ∧
        o.wid = wid ∧ o.eid = eid ∧ o.done = false ∧ t.mem = s.mem ∧ t.blocks = s.blocks ∧
        t.frag? wid eid = some { f with held := some { since := s.now, kind := 9, op := s.nextId }, stall := .other }) ∧
      (∀ h, f.held = some h → h.stage = 1 → ∃ t, exec (.barrive a) s = .next t ∧
        UnitEnds s t wid eid w (afterUnit 4 true f)) ∧
      (∀ h, f.held = some h → h.stage ≠ 1 → NotReady (.barrive a) s wid eid .other))) ∧
  (∀ (s : State) (op : Nat) (o : Op) (c : Acc) (f : Frag) (h : Held) e r y ph, s.op? op = some o → o.kind = .barrive →
    o.done = false → o.cls = some cST → stDone s o.wid op = true → scrStoresOut s o.wid op = false → entryTurn s op o = true →
    o.accs = [c] → s.frag? o.wid o.eid = some f → f.held = some h → IsBar s o.blk c.va e r y ph → r < e →
    ∃ t, exec (.barriveApply op) s = .next t ∧ t.blocks = (scrWritten s o.blk c.va 16 (barDone e (r + 1) y ph)).blocks ∧
      t.ops = retireList o.wid cST (Tab.put s.ops op { o with done := true }) ∧ t.mem = s.mem ∧
      t.frag? o.wid o.eid = some { f with held := some { h with stage := 1 } }) ∧
  (∀ (s : State) (op : Nat) (o : Op) (c : Acc) e y ph, s.op? op = some o → o.kind = .barrive → o.done = false →
    stDone s o.wid op = true → scrStoresOut s o.wid op = false → o.accs = [c] → o.wait = none → IsBar s o.blk c.va e e y ph →
    exec (.barriveApply op) s =
      .next (takeTrap { s.updFrag o.wid o.eid (fun f => { f with held := none }) with ops := Tab.del s.ops op }
        o.wid o.eid barOverflow 0 0 0))

/-- R257, R258: rings. -/
def Sys2Proof.Claims.Rings : Prop :=
  ∀ (s : State) (wid eid : Nat) (w : Wave) (f : Frag), Issuing s wid eid w f → ∀ d a : BitVec 8, SrcS w d → SrcS w a →
    let n := (opS s wid w f d).toNat
    let ad := (opS s wid w f a).toNat
    let room := fun g : Nat => 64 * (g / 2 ^ 12 % 2 ^ 15) + (g % 256 + 1) * 2 ^ (6 + g / 2 ^ 8 % 16) ≤ (s.blkD w.blk).scrSize
    (ObjReady s wid w ad 64 → n < 2 ^ 27 → n / 2 ^ 8 % 16 ≤ 10 → room n → ∃ t, exec (.ringinit d a) s = .next t ∧
      UnitEnds (scrWritten s w.blk ad 64 (ringWord n 0 0 0 0)) t wid eid w (afterUnit 4 true f)) ∧
    (ObjReady s wid w ad 64 → 2 ^ 27 ≤ n ∨ 10 < n / 2 ^ 8 % 16 ∨ ¬ room n →
      Traps (.ringinit d a) s wid eid f ringMisuse 0 0) ∧
    (∀ g dn pt rl ld, ObjReady s wid w ad 64 → scrLoadsOut s wid = false → IsRing s w.blk ad g dn pt rl ld →
      (n ≤ (dn + 2 ^ 16 - rl) % 2 ^ 16 → ∃ t, exec (.rrel d a) s = .next t ∧
        UnitEnds (scrWritten s w.blk ad 64 (ringWord g dn pt ((rl + n) % 2 ^ 16) ld)) t wid eid w (afterUnit 4 true f)) ∧
      ((dn + 2 ^ 16 - rl) % 2 ^ 16 < n → Traps (.rrel d a) s wid eid f ringMisuse 0 0)) ∧
    (ObjReady s wid w ad 64 → scrLoadsOut s wid = true → NotReady (.rrel d a) s wid eid .scratchBank) ∧
    (∀ (x : Ext) (h : Held) g dn pt rl ld,
      (f.held = none ∧ ObjReady s wid w ad 64 ∧ h = beginWait s x 4 ad n) ∨ (f.held = some h ∧ w.control = false) →
      IsRing s w.blk h.a g dn pt rl ld →
      (h.b ≤ g % 256 + 1 →
        WaitForm (.waitRing x d a) (extSize x) s s wid eid w f h .waitRing (h.b ≤ (dn + 2 ^ 16 - rl) % 2 ^ 16)) ∧
      (g % 256 + 1 < h.b → Traps (.waitRing x d a) s wid eid f ringMisuse 0 0))

/-- R201, R237, R241, R252, R253, R257, R258: scratch bytes, scratch barriers and rings. -/
def Obligations.ScratchBarriersAndRings : Prop := ScratchBytes ∧ ScratchBarriers ∧ Rings

/-- R251, R255, R256, R352, R357: global barriers and `wait.mon`; the sync-cache entry that a slice makes for an object, and the
bucket of a physical address. -/
def Obligations.GlobalBarriersAndMonitor : Prop :=
  (∀ (s : State) (wid eid : Nat) (w : Wave) (f : Frag), Issuing s wid eid w f →
    (∀ a : BitVec 8, SrcS64 w a →
      (∀ home, f.held = none → Translated s wid w (opS64 s wid w f a).toNat 32 aWrite home → Room s wid cST →
        MeshRoom s wid w → ∃ t o, exec (.gbarrive a) s = .next t ∧ t.op? s.nextId = some o ∧ o.kind = .gbarrive ∧
        o.cls = some cST ∧ o.accs.map (·.home) = [home] ∧ o.wit = w.sw ∧ o.wid = wid ∧ o.eid = eid ∧ t.mem = s.mem ∧
        t.frag? wid eid = some { f with held := some { since := s.now, kind := 9, op := s.nextId }, stall := .other }) ∧
      (∀ h, f.held = some h → h.stage = 1 → ∃ t, exec (.gbarrive a) s = .next t ∧
        UnitEnds s t wid eid w (afterUnit 4 true f))) ∧
    (∀ (x : Ext) (d a : BitVec 8) (h : Held), SrcS w d → SrcS64 w a →
      (f.held = none ∧ ∃ home, Translated s wid w (opS64 s wid w f a).toNat 32 aRead home ∧
        h = beginWait s x 3 home (opS s wid w f d).toNat) ∨ (f.held = some h ∧ h.stage = 0) →
      let core := w.coreNo wid
      let v := BitVec.ofNat 64 (getMem s.mem (h.a + 0x18) 8)
      (gbarBad s h.a = true → Traps (.waitGbar x d a) s wid eid f barOverflow 0 0) ∧
      (gbarBad s h.a = false → getMem s.mem (h.a + 8) 4 = h.b → h.due s.now = false →
        WaitsAt (.waitGbar x d a) s wid eid f h .waitBar) ∧
      (gbarBad s h.a = false → getMem s.mem (h.a + 8) 4 ≠ h.b → witnessTrap s w.glade v = none →
        WaitForm (.waitGbar x d a) (extSize x) s (useWitness s core w.glade v) wid eid w f
          { h with stage := 1, b := getMem s.mem (h.a + 0x18) 8 } .waitBar (satisfied s core w.glade v = true))) ∧
    (∀ (x : Ext) (d a : BitVec 8) (h : Held), f.held = some h → h.stage = 1 →
      witnessTrap s w.glade (BitVec.ofNat 64 h.b) = none →
      WaitForm (.waitGbar x d a) (extSize x) s (useWitness s (w.coreNo wid) w.glade (BitVec.ofNat 64 h.b)) wid eid w f h
        .waitBar (satisfied s (w.coreNo wid) w.glade (BitVec.ofNat 64 h.b) = true)) ∧
    (∀ (x : Ext) (d a : BitVec 8), SrcS w d → SrcS64 w a →
      (∀ home, f.held = none → Translated s wid w (opS64 s wid w f a).toNat 4 aRead home →
        WaitForm (.waitMon x d a) (extSize x) s (dropMonitored s wid w home) wid eid w f
          (beginWait s x 5 home (opS s wid w f d).toNat) .waitMon (getMem s.mem home 4 ≠ (opS s wid w f d).toNat)) ∧
      (∀ h, f.held = some h → h.stage = 1 → ∃ t, exec (.waitMon x d a) s = .next t ∧
        UnitEnds s t wid eid w (afterUnit (extSize x) true f)) ∧
      (∀ h, f.held = some h → h.stage ≠ 1 → WaitForm (.waitMon x d a) (extSize x) s (dropMonitored s wid w h.a) wid eid w f h
        .waitMon (getMem s.mem h.a 4 ≠ h.b)))) ∧
  (∀ (s : State) (wid eid : Nat) (f : Frag) (h : Held), s.frag? wid eid = some f → f.held = some h → h.kind = 5 →
    (getMem s.mem h.a 4 = h.b → exec (.monitorReread wid eid) s = .next s) ∧
    (getMem s.mem h.a 4 ≠ h.b → ∃ t, exec (.monitorReread wid eid) s = .next t ∧ t.mem = s.mem ∧
      t.frag? wid eid = some { f with held := some { h with stage := 1 } })) ∧
  (∀ (s s1 : State) (op : Nat) (o : Op) (c : Acc) (f : Frag) (h : Held), s.op? op = some o → o.kind = .gbarrive →
    o.done = false → o.cls = some cST → o.accs = [c] → portOrder s op o = true → entryTurn s op o = true →
    syncTouch s o.glade c.home = some s1 → s.frag? o.wid o.eid = some f → f.held = some h →
    Memory.wf s.mem = true → gbarBad s c.home = false →
    let n := getMem s.mem (c.home + 4) 4 + 1
    let all := n = getMem s.mem c.home 4
    let acc := (wMerge (witOrNull s o.glade (BitVec.ofNat 64 (getMem s.mem (c.home + 0x10) 8))) o.wit).toNat
    ∃ t, exec (.gbarriveApply op) s = .next t ∧
      (all → getMem t.mem (c.home + 4) 4 = 0 ∧ getMem t.mem (c.home + 8) 4 = (getMem s.mem (c.home + 8) 4 + 1) % 2 ^ 32 ∧
        getMem t.mem (c.home + 0x10) 8 = 0 ∧ getMem t.mem (c.home + 0x18) 8 = acc) ∧
      (¬ all → getMem t.mem (c.home + 4) 4 = n ∧ getMem t.mem (c.home + 8) 4 = getMem s.mem (c.home + 8) 4 ∧
        getMem t.mem (c.home + 0x10) 8 = acc ∧ getMem t.mem (c.home + 0x18) 8 = getMem s.mem (c.home + 0x18) 8) ∧
      (∀ y, y < c.home + 4 ∨ c.home + 32 ≤ y ∨ (c.home + 12 ≤ y ∧ y < c.home + 16) → getByte t.mem y = getByte s.mem y) ∧
      t.ops = retireList o.wid cST (Tab.put s.ops op { o with done := true }) ∧ t.sync = s1.sync ∧
      t.frag? o.wid o.eid = some { f with held := some { h with stage := 1 } }) ∧
  (∀ (s : State) (g home : Nat), s.wind = none →
    let here := s.sync.filter fun e => e.phys == homeSlice s home
    (∀ e, (s.sync.find? fun e => e.home == home) = some e →
      (syncTouch s g home).map (·.sync) = some (e :: s.sync.filter fun x => x != e)) ∧
    ((s.sync.find? fun e => e.home == home) = none →
      let e : SyncEnt := { home := home, glade := g, phys := homeSlice s home }
      (here.length < 256 → (syncTouch s g home).map (·.sync) = some (e :: s.sync)) ∧
      (256 ≤ here.length → (∀ x ∈ here, syncIdle s x = false) → syncTouch s g home = none) ∧
      (256 ≤ here.length → (∃ x ∈ here, syncIdle s x = true) → ∃ x ∈ here, syncIdle s x = true ∧
        (syncTouch s g home).map (·.sync) = some (e :: s.sync.filter fun y => y != x)))) ∧
  (∀ pa : Nat, pa < 2 ^ 48 → bucketOf pa =
    (((BitVec.ofNat 41 (pa / 128)).extractLsb' 0 12) ^^^ ((BitVec.ofNat 41 (pa / 128)).extractLsb' 12 12) ^^^
      ((BitVec.ofNat 41 (pa / 128)).extractLsb' 24 12) ^^^ ((BitVec.ofNat 41 (pa / 128)).extractLsb' 36 5).setWidth 12).toNat)

namespace Sys2Proof.Claims

open Sys2Proof Sys2Proof.Machine

/-! ## Loads, stores, atomics and cache maintenance (R199 to R213, R226 to R247) -/

/-- The device with one more outstanding operation, which keeps its time and the predicates of its core (R411). -/
def withOp (s : State) (o : Op) : State :=
  { s with ops := Tab.put s.ops s.nextId { o with issued := s.now, preds := (s.coreSt o.core).preds }, nextId := s.nextId + 1 }

/-- No predicate is evaluated for the operation's results. -/
def OpUnwatched (s : State) (w : Wave) (o : Op) : Prop := watched s w = false ∨ o.preds = [] ∨ o.quiet = true

/-- The unit completes and starts an operation; its wave becomes `w'` and the rest of the device `s1`. -/
def StartsOp (i : Instr) (size : Nat) (s s1 : State) (wid eid : Nat) (w' : Wave) (f : Frag) (o : Op) : Prop :=
  ∃ t, exec i s = .next t ∧ UnitEnds (withOp s1 o) t wid eid w' (afterUnit size true f)

/-- The core's requests in the mesh leave room for the lines that an operation reaches through it (R351). -/
def LinesFit (s : State) (o : Op) : Prop := o.requests s = 0 ∨ meshRequests s o.core + o.requests s ≤ 256

/-- The fragment issues a memory unit that may issue now, and predicates are not evaluated for its wave. -/
def MemIssuing (s : State) (wid eid : Nat) (w : Wave) (f : Frag) (scr : Bool) (cls : Nat) : Prop :=
  Issuing s wid eid w f ∧ Unwatched s w ∧ Room s wid cls ∧ (scr = true ∨ MeshRoom s wid w)

/-- The witness operand of a load: none, or the pair that the EXT unit names (R111). -/
def WitOk (s : State) (wid : Nat) (w : Wave) (f : Frag) (x : Ext) (v : DWord) : Prop :=
  match (memExt x).wit with
  | none => v = 0
  | some n => SSrc.Ready w { fd := n, cnt := 2, pair := true } ∧ witnessTrap s w.glade v = none ∧
      v = BitVec.ofNat 64 (scalarVal s wid w f { fd := n, cnt := 2, pair := true })

/-- The address of a lane (R236, R237): base + offset register + OFFSET, modulo 2^64, or 2^32 in scratch. -/
def laneAddr (w : Wave) (f : Frag) (scr : Bool) (base : Nat) (x : Ext) (a : BitVec 7) (l : Nat) : Nat :=
  wrap (if scr then 32 else 64) ((base : Int) + (laneW w f a.toNat l).toNat + (memExt x).ofs)

/-- The base of a vector memory form: one register in scratch, a pair in global memory. -/
def baseOf (s : State) (wid : Nat) (w : Wave) (f : Frag) (scr : Bool) (b : BitVec 8) : Nat :=
  if scr then (opS s wid w f b).toNat else (opS64 s wid w f b).toNat
def BaseOk (w : Wave) (scr : Bool) (b : BitVec 8) : Prop := if scr then SrcS w b else SrcS64 w b

/-- Every active lane's address passes its checks; `home` gives the home locations of the global ones (0 in scratch). -/
def AddrsOk (s : State) (wid : Nat) (w : Wave) (f : Frag) (scr : Bool) (size kind : Nat) (va home : Nat → Nat) : Prop :=
  ∀ l, l < 32 → f.active.getLsbD l = true →
    if scr then ScratchOk s w (va l) size size ∧ home l = 0 else Translated s wid w (va l) size kind (home l)

/-- A global store finds a copy-on-write page: its fault is queued, the wave waits for it with its fragment at the unit, and the
store's tag is pinned on its core (R62, R224, R374). -/
def CowWaits (i : Instr) (s : State) (wid eid : Nat) (w : Wave) (f : Frag) (va : Nat) : Prop :=
  w.intr = none → f.pin = none → ∃ t w' e g, exec i s = .next t ∧ t.mem = s.mem ∧ t.ops = s.ops ∧ t.wave? wid = some w' ∧
    e.id ∈ w'.replay ∧ e ∈ (t.gladeSt w.glade).faultq ∧ e.ctx = memCtx w ∧ e.va / 2 ^ 16 = va / 2 ^ 16 ∧ e.cow = true ∧
    w'.frag? eid = some g ∧ g.pc = f.pc ∧ g.held = f.held ∧ g.pin = some ((s.coreSt (w.coreNo wid)).view, w.coreNo wid)

/-- Traps of an address by R236, in order, for an access of a unit `i`: non-canonical, misaligned, PERM, on a control core also
where context 0 is not open (R439); a store waits on a copy-on-write page, and without a cached translation the unit waits for a walk. -/
def AddrTraps (i : Instr) (s : State) (wid eid : Nat) (w : Wave) (f : Frag) (va size kind : Nat) : Prop :=
  (2 ^ 52 ≤ va → Traps i s wid eid f addrNoncanon 0 va) ∧
  (va < 2 ^ 52 → va % size ≠ 0 → Traps i s wid eid f misalign 0 va) ∧
  (va < 2 ^ 52 → va % size = 0 → w.control = true → ctxState s w.glade 0 ≠ 1 → Traps i s wid eid f perm 0 va) ∧
  (va < 2 ^ 52 → va % size = 0 → (w.control = true → ctxState s w.glade 0 = 1) →
    (∀ p, tlbLookup s (w.coreNo wid) w.glade (memCtx w) va = some p → kind = aWrite → p.cow = false → p.w = false →
      Traps i s wid eid f perm 0 va) ∧
    (∀ p, tlbLookup s (w.coreNo wid) w.glade (memCtx w) va = some p → kind = aWrite → p.cow = true → CowWaits i s wid eid w f va) ∧
    (tlbLookup s (w.coreNo wid) w.glade (memCtx w) va = none → ∃ t k, exec i s = .next t ∧
      k ∈ (t.coreSt (w.coreNo wid)).walks ∧ k.wid = wid ∧ k.eid = eid ∧ k.va / 2 ^ 16 = va / 2 ^ 16 ∧ t.mem = s.mem ∧
      ∃ g, t.frag? wid eid = some g ∧ g.stall = .xlateMiss ∧ g.pc = f.pc))

/-- The address of one lane passes its checks. -/
def LaneOk (s : State) (wid : Nat) (w : Wave) (scr : Bool) (size kind va : Nat) : Prop :=
  if scr then ScratchOk s w va size size else ∃ home, Translated s wid w va size kind home

/-- The lowest active lane whose address fails its checks decides what a vector memory unit takes (R235 to R237). -/
def LaneTraps (i : Instr) (s : State) (wid eid : Nat) (w : Wave) (f : Frag) (scr : Bool) (size kind : Nat) (va : Nat → Nat) : Prop :=
  ∀ l, l < 32 → f.active.getLsbD l = true → (∀ k, k < l → f.active.getLsbD k = true → LaneOk s wid w scr size kind (va k)) →
    if scr then
      (va l % size ≠ 0 → Traps i s wid eid f misalign 0 (va l)) ∧
      (va l % size = 0 → ¬ ScratchOk s w (va l) size size → Traps i s wid eid f perm 0 (va l))
    else AddrTraps i s wid eid w f (va l) size kind

/-- A vector load of `size` bytes per lane issues: its destinations become empty, and one operation performs it. With no
active lane nothing happens. -/
def LoadForm (scr : Bool) (size : Nat) (i : Ext → BitVec 7 → BitVec 7 → BitVec 8 → Bool → Instr) : Prop :=
  ∀ (s : State) (wid eid : Nat) (w : Wave) (f : Frag) (x : Ext) (d a : BitVec 7) (b : BitVec 8) (fa : Bool) (v : DWord)
    (home : Nat → Nat),
    MemIssuing s wid eid w f scr cLD → w.control = false → WitOk s wid w f x v → SrcV w f a.toNat → BaseOk w scr b →
    DstVReady w f (d.toNat, dataRegs size, size == 8) →
    let m := memExt x
    let va := laneAddr w f scr (baseOf s wid w f scr b) x a
    let dst := range (vecNo f d.toNat) (dataRegs size)
    let o : Op := { mkOp wid eid w f .load (some cLD) with
      accs := (lanesOf f.active).map fun l => { lane := l, va := va l, home := home l }
      size := size, dst := dst, scr := scr, scope := m.scope, pol := m.pol, rc := m.rc, wit := v }
    LaneTraps (i x d a b fa) s wid eid w f scr size aRead va ∧
    (AddrsOk s wid w f scr size aRead va home → LinesFit s o →
      (f.active = 0#32 → ∃ t, exec (i x d a b fa) s = .next t ∧ UnitEnds s t wid eid w (afterUnit (extSize x) true f)) ∧
      (f.active ≠ 0#32 →
        StartsOp (i x d a b fa) (extSize x) s (if scr then s else requestWitness s w.core w.glade w.ctx v) wid eid (w.markEmptyV dst)
          f o))

/-- A vector store of `size` bytes per lane issues; with no active lane it stores nothing. A global one makes its block published (R66), takes its core's view as
its tag (R216), and merges its witness into the wave's store witness (R221). -/
def StoreForm (scr : Bool) (size : Nat) (i : Ext → BitVec 7 → BitVec 7 → BitVec 8 → Bool → Instr) : Prop :=
  ∀ (s : State) (wid eid : Nat) (w : Wave) (f : Frag) (x : Ext) (d a : BitVec 7) (b : BitVec 8) (fa : Bool)
    (home : Nat → Nat),
    MemIssuing s wid eid w f scr cST → w.control = false → SrcV w f a.toNat → BaseOk w scr b →
    VSrc.Ready w f { fd := d.toNat, cnt := dataRegs size, pair := size == 8 } → f.pin = none →
    let m := memExt x
    let va := laneAddr w f scr (baseOf s wid w f scr b) x a
    let view := (s.coreSt w.core).view
    let o : Op := { mkOp wid eid w f .store (some cST) with
      accs := (lanesOf f.active).map fun l => { lane := l, va := va l, home := home l, data := vecVal w (vecNo f d.toNat) (dataRegs size) l % 2 ^ (8 * size) }
      size := size, scr := scr, scope := m.scope, pol := m.pol, rc := m.rc }
    LaneTraps (i x d a b fa) s wid eid w f scr size aWrite va ∧
    (AddrsOk s wid w f scr size aWrite va home → LinesFit s o →
    if f.active = 0#32 then ∃ t, exec (i x d a b fa) s = .next t ∧
      UnitEnds (if scr then s else publish s w.blk) t wid eid w (afterUnit (extSize x) true f)
    else if scr then StartsOp (i x d a b fa) (extSize x) s s wid eid w f o
    else StartsOp (i x d a b fa) (extSize x) s (publish s w.blk) wid eid
      { w with sw := (lanesOf f.active).foldl (fun sw l =>
          wMerge sw (mkWit (if m.scope = 2 ∨ 2 ^ 56 ≤ home l then 3 else 1) w.glade
            (if m.scope = 2 ∨ 2 ^ 56 ≤ home l then 0 else w.core) view)) w.sw }
      f { o with tag := some view })

/-- The address of a scalar form (R236). -/
def scalarVa (s : State) (wid : Nat) (w : Wave) (f : Frag) (x : Ext) (a b : BitVec 8) : Nat :=
  wrap 64 (((opS64 s wid w f a).toNat : Int) + (opS s wid w f b).toNat + (memExt x).ofs)

/-- A scalar load (R243). -/
def ScalarLoadForm (size : Nat) (i : Ext → BitVec 8 → BitVec 8 → BitVec 8 → Instr) : Prop :=
  ∀ (s : State) (wid eid : Nat) (w : Wave) (f : Frag) (x : Ext) (d a b : BitVec 8) (v : DWord) (home : Nat),
    MemIssuing s wid eid w f true cLD → WitOk s wid w f x v → SrcS64 w a → SrcS w b →
    DstSReady w (d.toNat, size / 4, size == 8) → Translated s wid w (scalarVa s wid w f x a b) size aRead home →
    let m := memExt x
    let o : Op := { mkOp wid eid w f .load (some cLD) with
      accs := [{ lane := lowLane f.memb, va := scalarVa s wid w f x a b, home := home }]
      size := size, sdst := range d.toNat (size / 4), scope := m.scope, pol := m.pol, rc := m.rc, wit := v }
    LinesFit s o →
    StartsOp (i x d a b) (extSize x) s (requestWitness s (w.coreNo wid) w.glade (memCtx w) v) wid eid
      (w.markEmptyS (range d.toNat (size / 4))) f o

/-- A scalar store (R243). -/
def ScalarStoreForm (size : Nat) (i : Ext → BitVec 8 → BitVec 8 → BitVec 8 → Instr) : Prop :=
  ∀ (s : State) (wid eid : Nat) (w : Wave) (f : Frag) (x : Ext) (d a b : BitVec 8) (home : Nat),
    MemIssuing s wid eid w f true cST → SrcS64 w a → SrcS w b →
    SSrc.Ready w { fd := d.toNat, cnt := size / 4, pair := size == 8 } → f.pin = none →
    Translated s wid w (scalarVa s wid w f x a b) size aWrite home →
    let m := memExt x
    let view := (s.coreSt (w.coreNo wid)).view
    let o : Op := { mkOp wid eid w f .store (some cST) with
      accs := [{ lane := lowLane f.memb, va := scalarVa s wid w f x a b, home := home, data := scalarVal s wid w f { fd := d.toNat, cnt := size / 4, pair := size == 8 } % 2 ^ (8 * size) }]
      size := size, scope := m.scope, pol := m.pol, rc := m.rc }
    LinesFit s o →
    StartsOp (i x d a b) (extSize x) s (publish s w.blk) wid eid
      { w with sw := wMerge w.sw (storeWit w (m.scope == 2 || isFar home) view) } f { o with tag := some view }

/-- A byte that a load of a core reads: of the core's own line where dirty, of a valid clean copy that has not expired, and
else of the home slice; a peer that a read is forwarded to returns the same bytes (R202 to R204, R211, R355). -/
def ReadsByte (s : State) (core g c scope pol va home n i v : Nat) : Prop :=
  let far := (getByte s.mem (home + i)).toNat
  match lineFind s core g c va with
  | none => v / 256 ^ i % 256 = far
  | some e =>
    v / 256 ^ i % 256 =
      if e.dirty.getLsbD (va % 128 + i) = false ∧ (bypasses scope pol home = true ∨ l1Misses s core g c va n = true)
      then far else (e.data.extractLsb' (8 * (va % 128 + i)) 8).toNat

/-- A byte of memory that is dirty in a line. -/
def dirtyAt (e : L1Line) (y : Nat) : Prop := e.home ≤ y ∧ y < e.home + 128 ∧ e.dirty.getLsbD (y - e.home) = true

/-- A write of `n` bytes in L1: the line of a context holds them dirty, and of its other bytes the dirty ones are kept (R202). -/
def LineTakes (s t : State) (core g c va home n x : Nat) : Prop :=
  ∃ e, lineFind t core g c va = some e ∧ e.home + va % 128 = home ∧
    ∀ j, j < 128 →
      let old := (lineFind s core g c va).getD {}
      if va % 128 ≤ j ∧ j < va % 128 + n
      then e.dirty.getLsbD j = true ∧ e.data.extractLsb' (8 * j) 8 = BitVec.ofNat 8 (x / 256 ^ (j - va % 128))
      else e.dirty.getLsbD j = old.dirty.getLsbD j ∧
        (old.dirty.getLsbD j = true → e.data.extractLsb' (8 * j) 8 = old.data.extractLsb' (8 * j) 8)

end Sys2Proof.Claims

open Sys2Proof Sys2Proof.Machine Sys2Proof.Claims

/-- R235, R236, R237, R240, R241, R242, R243: every load issues, empties its destinations and leaves memory alone. -/
def Sys2Proof.Claims.LoadsIssue : Prop :=
  (LoadForm false 1 .vldB ∧ LoadForm false 2 .vldH ∧ LoadForm false 4 .vldW ∧ LoadForm false 8 .vldD ∧
   LoadForm false 16 .vldQ) ∧
  (LoadForm true 1 .vldsB ∧ LoadForm true 2 .vldsH ∧ LoadForm true 4 .vldsW ∧ LoadForm true 8 .vldsD ∧
   LoadForm true 16 .vldsQ) ∧
  ScalarLoadForm 4 .sldW ∧ ScalarLoadForm 8 .sldD

/-- R216, R221, R235, R236, R237, R241, R243: every store issues with its data, tag and witness; memory does not change
until it performs. -/
def Sys2Proof.Claims.StoresIssue : Prop :=
  (StoreForm false 1 .vstB ∧ StoreForm false 2 .vstH ∧ StoreForm false 4 .vstW ∧ StoreForm false 8 .vstD ∧
   StoreForm false 16 .vstQ) ∧
  (StoreForm true 1 .vstsB ∧ StoreForm true 2 .vstsH ∧ StoreForm true 4 .vstsW ∧ StoreForm true 8 .vstsD ∧
   StoreForm true 16 .vstsQ) ∧
  ScalarStoreForm 4 .sstW ∧ ScalarStoreForm 8 .sstD

/-- R236, R378: the traps of a scalar load's and store's address, and the wait for a walk. -/
def Sys2Proof.Claims.AddressChecks : Prop :=
  ∀ (s : State) (wid eid : Nat) (w : Wave) (f : Frag) (x : Ext) (d a b : BitVec 8), Issuing s wid eid w f → SrcS64 w a →
    SrcS w b → (memExt x).wit = none → f.pin = none →
    let va := scalarVa s wid w f x a b
    (DstS w d → AddrTraps (.sldW x d a b) s wid eid w f va 4 aRead) ∧
    (DstS64 w d → AddrTraps (.sldD x d a b) s wid eid w f va 8 aRead) ∧
    (SrcS w d → AddrTraps (.sstW x d a b) s wid eid w f va 4 aWrite) ∧
    (SrcS64 w d → AddrTraps (.sstD x d a b) s wid eid w f va 8 aWrite)

/-- R22, R202, R203, R204, R205, R211, R212, R216, R355: what a core's read of global memory returns, forwarded or not, and where
its write goes, while its L1 has room for a line; and the lines that an L1 over its room gives up, whose dirty bytes land. -/
def Obligations.GlobalReadsAndWrites : Prop :=
  (∀ (s : State) (core : Nat), (s.coreSt core).l1.length ≤ l1Lines s core → evictLines s core = s) ∧
  (∀ (s : State) (core : Nat),
    let n := l1Lines s core
    let l := (s.coreSt core).l1
    n < l.length → (l.Pairwise fun a b => ¬ (a.glade = b.glade ∧ a.ctx = b.ctx ∧ a.va = b.va)) → (∀ e ∈ l, e.va % 128 = 0) →
    Memory.wf s.mem = true →
    let t := evictLines s core
    (t.coreSt core).l1 = l.take n ∧ (∀ y, (∀ e ∈ l.drop n, ¬ dirtyAt e y) → getByte t.mem y = getByte s.mem y) ∧
    ∀ y, ∀ e ∈ l.drop n, dirtyAt e y → (∀ e' ∈ l.drop n, e' ≠ e → ¬ dirtyAt e' y) →
      getByte t.mem y = e.data.extractLsb' (8 * (y - e.home)) 8) ∧
  (∀ (s : State) (core : Nat), core < 256 → l1Lines s core = (1536 * 1024 - (s.coreSt core).scrSize) / 128) ∧
  ∀ (s : State) (peer : Bool) (core g c scope pol rc tag va home n x : Nat), 1 ≤ n → va % 128 + n ≤ 128 → va % 128 ≤ home →
    (s.coreSt core).l1.length < l1Lines s core →
    (∀ e, lineFind s core g c va = some e → e.home + va % 128 = home) →
    (let r := readWith peer s core g c scope pol rc va home n
     r.2.mem = s.mem ∧ r.1 < 256 ^ n ∧ ∀ i, i < n → ReadsByte s core g c scope pol va home n i r.1) ∧
    (let t := writeGlobal s core g c scope pol tag va home n x
     (bypasses scope pol home = false → t.mem = s.mem ∧ LineTakes s t core g c va home n x) ∧
     (bypasses scope pol home = true → Memory.wf s.mem = true →
       (lineFind s core g c va = none → t.mem = setMem s.mem home n x) ∧
       (∀ y, home ≤ y → y < home + n → getByte t.mem y = BitVec.ofNat 8 (x / 256 ^ (y - home)))))

/-- R150, R199, R201, R213, R222, R225, R238, R241, R247, R364: performing loads, stores and write-backs; a load whose witness has
become poisoned traps, one that reads a line with a poison mark meets an uncorrectable error, and the results of a wave whose
lanes have all ended are discarded. -/
def Obligations.LoadsAndStoresPerform : Prop :=
  (∀ (s : State) (op : Nat) (o : Op) (w : Wave) (n c : Nat), s.op? op = some o → o.kind = .load → o.done = false →
    o.cls = some cLD → inOrder s op o = true → bwHeld s o = false →
    (o.scr = true ∨ (poisoned s o.glade o.wit = false ∧ satisfied s o.core o.glade o.wit = true)) → o.meetsMark s = false →
    s.wave? o.wid = some w → w.intr = none → w.ended ≠ 0xFFFFFFFF#32 → OpUnwatched s w o →
    Tab.wf w.vregs = true → Tab.wf w.sregs = true → o.dst = range n c → o.sdst = [] →
    let s1 := if o.scr then s else useWitness s o.core o.glade o.wit
    let r := readAccs s1 o o.accs
    ∃ t w', exec (.loadPerform op) s = .next t ∧ t.mem = r.2.mem ∧
      t.ops = retireList o.wid cLD (Tab.put s.ops op { o with done := true }) ∧ t.wave? o.wid = some w' ∧
      (∀ q l, l < 32 → w'.vreg q l = if n ≤ q ∧ q < n + c ∧ o.active.getLsbD l = true
        then BitVec.ofNat 32 (laneData r.1 l / 2 ^ (32 * (q - n))) else w.vreg q l) ∧
      (∀ q, q ∈ w'.vEmpty ↔ q ∈ w.vEmpty ∧ ¬ (n ≤ q ∧ q < n + c)) ∧ w'.sregs = w.sregs ∧ w'.fflags = w.fflags ∧
      w'.sEmpty = w.sEmpty ∧ w'.ents = w.ents) ∧
  (∀ (s : State) (op : Nat) (o : Op) (w : Wave) (n c : Nat) (a : Acc), s.op? op = some o → o.kind = .load →
    o.done = false → o.cls = some cLD → inOrder s op o = true → bwHeld s o = false → o.scr = false →
    poisoned s o.glade o.wit = false → satisfied s o.core o.glade o.wit = true → o.meetsMark s = false →
    s.wave? o.wid = some w → w.intr = none → w.ended ≠ 0xFFFFFFFF#32 → OpUnwatched s w o →
    Tab.wf w.sregs = true → o.dst = [] → o.sdst = range n c → o.accs = [a] →
    let r := readGlobal (useWitness s o.core o.glade o.wit) o.core o.glade o.ctx o.scope o.pol o.rc a.va a.home o.size
    let v := r.1
    ∃ t w', exec (.loadPerform op) s = .next t ∧ t.mem = r.2.mem ∧ t.wave? o.wid = some w' ∧
      (∀ q, w'.sreg q = if n ≤ q ∧ q < n + c then BitVec.ofNat 32 (v / 2 ^ (32 * (q - n))) else w.sreg q) ∧
      (∀ q, q ∈ w'.sEmpty ↔ q ∈ w.sEmpty ∧ ¬ (n ≤ q ∧ q < n + c)) ∧ w'.vregs = w.vregs ∧ w'.fflags = w.fflags) ∧
  (∀ (s : State) (op : Nat) (o : Op), s.op? op = some o → o.kind = .load → o.done = false → inOrder s op o = true →
    bwHeld s o = false → o.scr = false →
    (poisoned s o.glade o.wit = true →
      exec (.loadPerform op) s = .next (opTrap { s with ops := Tab.del s.ops op } o witnessPoisoned 0)) ∧
    (poisoned s o.glade o.wit = false → satisfied s o.core o.glade o.wit = true →
      (o.meetsMark s = true → exec (.loadPerform op) s = .next (opUncorr s op o)) ∧
      (∀ w, o.meetsMark s = false → s.wave? o.wid = some w → w.ended = 0xFFFFFFFF#32 → OpUnwatched s w o →
        ∃ t, exec (.loadPerform op) s = .next t ∧ t.wave? o.wid = some w))) ∧
  (∀ (s : State) (op : Nat) (o : Op), s.op? op = some o → o.kind = .store → o.done = false → o.cls = some cST →
    inOrder s op o = true →
    (o.scr = true → ∃ t, exec (.storePerform op) s = .next t ∧ t.mem = s.mem ∧ t.waves = s.waves ∧
      t.blocks = (o.accs.foldl (fun s a => scrWritten s o.blk a.va o.size a.data) s).blocks ∧
      t.ops = retireList o.wid cST (Tab.put s.ops op { o with done := true })) ∧
    (o.scr = false → o.pinCore = none →
      let t' := o.accs.foldl (fun s a =>
        writeGlobal s o.core o.glade o.ctx o.scope o.pol (o.tag.getD 0) a.va a.home o.size a.data) s
      ∃ t, exec (.storePerform op) s = .next t ∧ t.waves = s.waves ∧ t.mem = t'.mem ∧ t.cores = t'.cores ∧
        t.ops = retireList o.wid cST (Tab.put s.ops op { o with done := true })) ∧
    (o.scr = false → o.pinCore = none → (∀ a ∈ o.accs, bypasses o.scope o.pol a.home = true ∧
        lineFind s o.core o.glade o.ctx a.va = none) →
      ∃ t, exec (.storePerform op) s = .next t ∧ t.waves = s.waves ∧
        t.mem = o.accs.foldl (fun m a => setMem m a.home o.size a.data) s.mem ∧
        t.ops = retireList o.wid cST (Tab.put s.ops op { o with done := true })) ∧
    (o.scr = false → o.pinCore = none → (∀ a ∈ o.accs, bypasses o.scope o.pol a.home = false) →
        (s.coreSt o.core).l1.length + o.accs.length ≤ l1Lines s o.core →
      (∃ t, exec (.storePerform op) s = .next t ∧ t.waves = s.waves ∧ t.mem = s.mem ∧
        t.ops = retireList o.wid cST (Tab.put s.ops op { o with done := true })) ∧
      ∀ a, o.accs = [a] → 1 ≤ o.size → a.va % 128 + o.size ≤ 128 → a.va % 128 ≤ a.home →
        (∀ e, lineFind s o.core o.glade o.ctx a.va = some e → e.home + a.va % 128 = a.home) →
        ∃ t, exec (.storePerform op) s = .next t ∧ LineTakes s t o.core o.glade o.ctx a.va a.home o.size a.data)) ∧
  (∀ (s : State) (op : Nat) (o : Op) (a : Acc), s.op? op = some o → o.kind = .writeBack → o.done = false →
    o.cls = some cST → inOrder s op o = true → o.scr = false → o.accs = [a] →
    ∃ t, exec (.storePerform op) s = .next t ∧ t.waves = s.waves ∧
      t.ops = retireList o.wid cST (Tab.put s.ops op { o with done := true }) ∧
      (∀ e ∈ (t.coreSt o.core).l1, e.glade = o.glade → e.ctx = o.ctx → e.va < a.va + a.va2 → a.va < e.va + 128 →
        e.dirty = 0 ∧ o.stage ≠ 1) ∧
      (∀ y, (∀ e ∈ (s.coreSt o.core).l1, e.glade = o.glade → e.ctx = o.ctx → y < e.home ∨ e.home + 128 ≤ y) →
        Memory.wf s.mem = true → getByte t.mem y = getByte s.mem y) ∧
      (∀ e ∈ (s.coreSt o.core).l1, e.glade = o.glade → e.ctx = o.ctx → e.va < a.va + a.va2 → a.va < e.va + 128 →
        (∀ e' ∈ (s.coreSt o.core).l1, e' ≠ e → e'.home + 128 ≤ e.home ∨ e.home + 128 ≤ e'.home) → Memory.wf s.mem = true →
        ∀ n < 128, getByte t.mem (e.home + n) =
          if e.dirty.getLsbD n then e.data.extractLsb' (8 * n) 8 else getByte s.mem (e.home + n)))

/-- R247, R351, R382: `cwb` and `cinv` start a write-back, a count of 0 does nothing, and `pref` changes no value, completing at once
where neither the mesh nor a bandwidth share holds it. -/
def Sys2Proof.Claims.CacheMaintenance : Prop :=
  ∀ (s : State) (wid eid : Nat) (w : Wave) (f : Frag) (x : Ext) (d a : BitVec 8), Issuing s wid eid w f → SrcS w d →
    SrcS64 w a →
    let n := (opS s wid w f d).toNat
    let va := (opS64 s wid w f a).toNat
    (n = 0 → ∃ t, exec (.cwb d a) s = .next t ∧ UnitEnds s t wid eid w (afterUnit 4 true f)) ∧
    (n = 0 → ∃ t, exec (.cinv d a) s = .next t ∧ UnitEnds s t wid eid w (afterUnit 4 true f)) ∧
    (n ≠ 0 → 2 ^ 52 ≤ va → Traps (.cwb d a) s wid eid f addrNoncanon 0 va ∧ Traps (.cinv d a) s wid eid f addrNoncanon 0 va) ∧
    (n ≠ 0 → va < 2 ^ 52 → Room s wid cST → MeshRoom s wid w →
      StartsOp (.cwb d a) 4 s s wid eid w f
        { mkOp wid eid w f .writeBack (some cST) with accs := [{ va := va, va2 := n }], stage := 0 } ∧
      StartsOp (.cinv d a) 4 s s wid eid w f
        { mkOp wid eid w f .writeBack (some cST) with accs := [{ va := va, va2 := n }], stage := 1 }) ∧
    let core := w.coreNo wid
    let lines := match f.held with
      | some h => h.b
      | none => if n = 0 then 0 else min ((va % 128 + n + 127) / 128) 12288
    (∃ t w', exec (.pref x d a) s = .next t ∧
      (Memory.wf s.mem = true → ∀ y, (∀ e ∈ (s.coreSt (w.coreNo wid)).l1, y < e.home ∨ e.home + 128 ≤ y) →
        getByte t.mem y = getByte s.mem y) ∧
      ((s.coreSt core).l1.length + lines ≤ l1Lines s core → t.mem = s.mem) ∧ t.ops = s.ops ∧ (∀ k, k ≠ wid → t.wave? k = s.wave? k) ∧
      t.wave? wid = some w' ∧ w'.rest = w.rest ∧ (lines = 0 → UnitEnds s t wid eid w (afterUnit (extSize x) true f)) ∧
      (regFld s (.gld w.glade) 0x34 7 0 = 0 → (∀ e ∈ s.ops, e.2.core ≠ core ∨ e.2.done = true) →
        (∀ p ∈ Tab.vals s.probes, p.reader ≠ core) → w'.retired = w.retired + 1 ∧
        (f.stack = [] → f.rejoin = none → f.stepping = 0 → w'.frag? eid = some (afterUnit (extSize x) true f))))

/-- R112, R216, R221, R235 to R238, R241, R243, R247, R378: loads, stores and cache maintenance issue, and the traps of their addresses. -/
def Obligations.MemoryUnitsIssue : Prop := LoadsIssue ∧ StoresIssue ∧ AddressChecks ∧ CacheMaintenance

/-- R226, R244, R245: the new value an atomic gives the location, on words. -/
def Sys2Proof.Claims.AtomicFunctions : Prop :=
  ∀ (s : State) (g : Nat) (rnd : Nat) (old x : Word),
    let f := fun aop au => atomNew s g aop au rnd old.toNat x.toNat
    f 0 false = (old + x).toNat ∧ f 1 false = (old - x).toNat ∧
    f 2 false = (if old.sle x then old else x).toNat ∧ f 2 true = (if old ≤ x then old else x).toNat ∧
    f 3 false = (if x.sle old then old else x).toNat ∧ f 3 true = (if x ≤ old then old else x).toNat ∧
    f 4 false = (old &&& x).toNat ∧ f 5 false = (old ||| x).toNat ∧ f 6 false = (old ^^^ x).toNat ∧
    f 7 false = x.toNat ∧ f 9 false = (fadd FP32 rnd old.toNat x.toNat).1 ∧
    f 10 false = (fadd BF16 rnd (old.toNat % 2 ^ 16) (x.toNat % 2 ^ 16)).1 +
      2 ^ 16 * (fadd BF16 rnd (old.toNat / 2 ^ 16) (x.toNat / 2 ^ 16)).1 ∧
    (∀ new : Word, atomNew s g 8 false rnd old.toNat (x.toNat + new.toNat * 2 ^ 32) = if old = x then new.toNat else old.toNat) ∧
    (∀ p q : DWord, atomNew s g 11 false rnd p.toNat q.toNat = (wMerge (if witnessTrap s g p = none then p else 0) q).toNat)

/-- R112, R226, R228, R233, R244, R245, R246: atomics issue with their operands and execute in lane order, at the home slice or, in
scope core, in the core's L1 line; a returning one gives each lane the value its access found. -/
def Sys2Proof.Claims.Atomics : Prop :=
  (∀ (s : State) (wid eid : Nat) (w : Wave) (f : Frag) (aop : BitVec 4) (au : Bool) (sc : BitVec 2) (ofs : BitVec 12)
    (d a : BitVec 7) (b : BitVec 8) (fa : Bool) (home : Nat → Nat),
    Issuing s wid eid w f → Unwatched s w → MeshRoom s wid w → w.control = false → SrcV w f a.toNat → SrcS64 w b →
    aop.toNat < 12 → f.pin = none →
    let x : Ext := .atom aop au sc ofs
    let k := aop.toNat
    let va := laneAddr w f false (opS64 s wid w f b).toNat x a
    let view := (s.coreSt w.core).view
    let data := fun l => vecVal w (vecNo f d.toNat) (atomData k) l
    let sw := (lanesOf f.active).foldl (fun sw l => wMerge sw (storeWit w (sc == 2#2 || isFar (home l)) view)) w.sw
    VSrc.Ready w f { fd := d.toNat, cnt := atomData k, pair := k == 11 } →
    (Room s wid cST → LaneTraps (.vatom x d a b fa) s wid eid w f false (atomSize k) aWrite va ∧
      (f.active = 0#32 → ∃ t, exec (.vatom x d a b fa) s = .next t ∧
        UnitEnds (publish s w.blk) t wid eid w (afterUnit 8 true f))) ∧
    (Room s wid cAT → DstVReady w f (d.toNat, atomDest k, k == 11) →
      LaneTraps (.vatomRtn x d a b fa) s wid eid w f false (atomSize k) aWrite va ∧
      (f.active = 0#32 → ∃ t, exec (.vatomRtn x d a b fa) s = .next t ∧
        UnitEnds (publish s w.blk) t wid eid w (afterUnit 8 true f))) ∧
    (f.active ≠ 0#32 → AddrsOk s wid w f false (atomSize k) aWrite va home →
    (k = 11 → ∀ l, l < 32 → f.active.getLsbD l = true → witnessTrap s w.glade (BitVec.ofNat 64 (data l)) = none) →
    let op := fun (cls : Nat) (dst : List Nat) => { mkOp wid eid w f .atomic (some cls) with
      accs := (lanesOf f.active).map fun l => { lane := l, va := va l, home := home l, data := data l }
      size := atomSize k, dst := dst, scope := sc.toNat, aop := k, au := au, tag := some view }
    (Room s wid cST → LinesFit s (op cST []) → StartsOp (.vatom x d a b fa) 8 s (publish s w.blk) wid eid { w with sw := sw } f (op cST [])) ∧
    (Room s wid cAT → DstVReady w f (d.toNat, atomDest k, k == 11) →
      let dst := range (vecNo f d.toNat) (atomDest k)
      LinesFit s (op cAT dst) →
      StartsOp (.vatomRtn x d a b fa) 8 s (publish s w.blk) wid eid ({ w with sw := sw }.markEmptyV dst) f (op cAT dst)))) ∧
  (∀ (s : State) (wid eid : Nat) (w : Wave) (f : Frag) (aop : BitVec 4) (au : Bool) (sc : BitVec 2) (ofs : BitVec 12)
    (d a b : BitVec 8) (home : Nat), MemIssuing s wid eid w f true cAT → SrcS64 w a → aop.toNat < 12 → f.pin = none →
    let x : Ext := .atom aop au sc ofs
    let k := aop.toNat
    let va := wrap 64 (((opS64 s wid w f a).toNat : Int) + ofs.toInt)
    let view := (s.coreSt (w.coreNo wid)).view
    let data := scalarVal s wid w f { fd := b.toNat, cnt := atomData k, pair := k == 11 }
    SSrc.Ready w { fd := b.toNat, cnt := atomData k, pair := k == 11 } → DstSReady w (d.toNat, atomDest k, k == 11) →
    Translated s wid w va (atomSize k) aWrite home →
    (k = 11 → witnessTrap s w.glade (BitVec.ofNat 64 data) = none) →
    let dst := range d.toNat (atomDest k)
    let o : Op := { mkOp wid eid w f .atomic (some cAT) with
      accs := [{ lane := lowLane f.memb, va := va, home := home, data := data }]
      size := atomSize k, sdst := dst, scope := sc.toNat, aop := k, au := au }
    LinesFit s o →
    StartsOp (.satom x d a b) 8 s (publish s w.blk) wid eid
      ({ w with sw := wMerge w.sw (storeWit w (sc == 2#2 || isFar home) view) }.markEmptyS dst) f { o with tag := some view }) ∧
  (∀ (s : State) (wid eid : Nat) (w : Wave) (f : Frag) (d a : BitVec 7) (b : BitVec 8) (fa : Bool) (e g h : BitVec 8),
    Issuing s wid eid w f → Traps (.vatom .none d a b fa) s wid eid f illegalOp 0 0 ∧
      Traps (.vatomRtn .none d a b fa) s wid eid f illegalOp 0 0 ∧ Traps (.satom .none e g h) s wid eid f illegalOp 0 0) ∧
  (∀ (s : State) (op : Nat) (o : Op), s.op? op = some o → o.kind = .atomic → o.done = false → inOrder s op o = true →
    entryTurn s op o = true → o.meetsMark s = false → (o.scope ≠ 0 ∨ ∀ a ∈ o.accs, isFar a.home = true) →
    (∀ a ∈ o.accs, lineFind s o.core o.glade o.ctx (lineOf a.va) = none) →
    let new := fun (m : List Host.Cell) (a : Acc) => atomNew s o.glade o.aop o.au (o.fmt.toNat % 4) (getMem m a.home o.size) a.data
    let mem := o.accs.foldl (fun m a => setMem m a.home o.size (new m a)) s.mem
    (o.cls = some cST → ∃ t, exec (.atomicExecute op) s = .next t ∧ t.mem = mem ∧ t.waves = s.waves ∧
      t.ops = retireList o.wid cST (Tab.put s.ops op { o with done := true })) ∧
    (∀ (a : Acc) (w : Wave) (r : Nat), o.cls = some cAT → o.accs = [a] → o.dst = [] → o.sdst = [r] → o.size = 4 →
      s.wave? o.wid = some w → w.intr = none → w.ended ≠ 0xFFFFFFFF#32 → OpUnwatched s w o →
      ∃ t w', exec (.atomicExecute op) s = .next t ∧ t.mem = mem ∧ t.wave? o.wid = some w' ∧
        w'.sregs = (w.setS r (BitVec.ofNat 32 (getMem s.mem a.home 4))).sregs ∧ w'.vregs = w.vregs ∧
        (∀ q, q ∈ w'.sEmpty ↔ q ∈ w.sEmpty ∧ q ≠ r)) ∧
    (∀ (w : Wave) (r n : Nat), o.cls = some cAT → o.dst = range r n → o.sdst = [] → (o.accs.map (·.lane)).Nodup →
      s.wave? o.wid = some w → w.intr = none → w.ended ≠ 0xFFFFFFFF#32 → OpUnwatched s w o → Tab.wf w.vregs = true →
      ∃ t w', exec (.atomicExecute op) s = .next t ∧ t.mem = mem ∧ t.wave? o.wid = some w' ∧ w'.sregs = w.sregs ∧
        (∀ q, q ∈ w'.vEmpty ↔ q ∈ w.vEmpty ∧ ¬ (r ≤ q ∧ q < r + n)) ∧
        (∀ q l, l < 32 → q < r ∨ r + n ≤ q ∨ o.active.getLsbD l = false → w'.vreg q l = w.vreg q l) ∧
        ∀ pre a post i, o.accs = pre ++ a :: post → a.lane < 32 → o.active.getLsbD a.lane = true → i < n →
          w'.vreg (r + i) a.lane =
            BitVec.ofNat 32 (getMem (pre.foldl (fun m a => setMem m a.home o.size (new m a)) s.mem) a.home o.size / 2 ^ (32 * i)))) ∧
  (∀ (s : State) (op : Nat) (o : Op) (a : Acc), s.op? op = some o → o.kind = .atomic → o.done = false → inOrder s op o = true →
    entryTurn s op o = true → o.meetsMark s = false → bwHeld s o = false → o.scope = 0 → isFar a.home = false → o.pinCore = none →
    (∀ w, s.wave? o.wid = some w → OpUnwatched s w o) →
    o.accs = [a] → 1 ≤ o.size → a.va % 128 + o.size ≤ 128 → a.va % 128 ≤ a.home →
    (s.coreSt o.core).l1.length < l1Lines s o.core →
    (∀ e, lineFind s o.core o.glade o.ctx a.va = some e → e.home + a.va % 128 = a.home) →
    let old := (readWith false s o.core o.glade o.ctx 1 0 0 a.va a.home o.size).1
    ∃ t e, exec (.atomicExecute op) s = .next t ∧ t.mem = s.mem ∧ lineFind t o.core o.glade o.ctx a.va = some e ∧
      ∀ j, a.va % 128 ≤ j → j < a.va % 128 + o.size → e.dirty.getLsbD j = true ∧
        e.data.extractLsb' (8 * j) 8 =
          BitVec.ofNat 8 (atomNew s o.glade o.aop o.au (o.fmt.toNat % 4) old a.data / 256 ^ (j - a.va % 128)))

/-- R112, R226, R228, R244 to R246: the atomic functions, and atomics that issue and execute. -/
def Obligations.AtomicUnits : Prop := AtomicFunctions ∧ Atomics

namespace Sys2Proof.Claims

open Sys2Proof Sys2Proof.Machine

/-! ## Teams and task queues (R263 to R267) -/

/-- The code of a `tred` identity: operator, type and count (see `redOf`). -/
def tredCode (op t cnt : Nat) : Nat := 1 + op + 8 * t + 64 * (cnt - 1)

/-- A team unit meets a phase of another identity: it and every fragment held at the phase trap TEAM_BAD (R265). -/
def TrapsAll (i : Instr) (s : State) (wid eid : Nat) (f : Frag) (l : List Arrival) : Prop :=
  exec i s = .next (stepTrap f wid eid ((teamMismatch (s.withEv []) wid eid l).withEv []))

/-- A `tred` form: it is held until its wave's arrival completes, traps TEAM_BAD on an invalid slot, and with every other member
on a phase of another identity, and ILLEGAL_OP on a range past s191. -/
def TredForm (op ty cnt : Nat) (i : Ext → BitVec 8 → BitVec 2 → Instr) : Prop :=
  ∀ (s : State) (wid eid : Nat) (w : Wave) (f : Frag) (x : Ext) (d : BitVec 8) (k : BitVec 2), Issuing s wid eid w f →
    w.control = false → w.intr = none →
    let slot := w.teams.getD k.toNat 0
    let team := slot % 256
    let n := nextPlace s w.cmd team wid
    let l := phaseAt s w.cmd team n
    let rs := range d.toNat cnt
    (slot / 256 % 2 = 0 → Traps (i x d k) s wid eid f teamBad 0 0) ∧
    (slot / 256 % 2 = 1 → f.held = none → 192 < d.toNat + cnt → Traps (i x d k) s wid eid f illegalOp 0 0) ∧
    (slot / 256 % 2 = 1 → f.held = none → DstSReady w (d.toNat, cnt, false) → (∃ a ∈ l, a.what ≠ tredCode op ty cnt) →
      TrapsAll (i x d k) s wid eid f l) ∧
    (slot / 256 % 2 = 1 → ∀ h, f.held = some h → h.stage ≠ 0 → ∃ t, exec (i x d k) s = .next t ∧
      UnitEnds s t wid eid w (afterUnit (extSize x) true f)) ∧
    (slot / 256 % 2 = 1 → f.held = none → DstSReady w (d.toNat, cnt, false) → Room s wid cTR →
      (∃ c, Tab.val? s.cmds w.cmd = some c) → (l ≠ [] ∨ openPhases s w.glade < 1024) →
      (∀ a ∈ l, a.what = tredCode op ty cnt ∧ a.wid ≠ wid ∧ a.full = true) → (~~~w.ended &&& ~~~f.memb) = 0#32 →
      (∀ n, x ≠ .timeout n) → f.stack = [] → f.rejoin = none → f.stepping = 0 →
      ∃ t w', exec (i x d k) s = .next t ∧ t.mem = s.mem ∧ t.wave? wid = some w' ∧ w'.sregs = w.sregs ∧
        w'.vregs = w.vregs ∧ (∀ r, r ∈ w'.sEmpty ↔ r ∈ w.sEmpty ∨ r ∈ rs) ∧ w'.vEmpty = w.vEmpty ∧
        t.frag? wid eid = some (afterUnit (extSize x) true f) ∧
        phaseAt t w.cmd team n = l ++ [{ wid := wid, lanes := f.memb, eids := [s.nextId], what := tredCode op ty cnt, vals := rs.map w.sreg, dst := d.toNat, full := true }])

/-- The contributions of a team's members to element `i`, in member order; a member whose lanes have all ended is absent. -/
def contributions (s : State) (cmd : Nat) (l : List Arrival) (ms : List (Nat × Nat)) (i : Nat) : List Word :=
  ms.filterMap fun m => if memberEnded s cmd m then none
    else (memberArrival s cmd l m).bind fun a => if a.full then some (a.vals.getD i 0) else none

/-- A queue header that the slice accepts, `head` and `tail` as given (R266). -/
def IsQueue (s : State) (home rw cap head tail : Nat) : Prop :=
  1 ≤ rw ∧ rw ≤ 8 ∧ (∃ k, k < 24 ∧ cap = 2 ^ k) ∧ getMem s.mem home 4 = (rw - 1) * 2 ^ 28 + cap ∧
  getMem s.mem (home + 4) 4 = head ∧ getMem s.mem (home + 8) 4 = tail ∧ getMem s.mem (home + 0x10) 48 = 0

/-- The queue's header and records lie at one contiguous range of home locations, which the context may write. -/
def QueueMapped (s : State) (g c va home rw cap : Nat) : Prop :=
  ∀ y, y < 64 + cap * (4 * rw) → writableHome s g c (va + y) = some (home + y)

/-- Where the record of a count stands. -/
def recordAt (home rw cap n : Nat) : Nat := home + 64 + n % cap * (4 * rw)

end Sys2Proof.Claims

open Sys2Proof Sys2Proof.Machine Sys2Proof.Claims

/-- R263, R264, R265: team barriers and reductions, and their release. -/
def Sys2Proof.Claims.TeamOperations : Prop :=
  (∀ (t c : BitVec 3), t.toNat ≤ 2 → TredForm 0 t.toNat (c.toNat + 1) (fun x d k => .tredAdd x d k c t) ∧
    TredForm 1 t.toNat (c.toNat + 1) (fun x d k => .tredMin x d k c t) ∧
    TredForm 2 t.toNat (c.toNat + 1) (fun x d k => .tredMax x d k c t)) ∧
  (∀ c : BitVec 3, TredForm 3 0 (c.toNat + 1) (fun x d k => .tredAnd x d k c) ∧
    TredForm 4 0 (c.toNat + 1) (fun x d k => .tredOr x d k c)) ∧
  (∀ (s : State) (wid eid : Nat) (w : Wave) (f : Frag) (x : Ext) (k : BitVec 2), Issuing s wid eid w f → w.control = false →
    let slot := w.teams.getD k.toNat 0
    let team := slot % 256
    let n := nextPlace s w.cmd team wid
    let l := phaseAt s w.cmd team n
    (slot / 256 % 2 = 0 → Traps (.tbar x k) s wid eid f teamBad 0 0) ∧
    (slot / 256 % 2 = 1 → f.held = none → (∃ a ∈ l, a.what ≠ 0) → TrapsAll (.tbar x k) s wid eid f l) ∧
    (slot / 256 % 2 = 1 → f.held = none → (∀ a ∈ l, a.what = 0) → Room s wid cTR → (∃ c, Tab.val? s.cmds w.cmd = some c) →
      (l ≠ [] ∨ openPhases s w.glade < 1024) → (beginWait s x 6 0 0).due s.now = false → ∃ t, exec (.tbar x k) s = .next t ∧
      t.mem = s.mem ∧ t.frag? wid eid = some { f with held := some { beginWait s x 6 0 0 with op := s.nextId }, stall := .taprootWait } ∧
      phaseAt t w.cmd team n = joinArrival l { wid := wid, lanes := f.memb, eids := [s.nextId] }) ∧
    (slot / 256 % 2 = 1 → ∀ h, f.held = some h → h.stage = 1 → witnessTrap s w.glade (BitVec.ofNat 64 h.a) = none →
      WaitForm (.tbar x k) (extSize x) s (useWitness s w.core w.glade (BitVec.ofNat 64 h.a)) wid eid w f h .taprootWait
        (satisfied s w.core w.glade (BitVec.ofNat 64 h.a) = true))) ∧
  (∀ (s : State) (cmd team : Nat), phaseMet s cmd team = true → (∀ a ∈ phaseOf s cmd team, a.what = 0) →
    Tab.wf (s.cmdD cmd).phases = true →
    let wit := (phaseOf s cmd team).foldl (fun p a => wMerge p (s.waveD a.wid).sw) 0
    ∃ t, exec (.tbarRelease cmd team) s = .next t ∧ t.mem = s.mem ∧ phaseOf t cmd team = phaseAt s cmd team 1 ∧
      ∀ a ∈ phaseOf s cmd team, ∀ eid f h, s.frag? a.wid eid = some f → f.held = some h → h.op ∈ a.eids →
        t.frag? a.wid eid = some { f with held := some { h with stage := 1, a := wit.toNat } }) ∧
  (∀ (s : State) (cmd team what : Nat), phaseMet s cmd team = true → what ≠ 0 →
    (∀ a ∈ phaseOf s cmd team, a.what = what ∧ a.full = true) → ((phaseOf s cmd team).map (·.wid)).Nodup →
    Tab.wf (s.cmdD cmd).phases = true →
    let ms := (s.cmdD cmd).teams.getD team []
    ∃ t, exec (.tredRelease cmd team) s = .next t ∧ t.mem = s.mem ∧ phaseOf t cmd team = phaseAt s cmd team 1 ∧
      ∀ a ∈ phaseOf s cmd team, ∀ w, s.wave? a.wid = some w → Tab.wf w.sregs = true → ∃ w', t.wave? a.wid = some w' ∧
        (w.ended = 0xFFFFFFFF#32 → w'.sregs = w.sregs ∧ w'.sEmpty = w.sEmpty) ∧
        (w.ended ≠ 0xFFFFFFFF#32 → ∀ r, w'.sreg r = if a.dst ≤ r ∧ r < a.dst + redCount what
          then tredResult s cmd (phaseOf s cmd team) what ms (r - a.dst) else w.sreg r) ∧
        (w.ended ≠ 0xFFFFFFFF#32 → ∀ r, r ∈ w'.sEmpty ↔ r ∈ w.sEmpty ∧ ¬ (a.dst ≤ r ∧ r < a.dst + redCount what)))

/-- R264: integer reductions over a team do not depend on the tree: every member's contribution counts once. -/
def Sys2Proof.Claims.TeamReductionValues : Prop :=
  ∀ (s : State) (cmd t cnt i : Nat) (l : List Arrival) (ms : List (Nat × Nat)), t ≤ 1 → 1 ≤ cnt → ms.length ≤ 8192 →
    let vs := contributions s cmd l ms i
    tredResult s cmd l (tredCode 0 t cnt) ms i = vs.foldl (fun a b => a + b) 0#32 ∧
    tredResult s cmd l (tredCode 3 0 cnt) ms i = vs.foldl (fun a b => a &&& b) 0xFFFFFFFF#32 ∧
    tredResult s cmd l (tredCode 4 0 cnt) ms i = vs.foldl (fun a b => a ||| b) 0#32 ∧
    tredResult s cmd l (tredCode 1 0 cnt) ms i = vs.foldl smaller 0x7FFFFFFF#32 ∧
    tredResult s cmd l (tredCode 2 0 cnt) ms i = vs.foldl larger 0x80000000#32 ∧
    tredResult s cmd l (tredCode 1 1 cnt) ms i = vs.foldl smallerU 0xFFFFFFFF#32 ∧
    tredResult s cmd l (tredCode 2 1 cnt) ms i = vs.foldl largerU 0#32

/-- R263 to R265: team operations and their values. -/
def Obligations.TeamBarriersAndReductions : Prop := TeamOperations ∧ TeamReductionValues

/-- R266, R267: task queues: requests, their acceptance at the header's slice or QUEUE_FAULT, records pushed and popped oldest first,
and a push without room or a pop without a record that goes on waiting. -/
def Obligations.TaskQueues : Prop :=
  (∀ (s : State) (wid eid : Nat) (w : Wave) (f : Frag) (d a : BitVec 8) (home : Nat), Issuing s wid eid w f → f.held = none →
    SrcS64 w a → Translated s wid w (opS64 s wid w f a).toNat 64 aWrite home → Room s wid cTQ → MeshRoom s wid w →
    let acc : Acc := { va := (opS64 s wid w f a).toNat, home := home }
    let held := fun h : Held => some { f with held := some { h with op := s.nextId }, stall := .other }
    (SrcS w d → ∃ t o, exec (.tqinit d a) s = .next t ∧ t.op? s.nextId = some o ∧ o.kind = .tqinit ∧ o.stage = 0 ∧
      o.cls = some cTQ ∧ o.accs = [acc] ∧ o.args = [(opS s wid w f d).toNat] ∧ t.mem = s.mem ∧
      t.frag? wid eid = held { since := s.now }) ∧
    (216 ≤ d.toNat → Traps (.tqpush d a) s wid eid f illegalOp 0 0) ∧
    (192 ≤ d.toNat → ∀ x, Traps (.tqpop x d a) s wid eid f illegalOp 0 0) ∧
    (d.toNat < 216 → ∃ t o, exec (.tqpush d a) s = .next t ∧ t.op? s.nextId = some o ∧ o.kind = .tqpush ∧ o.stage = 0 ∧ o.cls = some cTQ ∧
      o.accs = [acc] ∧ o.sdst = [d.toNat] ∧ t.mem = s.mem ∧ t.frag? wid eid = held { since := s.now }) ∧
    (d.toNat < 192 → ∀ x, ∃ t o, exec (.tqpop x d a) s = .next t ∧ t.op? s.nextId = some o ∧ o.kind = .tqpop ∧ o.stage = 0 ∧
      o.cls = some cTQ ∧ o.accs = [acc] ∧ o.sdst = [d.toNat] ∧ t.mem = s.mem ∧ t.frag? wid eid = held (beginWait s x 8 0 0))) ∧
  (∀ (s : State) (wid eid : Nat) (w : Wave) (f : Frag) (h : Held) (o : Op) (d a : BitVec 8), Issuing s wid eid w f →
    f.held = some h →
    (h.stage = 1 → ∃ t, exec (.tqinit d a) s = .next t ∧ UnitEnds s t wid eid w (afterUnit 4 true f)) ∧
    (s.op? h.op = some o → o.stage = 1 → olderPush s wid h.op o = true → NotReady (.tqpush d a) s wid eid .other) ∧
    (s.op? h.op = some o → o.stage = 1 → FullS w d.toNat o.size →
      (olderPush s wid h.op o = false → ∃ t, exec (.tqpush d a) s = .next t ∧
        UnitEnds (noteHeld { s.updOp h.op (fun o => { o with stage := 2, slot := s.nextId, args := (range d.toNat o.size).map fun r => (w.sreg r).toNat }) with nextId := s.nextId + 1 }
          o.header.home) t wid eid w (afterUnit 4 true f)) ∧
      (∀ x, h.limit = none → h.stage = 0 → ∃ t, exec (.tqpop x d a) s = .next t ∧
        UnitEnds (noteHeld { s.updOp h.op (fun o => { o with stage := 2, slot := s.nextId, sdst := range d.toNat o.size }) with nextId := s.nextId + 1 }
          o.header.home) t wid eid (w.markEmptyS (range d.toNat o.size)) (afterUnit (extSize x) true f))) ∧
    (∀ x, s.op? h.op = some o → h.stage = 1 → ∃ t, exec (.tqpop x d a) s = .next t ∧
      UnitEnds s t wid eid w (afterUnit (extSize x) true f))) ∧
  (∀ (s s1 : State) (op : Nat) (o : Op) (acc : Acc), s.op? op = some o → o.stage = 0 → o.done = false → o.accs = [acc] →
    o.cls = some cTQ → o.wait = none → portOrder s op o = true → syncTouch s o.glade acc.home = some s1 →
    (∀ c, o.kind = .tqinit → o.args = [c] → geomOk c = true → heldCount s acc.home = 0 → ∃ t,
      exec (.tqRequestArrival op) s = .next t ∧ t.mem = setMem s.mem acc.home 64 c ∧
      t.ops = retireList o.wid cTQ (Tab.put s.ops op { o with done := true })) ∧
    (∀ c, o.kind = .tqinit → o.args = [c] → geomOk c = false ∨ heldCount s acc.home ≠ 0 →
      exec (.tqRequestArrival op) s = .next (takeTrap { s1.updFrag o.wid o.eid (fun f => { f with held := none }) with ops := Tab.del s1.ops op }
        o.wid o.eid queueFault 0 0 0)) ∧
    (∀ rw cap head tail, o.kind = .tqpush ∨ o.kind = .tqpop → IsQueue s acc.home rw cap head tail →
      o.sdst.headD 0 + rw ≤ 192 → areaOk s o.glade o.ctx (acc.va + 64) (cap * 4 * rw) (o.kind == .tqpush) = true →
      ∃ t, exec (.tqRequestArrival op) s = .next t ∧ t.mem = s.mem ∧ t.waves = s.waves ∧
        t.op? op = some { o with stage := 1, size := rw }) ∧
    (o.kind = .tqpush ∨ o.kind = .tqpop → (∀ rw cap head tail, IsQueue s acc.home rw cap head tail → 192 < o.sdst.headD 0 + rw ∨
        areaOk s o.glade o.ctx (acc.va + 64) (cap * 4 * rw) (o.kind == .tqpush) = false) →
      exec (.tqRequestArrival op) s = .next (takeTrap { s1.updFrag o.wid o.eid (fun f => { f with held := none }) with ops := Tab.del s1.ops op }
        o.wid o.eid queueFault 0 0 0))) ∧
  (∀ (s s1 : State) (op : Nat) (o : Op) (acc : Acc) (rw cap head tail : Nat), s.op? op = some o → o.stage = 2 →
    o.done = false → o.accs = [acc] → o.cls = some cTQ → oldest s op o = true → entryTurn s op o = true →
    syncTouch s o.glade acc.home = some s1 → IsQueue s acc.home rw cap head tail →
    QueueMapped s o.glade o.ctx acc.va acc.home rw cap → Memory.wf s.mem = true →
    (o.kind = .tqpush → o.args.length = rw → (tail + 2 ^ 32 - head) % 2 ^ 32 < cap →
      ∃ t, exec (.tqPushLanded op) s = .next t ∧ getMem t.mem (acc.home + 8) 4 = (tail + 1) % 2 ^ 32 ∧
        (∀ i, i < rw → getMem t.mem (recordAt acc.home rw cap tail + 4 * i) 4 = o.args.getD i 0 % 2 ^ 32) ∧
        (∀ y, y < acc.home + 8 ∨ acc.home + 16 ≤ y → y < recordAt acc.home rw cap tail ∨
          recordAt acc.home rw cap tail + 4 * rw ≤ y → getByte t.mem y = getByte s.mem y) ∧ t.waves = s.waves ∧
        t.ops = retireList o.wid cTQ (Tab.put s.ops op { o with done := true })) ∧
    (o.kind = .tqpush → cap ≤ (tail + 2 ^ 32 - head) % 2 ^ 32 →
      exec (.tqPushLanded op) s = .refused (.notEnabled "TQ_PUSH_LANDED")) ∧
    (o.kind = .tqpop → head = tail → exec (.tqPopDeliver op) s = .refused (.notEnabled "TQ_POP_DELIVER")) ∧
    (∀ w n, o.kind = .tqpop → head ≠ tail → s.wave? o.wid = some w → w.intr = none → w.ended ≠ 0xFFFFFFFF#32 → Tab.wf w.sregs = true →
      o.sdst = range n rw →
      ∃ t w', exec (.tqPopDeliver op) s = .next t ∧ getMem t.mem (acc.home + 4) 4 = (head + 1) % 2 ^ 32 ∧
        (∀ y, y < acc.home + 4 ∨ (acc.home + 8 ≤ y ∧ y < acc.home + 12) ∨ acc.home + 16 ≤ y → getByte t.mem y = getByte s.mem y) ∧
        t.wave? o.wid = some w' ∧
        (∀ i, i < rw → w'.sreg (n + i) = BitVec.ofNat 32 (getMem s.mem (recordAt acc.home rw cap head + 4 * i) 4)) ∧
        (∀ r, r < n ∨ n + rw ≤ r → w'.sreg r = w.sreg r) ∧
        (∀ r, r ∈ w'.sEmpty ↔ r ∈ w.sEmpty ∧ ¬ (n ≤ r ∧ r < n + rw))))

namespace Sys2Proof.Claims

open Sys2Proof Sys2Proof.Machine

/-! ## The matrix unit (R270 to R290) -/

/-- Entry `i` of the slot table of the wave's part. -/
def slotAt (s : State) (w : Wave) (i : Nat) : Slot := Tab.valD (s.blkD w.blk).slots (slotKey w.part i) {}

/-- A slot handle names an entry of one of the states. -/
def NamesSlot (s : State) (w : Wave) (h : Nat) (states : List Nat) : Prop := h < 16 ∧ (slotAt s w h).st ∈ states

/-- The registers of A and its scales under SCALE (R281). -/
def mmaRegs (fmt : Word) : Nat := if fmtScale fmt = 2 then 33 else if fmtScale fmt = 1 then 40 else 32

/-- The checks of R282 that follow the operands: the K word, the slot and the formats. -/
def MmaLegal (f : Frag) (d : SlotDesc) (kw : Nat) : Prop :=
  comboOk (fmtA f.fmt) (fmtB f.fmt) (fmtScale f.fmt) (fmtSemi f.fmt) = true ∧ kw / 2 ^ 11 % 2 ^ 5 = 0 ∧
  kw % 2 ^ 11 % 8 = 0 ∧ kw % 2 ^ 11 ≤ d.K ∧ d.bfmt = fmtB f.fmt ∧
  (fmtScale f.fmt = 0 → d.form ≤ 1) ∧ (fmtScale f.fmt = 1 → d.form = 2) ∧ (fmtScale f.fmt = 2 → d.form = 3) ∧
  (d.form = 1 → fmtSemi f.fmt = 0)

/-- `mma` or `mma.clr`: the operation it starts, and its quarter operations in the quadrant's unit. -/
def MmaForm (clr : Bool) (i : BitVec 4 → BitVec 7 → BitVec 8 → Bool → Instr) : Prop :=
  ∀ (s : State) (wid eid : Nat) (w : Wave) (f : Frag) (h : BitVec 4) (a : BitVec 7) (sf : BitVec 8) (fa : Bool),
    Issuing s wid eid w f → w.control = false →
    (saveRefuses w = true → Traps (i h a sf fa) s wid eid f illegalOp 0 0) ∧
    (saveRefuses w = false →
    let cnt := mmaRegs f.fmt
    let n := vecNo f a.toNat
    let sh := (w.sreg sf.toNat).toNat
    let kw := (w.sreg (sf.toNat + 1)).toNat
    let x := slotAt s w sh
    let d := slotDesc (ofWords x.desc)
    let qs := quarters f.active
    let ready := sf.toNat + 1 < 192 ∧ VecIn w n cnt false ∧ FullV w n cnt ∧ FullS w sf.toNat 2 ∧ h.toNat < w.nacc
    let o : Op := { mkOp wid eid w f .mma (some cMX) with
      scr := true, size := h.toNat, slot := slotKey w.part sh, aop := kw, au := clr,
      stage := qs.foldl (fun n q => n + 2 ^ q) 0, args := [ofWords x.desc, x.elems, x.side],
      accs := (lanesOf f.active).map fun l => { lane := l, data := vecVal w n cnt l } }
    (191 ≤ sf.toNat → Traps (i h a sf fa) s wid eid f illegalOp 0 0) ∧
    (sf.toNat < 191 → VecIn w n cnt false → w.nacc ≤ h.toNat → Traps (i h a sf fa) s wid eid f accBound 0 0) ∧
    (ready → comboOk (fmtA f.fmt) (fmtB f.fmt) (fmtScale f.fmt) (fmtSemi f.fmt) = false →
      Traps (i h a sf fa) s wid eid f fmtIllegal 0 0) ∧
    (ready → comboOk (fmtA f.fmt) (fmtB f.fmt) (fmtScale f.fmt) (fmtSemi f.fmt) = true → ¬ NamesSlot s w sh [2, 3] →
      Traps (i h a sf fa) s wid eid f wslotBad 0 0) ∧
    (ready → MmaLegal f d kw → NamesSlot s w sh [2] → NotReady (i h a sf fa) s wid eid .wslotNotReady) ∧
    (ready → MmaLegal f d kw → NamesSlot s w sh [3] → 8 < (mxOf s w.core w.quad).waiting + qs.length →
      NotReady (i h a sf fa) s wid eid .mxBusy) ∧
    (ready → MmaLegal f d kw → NamesSlot s w sh [3] → (mxOf s w.core w.quad).waiting + qs.length ≤ 8 → Room s wid cMX →
      (f.active = 0#32 → ∃ t, exec (i h a sf fa) s = .next t ∧ UnitEnds s t wid eid w (afterUnit 4 true f)) ∧
      (f.active ≠ 0#32 →
        let key := [slotKey w.part sh, x.gen, kw % 2 ^ 11, f.fmt.toNat / 2 ^ 4 % 2 ^ 12]
        let len := passLen d (fmtSemi f.fmt) (kw % 2 ^ 11)
        StartsOp (i h a sf fa) 4 s
          (setMx s w.core w.quad (qs.foldl (fun m q => m.add key w.blk len (coreClk s w.core) (s.nextId, q)) (mxOf s w.core w.quad)))
          wid eid w f o)))

/-- The next state of an event that changes one quadrant's matrix unit to `m`. -/
def MxEvent (i : Instr) (s : State) (core quad : Nat) (m : MxQuad) : Prop := exec i s = .next (setMx s core quad m)

end Sys2Proof.Claims

open Sys2Proof Sys2Proof.Machine Sys2Proof.Claims

/-- R272, R276 to R279, R351, R364, R382, R384: weight slots: `wdesc`, which waits for earlier stores, for room in the mesh and for a
bandwidth share, `wload` and `wfree`; all trap in a save delivery; the fill and the release. -/
def Obligations.WeightSlots : Prop :=
  (∀ (s : State) (wid eid : Nat) (w : Wave) (f : Frag) (d a : BitVec 8) (va home : Nat), Issuing s wid eid w f →
    w.control = false → saveRefuses w = false → DstS w d →
    ((f.held = none ∧ SrcS64 w a ∧ va = (opS64 s wid w f a).toNat ∧ Translated s wid w va 32 aRead home) ∨
      (∃ h, f.held = some h ∧ h.a = va ∧ h.b = home)) →
    let x := (readUnshared s w.core w.glade w.ctx va home 32).1
    let s1 := (readUnshared s w.core w.glade w.ctx va home 32).2
    let answers := fun (s2 : State) (r : Word) => ∃ t, exec (.wdesc d a) s = .next t ∧
      UnitEnds s2 t wid eid (w.setS d.toNat r) (afterUnit 4 true f)
    (globalStoresOut s wid s.nextId = true → ∃ t h, exec (.wdesc d a) s = .next t ∧ t.mem = s.mem ∧ h.a = va ∧ h.b = home ∧
      t.frag? wid eid = some { f with held := some h, stall := .other }) ∧
    (globalStoresOut s wid s.nextId = false → l1Misses s w.core w.glade w.ctx va 32 = true →
      let holds := fun (why : Stall) => ∃ t h, exec (.wdesc d a) s = .next t ∧ t.mem = s.mem ∧ h.a = va ∧ h.b = home ∧
        t.frag? wid eid = some { f with held := some h, stall := why }
      (256 ≤ meshRequests s w.core → holds .lsuQueueFull) ∧
      (meshRequests s w.core < 256 → bwOver s w.glade = true → holds .throttleBw) ∧
      (meshRequests s w.core < 256 → bwOver s w.glade = false → markedAt s home 32 = true →
        exec (.wdesc d a) s = .next (stepTrap f wid eid ((waveUncorr (s.withEv []) wid w).withEv [])))) ∧
    let reads := globalStoresOut s wid s.nextId = false ∧ (l1Misses s w.core w.glade w.ctx va 32 = true →
      meshRequests s w.core < 256 ∧ bwOver s w.glade = false ∧ markedAt s home 32 = false)
    (reads → slotDescOk x = false → Traps (.wdesc d a) s wid eid f wslotBad 0 0) ∧
    (reads → slotDescOk x = true →
      ((∀ i, i < 16 → (slotAt s w i).st ≠ 0) → answers s1 0x80000001#32) ∧
      (∀ i, i < 16 → (slotAt s w i).st = 0 → (∀ j, j < i → (slotAt s w j).st ≠ 0) →
        (96 ≤ (coreSlots s w.core).length → answers s1 0x80000002#32) ∧
        ((coreSlots s w.core).length < 96 → freeGranules s w.core < (slotDesc x).granules → answers s1 0x80000003#32) ∧
        ((coreSlots s w.core).length < 96 → (slotDesc x).granules ≤ freeGranules s w.core →
          answers (setSlot s1 w.blk (slotKey w.part i) { st := 1, desc := wordsOf 8 x, gran := (slotDesc x).granules })
            (BitVec.ofNat 32 i))))) ∧
  (∀ (s : State) (wid eid : Nat) (w : Wave) (f : Frag) (d a : BitVec 8), Issuing s wid eid w f → w.control = false →
    saveRefuses w = true → Traps (.wdesc d a) s wid eid f illegalOp 0 0 ∧ Traps (.wload a) s wid eid f illegalOp 0 0 ∧
      Traps (.wfree a) s wid eid f illegalOp 0 0) ∧
  (∀ (s : State) (wid eid : Nat) (w : Wave) (f : Frag) (a : BitVec 8), Issuing s wid eid w f → w.control = false →
    saveRefuses w = false → SrcS w a →
    let h := (opS s wid w f a).toNat
    let x := slotAt s w h
    let d := slotDesc (ofWords x.desc)
    let key := slotKey w.part h
    (¬ NamesSlot s w h [1, 2, 3] → Traps (.wload a) s wid eid f wslotBad 0 0 ∧ Traps (.wfree a) s wid eid f wslotBad 0 0) ∧
    (∀ es ss, NamesSlot s w h [1, 2, 3] → rangeHomes s wid eid w d.src d.elemBytes aRead = .ok es →
      rangeHomes s wid eid w d.side d.sideBytes aRead = .ok ss → Room s wid cWL → MeshRoom s wid w →
      StartsOp (.wload a) 4 s (setSlot s w.blk key { x with st := 2, gen := x.gen + 1 }) wid eid w f
        { mkOp wid eid w f .wload (some cWL) with accs := es ++ ss, args := [es.length], slot := key }) ∧
    (NamesSlot s w h [1, 2, 3] →
      let busy := namesSlot s w.blk key .mma s.nextId || namesSlot s w.blk key .wload s.nextId
      ∃ t, exec (.wfree a) s = .next t ∧
        UnitEnds (setSlot s w.blk key (if busy then { x with st := 4 } else {})) t wid eid w (afterUnit 4 true f))) ∧
  (∀ (s : State) (op : Nat) (o : Op), s.op? op = some o → o.kind = .wload → o.done = false → o.cls = some cWL →
    namesSlot s o.blk o.slot .wload op = false → globalStoresOut s o.wid op = false → bwHeld s o = false →
    (∀ k p, (k, p) ∈ s.ops → k < op → p.blk = o.blk → p.kind = .mma → p.slot = o.slot → inPass s k = false) →
    (o.meetsMark s = true → exec (.wloadFill op) s = .next (blockTrap (dropOp s op) o copyFault)) ∧
    (o.meetsMark s = false →
    let r := readSpans s o.core o.glade o.ctx (o.accs.take (o.args.headD 0))
    let q := readSpans r.2 o.core o.glade o.ctx (o.accs.drop (o.args.headD 0))
    ∃ t x, exec (.wloadFill op) s = .next t ∧ t.mem = q.2.mem ∧ t.waves = s.waves ∧ t.blocks = (setSlot s o.blk o.slot x).blocks ∧
      x.elems = r.1 ∧ x.side = q.1 ∧ x.desc = (Tab.valD (s.blkD o.blk).slots o.slot {}).desc ∧
      ((∀ k p, (k, p) ∈ s.ops → k ≠ op → p.kind = .wload → p.blk = o.blk → p.slot = o.slot → p.done = true) →
        (Tab.valD (s.blkD o.blk).slots o.slot {}).st = 2 → x.st = 3) ∧
      t.ops = retireList o.wid cWL (Tab.put s.ops op { o with done := true }))) ∧
  (∀ (s : State) (blk part i : Nat), i < 16 → (Tab.valD (s.blkD blk).slots (slotKey part i) {}).st = 4 →
    namesSlot s blk (slotKey part i) .mma s.nextId = false → namesSlot s blk (slotKey part i) .wload s.nextId = false →
    exec (.slotFree blk part i) s = .next (setSlot s blk (slotKey part i) {}))

/-- R280 to R283, R286, R287: `mma`, its quarter operations, and passes. -/
def Sys2Proof.Claims.MatrixMultiply : Prop :=
  MmaForm false .mma ∧ MmaForm true .mmaClr ∧
  (∀ (s : State) (core quad : Nat),
    let m := mxOf s core quad
    ((∃ g ∈ m.opened, g.opened + 8 ≤ coreClk s core) → ∃ m', MxEvent (.fusionWindowExpiry core quad) s core quad m' ∧
      m'.opened = m.opened.filter (fun g => !(decide (g.opened + 8 ≤ coreClk s core))) ∧
      m'.due = m.due ++ m.opened.filter (fun g => decide (g.opened + 8 ≤ coreClk s core)) ∧ m'.running = m.running) ∧
    (∀ g rest, m.due = g :: rest → m.running = none →
      MxEvent (.matrixPassStart core quad) s core quad { m with due := rest, running := some g, passEnd := coreClk s core + g.len }) ∧
    (∀ g, m.running = some g → m.passEnd ≤ coreClk s core →
      MxEvent (.matrixPassEnd core quad) s core quad
        { m with running := none, writing := m.writing ++ g.ops.map fun e => (e, m.passEnd + 6) }))

/-- R271, R283, R285: a quarter operation writes its rows of the tile, columns 0 to N − 1, and nothing else of any tile. -/
def Sys2Proof.Claims.MatrixTileWrites : Prop :=
  ∀ (s : State) (core quad op q at' : Nat) (o : Op) (w : Wave), s.op? op = some o → o.kind = .mma → o.cls = some cMX →
    o.done = false → (mxOf s core quad).writing = [((op, q), at')] → at' ≤ coreClk s core → tileReady s op o = true →
    s.wave? o.wid = some w → Unwatched s w → Tab.wf w.tiles = true → (o.accs.map (·.lane)).Nodup →
    (∀ a ∈ o.accs, a.lane < 32) → o.stage = 2 ^ q →
    let d := slotDesc (o.args.getD 0 0)
    d.nblk ≤ 4 →
    let row := fun (a : Acc) => mmaRow o.fmt o.au d o.aop (o.args.getD 1 0) (o.args.getD 2 0) a.data fun j => w.tile o.size a.lane j
    ∃ t w', exec (.accumulatorTileWrite core quad) s = .next t ∧ t.wave? o.wid = some w' ∧ t.mem = s.mem ∧
      w'.sregs = w.sregs ∧ w'.vregs = w.vregs ∧ (mxOf t core quad).writing = [] ∧
      t.ops = retireList o.wid cMX (Tab.put s.ops op { o with stage := 0, done := true }) ∧
      (∀ a ∈ o.accs, a.lane / 8 = q → ∀ j, j < 8 * d.nblk →
        w'.tile o.size a.lane j = BitVec.ofNat 32 ((row a).getD j (0, 0)).1) ∧
      (∀ h l j, l < 32 → j < 32 → (h ≠ o.size ∨ l / 8 ≠ q ∨ (∀ a ∈ o.accs, a.lane ≠ l) ∨ 8 * d.nblk ≤ j) →
        w'.tile h l j = w.tile h l j)

/-- R91, R92, R283: the cells of a row for K = 0, INT8 and B1. -/
def Sys2Proof.Claims.MatrixIntegerCells : Prop :=
  ∀ (fmt : Word) (clr : Bool) (d : SlotDesc) (kw elems side row : Nat) (old : Nat → Word) (j : Nat), j < 8 * d.nblk →
    let acc := fun (x : Word) => if clr then 0#32 else x
    let c := BitVec.ofNat 32 ((mmaRow fmt clr d kw elems side row old).getD j (0, 0)).1
    let col := slotColumn d elems side j (kw % 2 ^ 11)
    (kw % 2 ^ 11 = 0 → clr = false → c = old j) ∧
    (kw % 2 ^ 11 = 0 → clr = true →
      c = if fmtSemi fmt = 1 then 0x7F800000#32 else if fmtSemi fmt = 2 then 0xFF800000#32 else 0#32) ∧
    (kw % 2 ^ 11 ≠ 0 → fmtA fmt = 5 → fmtSemi fmt = 0 → d.bfmt = 5 →
      c = acc (old j) + BitVec.ofInt 32 ((col.map fun e =>
        (BitVec.ofNat 8 (row / 2 ^ (8 * e.1))).toInt * (BitVec.ofNat 8 e.2).toInt).sum)) ∧
    (kw % 2 ^ 11 ≠ 0 → fmtA fmt = 6 → fmtSemi fmt = 3 →
      c = if acc (old j) ≠ 0#32 ∨ (∃ e ∈ col, row / 2 ^ e.1 % 2 = 1 ∧ e.2 = 1) then 1#32 else 0#32)

/-- R91, R92, R271, R280 to R287: `mma`, its passes, tile writes and integer cells. -/
def Obligations.MatrixUnits : Prop := MatrixMultiply ∧ MatrixTileWrites ∧ MatrixIntegerCells

/-- R271, R289, R290, R384: the accumulator instructions and their effects; those that write a tile trap in a save delivery. -/
def Obligations.AccumulatorInstructions : Prop :=
  (∀ (s : State) (wid eid : Nat) (w : Wave) (f : Frag) (h : BitVec 4), Issuing s wid eid w f → w.control = false →
    (saveRefuses w = true → (∀ (a : BitVec 7) (fa : Bool), Traps (.accwr h a fa) s wid eid f illegalOp 0 0) ∧
      Traps (.accclr h) s wid eid f illegalOp 0 0) ∧
    (w.nacc ≤ h.toNat → ∀ (d a : BitVec 7) (b : BitVec 8) (fa : Bool), Traps (.accrd d h) s wid eid f accBound 0 0 ∧
      Traps (.accst h b) s wid eid f accBound 0 0 ∧
      (saveRefuses w = false → Traps (.accwr h a fa) s wid eid f accBound 0 0 ∧ Traps (.accclr h) s wid eid f accBound 0 0)) ∧
    (h.toNat < w.nacc → Room s wid cMX →
      let o := fun kind => { mkOp wid eid w f kind (some cMX) with size := h.toNat, scr := true }
      (∀ d : BitVec 7, DstVReady w f (d.toNat, 32, false) →
        let dst := range (vecNo f d.toNat) 32
        StartsOp (.accrd d h) 4 s s wid eid (w.markEmptyV dst) f { o .accrd with dst := dst }) ∧
      (∀ (a : BitVec 7) (fa : Bool), saveRefuses w = false → VecIn w (vecNo f a.toNat) 32 false → FullV w (vecNo f a.toNat) 32 →
        StartsOp (.accwr h a fa) 4 s s wid eid w f
          { o .accwr with accs := (lanesOf f.active).map fun l => { lane := l, data := vecVal w (vecNo f a.toNat) 32 l } }) ∧
      (saveRefuses w = false → StartsOp (.accclr h) 4 s s wid eid w f (o .accclr)) ∧
      (∀ a : BitVec 8, SrcS w a → ScratchOk s w (opS s wid w f a).toNat 4096 128 →
        LinesFit s { o .accst with accs := [{ va := (opS s wid w f a).toNat }] } →
        StartsOp (.accst h a) 4 s s wid eid w f { o .accst with accs := [{ va := (opS s wid w f a).toNat }] }))) ∧
  (∀ (s : State) (op : Nat) (o : Op) (w : Wave), s.op? op = some o → o.done = false → o.cls = some cMX →
    tileReady s op o = true → s.wave? o.wid = some w → w.intr = none → Unwatched s w → Tab.wf w.tiles = true →
    Tab.wf w.vregs = true →
    let ends := fun (t : State) => exec (.accumulatorOpComplete op) s = .next t ∧ t.mem = s.mem ∧
      t.ops = retireList o.wid cMX (Tab.put s.ops op { o with done := true })
    (∀ n, o.kind = .accrd → o.dst = range n 32 → w.ended ≠ 0xFFFFFFFF#32 → ∃ t w', ends t ∧ t.wave? o.wid = some w' ∧ w'.tiles = w.tiles ∧
      (∀ r l, l < 32 → w'.vreg r l =
        if n ≤ r ∧ r < n + 32 ∧ o.active.getLsbD l = true then w.tile o.size l (r - n) else w.vreg r l) ∧
      ∀ r, r ∈ w'.vEmpty ↔ r ∈ w.vEmpty ∧ ¬ (n ≤ r ∧ r < n + 32)) ∧
    (o.kind = .accwr → (o.accs.map (·.lane)).Nodup → (∀ a ∈ o.accs, a.lane < 32) → ∃ t w', ends t ∧
      t.wave? o.wid = some w' ∧ w'.vregs = w.vregs ∧
      (∀ a ∈ o.accs, ∀ c, c < 32 → w'.tile o.size a.lane c = BitVec.ofNat 32 (a.data / 2 ^ (32 * c))) ∧
      (∀ h l c, l < 32 → c < 32 → (h ≠ o.size ∨ ∀ a ∈ o.accs, a.lane ≠ l) → w'.tile h l c = w.tile h l c)) ∧
    (o.kind = .accclr → ∃ t w', ends t ∧ t.wave? o.wid = some w' ∧ w'.vregs = w.vregs ∧
      ∀ h l c, l < 32 → c < 32 → w'.tile h l c = if h = o.size ∧ o.active.getLsbD l = true then 0#32 else w.tile h l c) ∧
    (∀ a, o.kind = .accst → o.accs = [a] → scrStoresOut s o.wid op = false → ∃ t, ends t ∧ t.waves = s.waves ∧
      t.blocks = ((lanesOf o.active).foldl (fun s l => scrSet s o.blk (partOf a.va) (offOf a.va + 128 * l) 128 (w.tileRow o.size l)) s).blocks))

namespace Sys2Proof.Claims

open Sys2Proof Sys2Proof.Machine

/-! ## The Canopy shading cache (R292 to R313) -/

/-- The three words that a lane of `sclook` receives: the texel of a tile at (u, v), and CODE, QUEUED and LEVEL. -/
def texelOut (tile u v code queued level : Nat) : Nat :=
  tile / 2 ^ (64 * (8 * (v % 8) + u % 8)) % 2 ^ 64 + 2 ^ 64 * (code + 8 * queued + 16 * level)

/-- The fields of a lane's operands: u, v, level and NOALLOC (R303). -/
def lkU (x : Nat) : Nat := x / 2 ^ 32 % 2 ^ 15
def lkV (x : Nat) : Nat := x / 2 ^ 48 % 2 ^ 15
def lkLevel (x : Nat) : Nat := x / 2 ^ 68 % 16
def lkNoAlloc (x : Nat) : Bool := x / 2 ^ 72 % 2 == 1

/-- The key of a lane, `delta` levels coarser: namespace; object; level, layer, TV and TU (R292, R304). -/
def lkKey (ns x delta : Nat) : List Word :=
  [BitVec.ofNat 32 ns, BitVec.ofNat 32 (x % 2 ^ 32),
   BitVec.ofNat 32 ((lkLevel x + delta) * 2 ^ 28 + x / 2 ^ 64 % 16 * 2 ^ 24 + lkV x / 2 ^ delta / 8 * 2 ^ 12 + lkU x / 2 ^ delta / 8)]

/-- Entry `e` holds the key and is VALID, or no entry that holds the key is VALID. -/
def ValidAt (s : State) (k : List Word) (e : Nat) : Prop := cnpLookup s k = some e ∧ (cnpEnt s e).st = 2
def NoValid (s : State) (k : List Word) : Prop := ∀ e, ¬ ValidAt s k e

/-- The operand checks of `scinval` and `scframe` (R307, R310). -/
def NsRight (s : State) (w : Wave) (v : Nat) : Prop := v < 2 ^ 16 ∧ writeRights s w.glade v = true

/-- An operation of a wave's engine completes (R238). -/
def Retires (s t : State) (op : Nat) (o : Op) (cls : Nat) : Prop :=
  t.ops = retireList o.wid cls (Tab.put s.ops op { o with done := true })

end Sys2Proof.Claims

open Sys2Proof Sys2Proof.Machine Sys2Proof.Claims

/-- R303, R305 to R311, R384: the Canopy instructions at issue; `scstat` holds its fragment with the item it has read, and then
writes it. -/
def Obligations.CanopyInstructions : Prop :=
  ∀ (s : State) (wid eid : Nat) (w : Wave) (f : Frag), Issuing s wid eid w f → w.control = false →
    let view := (s.coreSt w.core).view
    let wit := mkWit 2 w.glade 0 view
    (∀ (d a : BitVec 7) (sf : BitVec 8) (fa : Bool), SrcS w sf → VSrc.Ready w f { fd := a.toNat, cnt := 3 } →
      DstVReady w f (d.toNat, 3, false) →
      let ns := (opS s wid w f sf).toNat
      let data := fun l => vecVal w (vecNo f a.toNat) 3 l
      let bad := fun l => data l / 2 ^ 47 % 2 ≠ 0 ∨ data l / 2 ^ 63 % 2 ≠ 0 ∨ data l / 2 ^ 73 ≠ 0
      let dst := range (vecNo f d.toNat) 3
      (2 ^ 16 ≤ ns → Room s wid cTQ → MeshRoom s wid w → Traps (.sclook d a sf fa) s wid eid f canopyBad 0 0) ∧
      (ns < 2 ^ 16 → Room s wid cTQ → MeshRoom s wid w → ∀ l, l < 32 → f.active.getLsbD l = true → bad l →
        (∀ k, k < l → f.active.getLsbD k = true → ¬ bad k) →
        Traps (.sclook d a sf fa) s wid eid f canopyBad (BitVec.ofNat 32 l) 0) ∧
      (ns < 2 ^ 16 → (∀ l, l < 32 → f.active.getLsbD l = true → ¬ bad l) → Room s wid cTQ → MeshRoom s wid w →
        (f.active = 0#32 → ∃ t, exec (.sclook d a sf fa) s = .next t ∧ UnitEnds s t wid eid w (afterUnit 4 true f)) ∧
        (f.active ≠ 0#32 → StartsOp (.sclook d a sf fa) 4 s s wid eid (w.markEmptyV dst) f
          { mkOp wid eid w f .lookup (some cTQ) with
            accs := (lanesOf f.active).map fun l => { lane := l, data := data l }, dst := dst, args := [ns] }))) ∧
    (∀ (d a : BitVec 7) (sf : BitVec 8) (fa : Bool), sf.toNat + 1 < 192 → FullS w sf.toNat 2 →
      VSrc.Ready w f { fd := a.toNat, cnt := 4 } → DstSReady w (d.toNat, 2, true) →
      (saveRefuses w = true → Traps (.scfill d a sf fa) s wid eid f illegalOp 0 0) ∧
      (saveRefuses w = false → Room s wid cTQ → MeshRoom s wid w → f.active ≠ 0xFFFFFFFF#32 →
        Traps (.scfill d a sf fa) s wid eid f canopyBad 0 0) ∧
      (saveRefuses w = false → f.active = 0xFFFFFFFF#32 → Room s wid cTQ → MeshRoom s wid w → ∃ tex,
        (∀ l, l < 32 → tex / 2 ^ (128 * l) % 2 ^ 128 = vecVal w (vecNo f a.toNat) 4 l) ∧
        StartsOp (.scfill d a sf fa) 4 s (publish (requestAdvance s w.glade) w.blk) wid eid
          { w.setSPair d.toNat wit with sw := wMerge w.sw (mkWit 1 w.glade w.core view) } f
          { mkOp wid eid w f .fill (some cTQ) with
            args := [(w.sreg sf.toNat).toNat, (w.sreg (sf.toNat + 1)).toNat, tex], tag := some view })) ∧
    (∀ a : BitVec 8, SrcS w a → Room s wid cTQ → MeshRoom s wid w →
      StartsOp (.scabort a) 4 s s wid eid w f
        { mkOp wid eid w f .abort (some cTQ) with args := [(opS s wid w f a).toNat] }) ∧
    (∀ d a : BitVec 8, (191 ≤ a.toNat → Traps (.scinval d a) s wid eid f illegalOp 0 0) ∧
      (192 ≤ a.toNat → Traps (.scframe a) s wid eid f illegalOp 0 0)) ∧
    (∀ d a : BitVec 8, a.toNat + 1 < 192 → FullS w a.toNat 2 → DstS64 w d →
      let ns := (w.sreg a.toNat).toNat
      (¬ NsRight s w ns → Traps (.scinval d a) s wid eid f canopyBad 0 0) ∧
      (NsRight s w ns → Room s wid cTQ → MeshRoom s wid w →
        StartsOp (.scinval d a) 4 s (requestAdvance s w.glade) wid eid (w.setSPair d.toNat wit) f
          { mkOp wid eid w f .sweep (some cTQ) with args := [ns, (w.sreg (a.toNat + 1)).toNat], tag := some view })) ∧
    (∀ a : BitVec 8, a.toNat < 192 → SrcS w a →
      let ns := (w.sreg a.toNat).toNat
      (¬ NsRight s w ns → Traps (.scframe a) s wid eid f canopyBad 0 0) ∧
      (NsRight s w ns → Room s wid cTQ → MeshRoom s wid w →
        StartsOp (.scframe a) 4 s s wid eid w f { mkOp wid eid w f .frame (some cTQ) with args := [ns] })) ∧
    (∀ (d a : BitVec 8) (h : Held), f.held = some h → DstS w d → ∃ t, exec (.scstat d a) s = .next t ∧
      UnitEnds s t wid eid (w.setS d.toNat (BitVec.ofNat 32 h.a)) (afterUnit 4 true f)) ∧
    (∀ d a : BitVec 8, f.held = none → SrcS w a → DstS w d →
      let sel := (opS s wid w f a).toNat
      let ns := sel % 2 ^ 16
      let item := sel / 2 ^ 16 % 16
      let gives := fun v : Nat => WaitsAt (.scstat d a) s wid eid f (beginWait s .none 11 v 0) .canopyWait
      (2 ^ 20 ≤ sel ∨ 5 < item ∨ (item ≤ 3 ∧ permitted s w.glade ns = false) →
        Traps (.scstat d a) s wid eid f canopyBad 0 0) ∧
      (∀ n, sel < 2 ^ 20 → item ≤ 3 → permitted s w.glade ns = true → nsFind s ns = some n →
        gives (nsWord s n (if item = 0 then 0x14 else if item = 1 then 0x18 else if item = 2 then 0x1C else 0x20))) ∧
      (sel < 2 ^ 20 → item = 4 → gives (cnpUsed s w.glade)) ∧ (sel < 2 ^ 20 → item = 5 → gives (cnpQuota s w.glade)))

/-- R304, R313: what the probes of one lane of `sclook` return, its own key's first, then up to two coarser ones, and the use
they mark; the code of the own key stands where no probe finds a VALID entry. -/
def Sys2Proof.Claims.CanopyLaneOutcomes : Prop :=
  ∀ (s : State) (n g ns : Nat) (a : Acc),
    let x := a.data
    let r := lookProbe s n g ns a
    let own := lkKey ns x 0
    let misses := fun (st : Nat) (s1 : State) => (lkLevel x + 1 ≤ 15 → r = ({ a with home := 1, home2 := st }, false, s1)) ∧
      (lkLevel x = 15 → r = ({ a with va2 := 2 ^ 64 * st }, true, s1))
    (a.home = 0 →
      (∀ e, ValidAt s own e → r.1 = { a with va2 := texelOut (cnpEnt s e).texels (lkU x) (lkV x) 0 0 (lkLevel x) } ∧
        r.2.1 = true ∧ (cnpEnt r.2.2 e).lastUse = nsFrame s n ∧ r.2.2.regs = s.regs) ∧
      (NoValid s own → cnpLookup s own ≠ none → misses 2 s) ∧
      (cnpLookup s own = none → lkNoAlloc x = true → misses 4 s) ∧
      (cnpLookup s own = none → lkNoAlloc x = false →
        let al := cnpAllocate s n g own
        (al.1 = 3 ∨ al.1 = 4) ∧ misses al.1 al.2)) ∧
    (∀ d, a.home = d → 1 ≤ d → d ≤ 2 →
      (∀ e, ValidAt s (lkKey ns x d) e →
        r.1 = { a with va2 := texelOut (cnpEnt s e).texels (lkU x / 2 ^ d) (lkV x / 2 ^ d) 1
                         (if a.home2 = 2 ∨ a.home2 = 3 then 1 else 0) (lkLevel x + d) } ∧
        r.2.1 = true ∧ (cnpEnt r.2.2 e).lastUse = nsFrame s n) ∧
      (NoValid s (lkKey ns x d) →
        (d = 1 → lkLevel x + 2 ≤ 15 → r = ({ a with home := 2 }, false, s)) ∧
        (d = 2 ∨ 15 < lkLevel x + 2 → r = ({ a with va2 := 2 ^ 64 * a.home2 }, true, s))))

namespace Sys2Proof.Claims

open Sys2Proof Sys2Proof.Machine

/-- FRAME of the namespace of entry `e` less a frame number of `e` (R301). -/
def framesSince (s : State) (e : Nat) (of : CnpEnt → Nat) : Nat :=
  ((match nsFind s (cnpEnt s e).ns with
    | some n => nsWord s n 0x14
    | none => 0) + 2 ^ 32 - of (cnpEnt s e)) % 2 ^ 32

/-- The order in which R301 prefers victims: the longest unused, then the older, whose age stops at 255. -/
def victimRank (s : State) (e : Nat) : Nat :=
  framesSince s e (·.lastUse) * 256 + min 255 (framesSince s e (·.fillFrame))

/-- A way that an allocation for glade `o` may evict (R301). -/
def MayEvict (s : State) (o set e : Nat) : Prop :=
  set ≤ e ∧ e < set + 16 ∧ (cnpEnt s e).st = 2 ∧ (cnpQuota s o ≤ cnpUsed s o → (cnpEnt s e).owner = o)

/-- Glade `o` is below its quota and way `e` is the lowest INVALID way of the set (R301). -/
def FreeWay (s : State) (o set e : Nat) : Prop :=
  cnpUsed s o < cnpQuota s o ∧ set ≤ e ∧ e < set + 16 ∧ (cnpEnt s e).st = 0 ∧ ∀ i, set ≤ i → i < e → (cnpEnt s i).st ≠ 0

/-- R301 takes no INVALID way, and `e` is its victim. -/
def Victim (s : State) (o set e : Nat) : Prop :=
  (cnpQuota s o ≤ cnpUsed s o ∨ ∀ i, set ≤ i → i < set + 16 → (cnpEnt s i).st ≠ 0) ∧ MayEvict s o set e ∧
    ∀ i, MayEvict s o set i → victimRank s i < victimRank s e ∨ (victimRank s i = victimRank s e ∧ e ≤ i)

/-- The shade queue of namespace index `n`: its header's home, its address and its counts (R302). -/
def ShadeQueue (s : State) (n home va cap head tail : Nat) : Prop :=
  ctxState s (nsOwner s n) 0 = 1 ∧ queueVa s n = va ∧ QueueMapped s (nsOwner s n) 0 va home 4 cap ∧
    areaOk s (nsOwner s n) 0 (va + 64) (16 * cap) true = true ∧ IsQueue s home 4 cap head tail

end Sys2Proof.Claims

open Sys2Proof Sys2Proof.Machine Sys2Proof.Claims

/-- R301, R302: the way an allocation takes, what the entry, the counts and the shade queue hold after it, and what a refused push
leaves. -/
def Sys2Proof.Claims.CanopyAllocation : Prop :=
  ∀ (s : State) (n g : Nat) (k : List Word), Tab.wf s.canopy = true → Tab.wf s.regs = true → Memory.wf s.mem = true → n < 1024 →
    let o := nsOwner s n
    let set := keySet s k
    let r := cnpAllocate s n g k
    ((∀ e, ¬ FreeWay s o set e) → (∀ e, ¬ MayEvict s o set e) → r = (4, s)) ∧
    (∀ e, FreeWay s o set e ∨ (Victim s o set e ∧ (cnpEnt s e).owner < 64 ∧ 1 ≤ cnpUsed s (cnpEnt s e).owner) →
      let x := cnpEnt s e
      let lost := fun p : Nat => if x.st = 2 ∧ p = x.owner then 1 else 0
      let gen := (x.gen + 1) % 512
      (∀ i, i ≠ e → cnpEnt r.2 i = cnpEnt s i) ∧ r.2.waves = s.waves ∧ r.2.ops = s.ops ∧
      (∀ home va cap head tail, ShadeQueue s n home va cap head tail → (tail + 2 ^ 32 - head) % 2 ^ 32 < cap →
        r.1 = 3 ∧
        cnpEnt r.2 e = { x with key := k, owner := o, st := 1, gen := gen, swq := nsWord s n 0x24,
                                timer := s.now + 1000 * (nsWord s n 0x10 % 2 ^ 16) } ∧
        (∀ p, p < 64 → cnpUsed r.2 p = cnpUsed s p - lost p + (if p = o then 1 else 0)) ∧
        nsWord r.2 n 0x18 = (nsWord s n 0x18 + 1) % 2 ^ 32 ∧ nsWord r.2 n 0x10 = nsWord s n 0x10 ∧
        (∀ i v, [(k.getD 1 0).toNat, (k.getD 2 0).toNat, (fillHandle e gen).toNat, g * 2 ^ 16 + (k.headD 0).toNat][i]? = some v →
          g < 64 → (k.headD 0).toNat < 2 ^ 16 → getMem r.2.mem (recordAt home 4 cap tail + 4 * i) 4 = v) ∧
        getMem r.2.mem (home + 8) 4 = (tail + 1) % 2 ^ 32 ∧
        (∀ y, y < home + 8 ∨ home + 16 ≤ y → y < recordAt home 4 cap tail ∨ recordAt home 4 cap tail + 16 ≤ y →
          getByte r.2.mem y = getByte s.mem y)) ∧
      let refused := r.1 = 4 ∧ cnpEnt r.2 e = { x with st := 0, gen := gen } ∧ r.2.mem = s.mem ∧
        (∀ p, p < 64 → cnpUsed r.2 p = cnpUsed s p - lost p) ∧ nsWord r.2 n 0x18 = nsWord s n 0x18
      (∀ home va cap head tail, ShadeQueue s n home va cap head tail → (tail + 2 ^ 32 - head) % 2 ^ 32 = cap →
        refused ∧ nsWord r.2 n 0x10 = nsWord s n 0x10) ∧
      (queueHome s n = none ∨ (∃ home, queueHome s n = some home ∧ (∀ cap head tail, ¬ IsQueue s home 4 cap head tail)) →
        refused ∧ nsWord r.2 n 0x10 = 2 ^ 31 + nsWord s n 0x10 % 2 ^ 31))

/-- R295, R304 to R306, R309, R310, R300, R312: Canopy operations at their slices; a fill handle names one entry and one GEN. -/
def Sys2Proof.Claims.CanopyEvents : Prop :=
  (∀ e gen, e < 2 ^ 23 → gen < 512 → handleOf (fillHandle e gen) = (e, gen)) ∧
  (∀ (s : State) (op : Nat) (o : Op) (w : Wave) (n : Nat), s.op? op = some o → o.kind = .lookup → o.done = false →
    o.cls = some cTQ → s.wave? o.wid = some w → w.ended ≠ 0xFFFFFFFF#32 → Unwatched s w → Tab.wf w.vregs = true →
    o.dst = range n 3 → o.accs.map (·.lane) = lanesOf o.active →
    let ns := o.args.headD 0
    (o.stage = 0 → (∀ a, o.accs[0]? = some a → a.home = 0) → permitted s o.glade ns = false → ∃ t w', exec (.canopyLookup op) s = .next t ∧ t.mem = s.mem ∧
      t.canopy = s.canopy ∧ t.wave? o.wid = some w' ∧
      (∀ r l, l < 32 → w'.vreg r l = if n ≤ r ∧ r < n + 3 ∧ o.active.getLsbD l = true
        then (if r = n + 2 then 5#32 else 0#32) else w.vreg r l) ∧
      (∀ r, r ∈ w'.vEmpty ↔ r ∈ w.vEmpty ∧ ¬ (n ≤ r ∧ r < n + 3))) ∧
    (∀ a m, permitted s o.glade ns = true → nsFind s ns = some m → o.accs[o.stage]? = some a →
      cnpEarlier s op o [lkKey ns a.data a.home] = false →
      let goes := fun r : Acc × Bool × State =>
        let accs := o.accs.set o.stage r.1
        let next := fun (k : Nat) => ∃ t, exec (.canopyLookup op) s = .next t ∧ t.waves = s.waves ∧ t.mem = r.2.2.mem ∧
          t.canopy = r.2.2.canopy ∧ t.op? op = some { o with stage := k, accs := accs }
        (r.2.1 = false → next o.stage) ∧
        (r.2.1 = true → o.stage + 1 < o.accs.length → next (o.stage + 1)) ∧
        (r.2.1 = true → o.stage + 1 = o.accs.length → ∃ t w', exec (.canopyLookup op) s = .next t ∧ t.mem = r.2.2.mem ∧
          t.canopy = r.2.2.canopy ∧ t.wave? o.wid = some w' ∧
          (∀ c ∈ accs, ∀ i, i < 3 → w'.vreg (n + i) c.lane = BitVec.ofNat 32 (c.va2 / 2 ^ (32 * i))) ∧
          (∀ q l, l < 32 → (q < n ∨ n + 3 ≤ q ∨ o.active.getLsbD l = false) → w'.vreg q l = w.vreg q l) ∧
          (∀ q, q ∈ w'.vEmpty ↔ q ∈ w.vEmpty ∧ ¬ (n ≤ q ∧ q < n + 3)))
      ((∀ b ∈ o.accs.take o.stage, lkKey ns b.data 0 ≠ lkKey ns a.data 0) → allocWaits s m ns a = false →
        goes (lookProbe s m o.glade ns a)) ∧
      (∀ i b, i < o.stage → o.accs[i]? = some b → lkKey ns b.data 0 = lkKey ns a.data 0 →
        (∀ c ∈ o.accs.take i, lkKey ns c.data 0 ≠ lkKey ns a.data 0) → goes ({ a with va2 := b.va2 }, true, s)))) ∧
  (∀ (s : State) (op : Nat) (o : Op) (h mask : Word) (tex : Nat), s.op? op = some o → o.kind = .fill → o.done = false →
    o.cls = some cTQ → o.args = [h.toNat, mask.toNat, tex] →
    (∀ e n, handleEnt s h = some e → nsFind s (cnpEnt s e).ns = some n →
      cnpEarlier s op o [(cnpEnt s e).key] = false →
      let x := cnpEnt s e
      let swept := ∃ b, b < 32 ∧ mask.getLsbD b = true ∧
        (let v := ((Tab.valD s.lastSweep (32 * n + b) 0).toNat + 2 ^ 32 - x.swq) % 2 ^ 32; 1 ≤ v ∧ v < 2 ^ 31)
      (writeRights s o.glade x.ns = false → ∃ t, exec (.canopyFill op) s = .next t ∧ t.canopy = s.canopy ∧
        t.regs = (nsBump s n 0x20).regs) ∧
      (writeRights s o.glade x.ns = true → swept → Tab.wf s.canopy = true → Tab.wf s.regs = true → n < 1024 → x.owner < 64 →
        ∃ t, exec (.canopyFill op) s = .next t ∧ cnpEnt t e = { x with st := 0 } ∧
          nsWord t n 0x20 = (nsWord s n 0x20 + 1) % 2 ^ 32 ∧ cnpUsed t x.owner = cnpUsed s x.owner - 1) ∧
      (writeRights s o.glade x.ns = true → ¬ swept → ∃ t, exec (.canopyFill op) s = .next t ∧
        cnpEnt t e = { x with st := 2, texels := tex, dep := mask, fillFrame := nsFrame s n, lastUse := nsFrame s n } ∧
        t.mem = s.mem ∧ t.waves = s.waves)) ∧
    (handleEnt s h = none → madeFor s h = none → cnpEarlier s op o [] = false → ∃ t, exec (.canopyFill op) s = .next t ∧
      t.canopy = s.canopy ∧ t.regs = s.regs ∧ t.mem = s.mem ∧ t.waves = s.waves ∧ Retires s t op o cTQ) ∧
    (∀ x n, handleEnt s h = none → madeFor s h = some x → nsFind s x.ns = some n → cnpEarlier s op o [] = false →
      ∃ t, exec (.canopyFill op) s = .next t ∧ t.canopy = s.canopy ∧ t.regs = (nsBump s n 0x20).regs ∧ t.mem = s.mem ∧
        t.waves = s.waves ∧ Retires s t op o cTQ)) ∧
  (∀ (s : State) (op : Nat) (o : Op) (h : Word), s.op? op = some o → o.kind = .abort → o.done = false → o.cls = some cTQ →
    o.args = [h.toNat] →
    (∀ e, handleEnt s h = some e → cnpEarlier s op o [(cnpEnt s e).key] = false → ∃ t,
      exec (.canopyAbort op) s = .next t ∧ t.mem = s.mem ∧ t.waves = s.waves ∧
      (writeRights s o.glade (cnpEnt s e).ns = false → t.canopy = s.canopy) ∧
      (writeRights s o.glade (cnpEnt s e).ns = true → Tab.wf s.canopy = true → (cnpEnt t e).st = 0)) ∧
    (handleEnt s h = none → cnpEarlier s op o [] = false → ∃ t, exec (.canopyAbort op) s = .next t ∧ t.canopy = s.canopy ∧
      t.mem = s.mem ∧ Retires s t op o cTQ)) ∧
  (∀ (s : State) (op : Nat) (o : Op) (ns mask n : Nat), s.op? op = some o → o.kind = .sweep → o.done = false →
    o.cls = some cTQ → o.args = [ns, mask] → nsFind s ns = some n →
    (o.stage = 0 → ∃ t, exec (.sweepPoint op) s = .next t ∧ t.canopy = s.canopy ∧ t.mem = s.mem ∧ t.waves = s.waves ∧
      t.regs = (setReg s .cnp (nsOff n + 0x24) (reg s .cnp (nsOff n + 0x24) + 1)).regs ∧
      t.op? op = some { o with stage := 1 } ∧
      (∀ b, b < 32 → (BitVec.ofNat 32 mask).getLsbD b = true → Tab.wf s.lastSweep = true →
        Tab.wf s.regs = true → Tab.valD t.lastSweep (32 * n + b) 0 = reg s .cnp (nsOff n + 0x24) + 1)) ∧
    (o.stage = 1 → s.wind = none → ∃ t, exec (.sweepWalk op) s = .next t ∧ t.mem = s.mem ∧ t.waves = s.waves ∧
      (Tab.wf s.canopy = true → ∀ e, cnpEnt t e =
        if (cnpEnt s e).st = 2 ∧ (cnpEnt s e).ns = ns ∧ (cnpEnt s e).dep &&& BitVec.ofNat 32 mask ≠ 0#32
        then { cnpEnt s e with st := 0 } else cnpEnt s e))) ∧
  (∀ (s : State) (op : Nat) (o : Op) (ns n : Nat), s.op? op = some o → o.kind = .frame → o.done = false →
    o.cls = some cTQ → o.args = [ns] → nsFind s ns = some n → ∃ t, exec (.frameAdvance op) s = .next t ∧
    t.regs = (setReg s .cnp (nsOff n + 0x14) (reg s .cnp (nsOff n + 0x14) + 1)).regs ∧ t.canopy = s.canopy ∧
    t.mem = s.mem ∧ t.waves = s.waves ∧ Retires s t op o cTQ) ∧
  (∀ (s : State) (e : Nat), (cnpEnt s e).st = 1 → (cnpEnt s e).timer ≤ s.now → Tab.wf s.canopy = true →
    Tab.wf s.regs = true → ∃ t, exec (.canopyTimerExpiry e) s = .next t ∧ cnpEnt t e = { cnpEnt s e with st := 0 } ∧
      t.mem = s.mem ∧ t.waves = s.waves ∧ (∀ i, i ≠ e → cnpEnt t i = cnpEnt s i) ∧
      (∀ n, nsFind s (cnpEnt s e).ns = some n → (cnpEnt s e).owner < 64 → nsWord t n 0x1C = (nsWord s n 0x1C + 1) % 2 ^ 32 ∧
        cnpUsed t (cnpEnt s e).owner = cnpUsed s (cnpEnt s e).owner - 1)) ∧
  (∀ (s : State) (g k : Nat) (o : Op) (va : Nat), s.op? k = some o → o.kind = .notify → o.glade = g → o.args = [va] →
    (∀ h, writableHome s g o.ctx va = some h → ctxState s g o.ctx = 1 → ∃ t, exec (.notifyWordAdvance g k) s = .next t ∧
      t.mem = setMem s.mem h 4 (getMem s.mem h 4 + 1) ∧ t.ops = Tab.del s.ops k ∧ t.waves = s.waves) ∧
    (writableHome s g o.ctx va = none ∨ ctxState s g o.ctx ≠ 1 → ∃ t, exec (.notifyWordAdvance g k) s = .next t ∧ t.mem = s.mem ∧
      t.ops = Tab.del s.ops k ∧ t.waves = s.waves))

/-- R300, R304 to R306, R309, R310, R312: what Canopy operations do at their slices. -/
def Obligations.CanopyServices : Prop := CanopyLaneOutcomes ∧ CanopyAllocation ∧ CanopyEvents

namespace Sys2Proof.Claims

open Sys2Proof Sys2Proof.Machine

/-! ## Copies and rays (R259 to R261, R343 to R347) -/

/-- A lane's address field of a copy: a pair on the global side, a register on the scratch side. -/
def copySide (w : Wave) (f : Frag) (glob : Bool) (a : BitVec 7) (l : Nat) : Nat :=
  if glob then (laneD w f a.toNat l).toNat else (laneW w f a.toNat l).toNat
/-- A side of a copy passes its checks: global addresses translate, scratch ones lie in the wave's own part (R237, R260). -/
def SideOk (s : State) (wid : Nat) (w : Wave) (f : Frag) (glob : Bool) (n kind : Nat) (va home : Nat → Nat) : Prop :=
  ∀ l, l < 32 → f.active.getLsbD l = true →
    if glob then Translated s wid w (va l) n kind (home l)
    else ScratchOk s w (va l) n n ∧ partOf (va l) = w.part ∧ home l = 0

/-- A copy with a target starts its operation; a global destination makes the block published and merges the witness. -/
def CopyStarts (i : Instr) (x : Ext) (n : Nat) (dir : CopyDir) (s s1 : State) (wid eid : Nat) (w : Wave) (f : Frag)
    (src hs dst hd : Nat → Nat) (target : Option Nat) (slot : Nat) : Prop :=
  let m := memExt x
  let view := (s.coreSt w.core).view
  let o : Op := { mkOp wid eid w f .copy (some cCP) with
    accs := (lanesOf f.active).map fun l => { lane := l, va := src l, home := hs l, va2 := dst l, home2 := hd l }
    size := n, stage := dir.code, target := target, slot := slot, scope := m.scope, pol := m.pol, rc := m.rc,
    tag := if dir.globalDst then some view else none }
  LinesFit s o → StartsOp i (extSize x) s (if dir.globalDst then publish s1 w.blk else s1) wid eid
    (if dir.globalDst then
      { w with sw := (lanesOf f.active).foldl (fun sw l => wMerge sw (storeWit w (m.scope == 2 || isFar (hd l)) view)) w.sw }
     else w) f o

def CopyForm (n : Nat) (dir : CopyDir) (i : Ext → BitVec 7 → BitVec 7 → BitVec 8 → Bool → Instr) : Prop :=
  ∀ (s : State) (wid eid : Nat) (w : Wave) (f : Frag) (x : Ext) (d a : BitVec 7) (t : BitVec 8) (fa : Bool)
    (hs hd : Nat → Nat),
    Issuing s wid eid w f → w.control = false → f.active ≠ 0#32 → f.pin = none → Room s wid cCP → MeshRoom s wid w →
    VSrc.Ready w f { fd := a.toNat, cnt := if dir.globalSrc then 2 else 1, pair := dir.globalSrc } →
    VSrc.Ready w f { fd := d.toNat, cnt := if dir.globalDst then 2 else 1, pair := dir.globalDst } →
    let src := copySide w f dir.globalSrc a
    let dst := copySide w f dir.globalDst d
    let v := (opS s wid w f t).toNat
    SideOk s wid w f dir.globalSrc n aRead src hs →
    (t = 215#8 → SideOk s wid w f dir.globalDst n aWrite dst hd →
      CopyStarts (i x d a t fa) x n dir s s wid eid w f src hs dst hd none 0) ∧
    (∀ e r y ph, t ≠ 215#8 → SrcS w t → ScratchOk s w v 16 16 → partOf v = w.part → IsBar s w.blk v e r y ph →
      SideOk s wid w f dir.globalDst n aWrite dst hd →
      CopyStarts (i x d a t fa) x n dir s s wid eid w f src hs dst hd (some v) 0) ∧
    (∀ g dn pt rl ld, t ≠ 215#8 → dir = .g2s → SrcS w t → ScratchOk s w v 64 64 → partOf v = w.part →
      IsRing s w.blk v g dn pt rl ld →
      let slots := g % 256 + 1
      let bytes := 2 ^ (6 + g / 2 ^ 8 % 16)
      let at' := fun l => (2 ^ 21 * w.part + 64 * (g / 2 ^ 12 % 2 ^ 15) + pt % slots * bytes + dst l) % 2 ^ 32
      ((∃ l, l < 32 ∧ f.active.getLsbD l = true ∧ bytes < dst l + n) →
        Traps (i x d a t fa) s wid eid f ringMisuse 0 0) ∧
      ((∀ l, l < 32 → f.active.getLsbD l = true → dst l + n ≤ bytes) → SideOk s wid w f false n aWrite at' hd →
        ((pt + 2 ^ 16 - rl) % 2 ^ 16 = slots → NotReady (i x d a t fa) s wid eid .copyRingFull) ∧
        ((pt + 2 ^ 16 - rl) % 2 ^ 16 ≠ slots →
          CopyStarts (i x d a t fa) x n dir s (scrWritten s w.blk v 64 (ringWord g dn ((pt + 1) % 2 ^ 16) rl ld)) wid eid w f
            src hs at' hd (some v) (pt + 1))))

end Sys2Proof.Claims

open Sys2Proof Sys2Proof.Machine Sys2Proof.Claims

/-- R259, R260: copies check their addresses and target and start an operation. -/
def Sys2Proof.Claims.CopiesIssue : Prop :=
  (CopyForm 4 .g2s .vcopy4G2s ∧ CopyForm 8 .g2s .vcopy8G2s ∧ CopyForm 16 .g2s .vcopy16G2s) ∧
  (CopyForm 4 .s2g .vcopy4S2g ∧ CopyForm 8 .s2g .vcopy8S2g ∧ CopyForm 16 .s2g .vcopy16S2g) ∧
  (CopyForm 4 .g2g .vcopy4G2g ∧ CopyForm 8 .g2g .vcopy8G2g ∧ CopyForm 16 .g2g .vcopy16G2g)

/-- R213, R230, R261, R364: a copy lands: its bytes, its target and its count, as one action; one that reads a line with a poison
mark ends its block with COPY_FAULT. -/
def Sys2Proof.Claims.CopiesLand : Prop :=
  ∀ (s : State) (op : Nat) (o : Op), s.op? op = some o → o.kind = .copy → o.done = false → o.cls = some cCP →
    (o.stage = 1 → scrStoresOut s o.wid op = false) → (o.stage ≠ 1 → bwOver s o.glade = false) → o.reachable s = true →
    earlierOverlap s op o = false → entryTurn s op o = true →
    (o.meetsMark s = true → exec (.copyLand op) s = .next (blockTrap (dropOp s op) o copyFault)) ∧
    (o.meetsMark s = false →
    let r := (copyRead s o o.accs).1
    let mem := (copyRead s o o.accs).2.mem
    let scr := r.foldl (fun s a => scrWritten s o.blk a.va2 o.size a.data) s
    (o.stage = 0 → o.target = none → ∃ t, exec (.copyLand op) s = .next t ∧ t.mem = mem ∧ t.waves = s.waves ∧
      t.blocks = scr.blocks ∧ Retires s t op o cCP) ∧
    (∀ v e ar y ph, o.stage = 0 → o.target = some v → o.slot = 0 → IsBar scr o.blk v e ar y ph →
      y + (o.size * o.accs.length : Nat) < 2 ^ 31 → ∃ t, exec (.copyLand op) s = .next t ∧ t.mem = mem ∧
      t.blocks = (scrWritten scr o.blk v 16 (barDone e ar (y + (o.size * o.accs.length : Nat)) ph)).blocks ∧ Retires s t op o cCP) ∧
    (∀ v g dn pt rl k, o.stage = 0 → o.target = some v → o.slot = k + 1 → IsRing scr o.blk v g dn pt rl 0 →
      ∃ t, exec (.copyLand op) s = .next t ∧ t.mem = mem ∧ Retires s t op o cCP ∧
      t.blocks = (scrWritten scr o.blk v 64 (if dn % (g % 256 + 1) = k % (g % 256 + 1)
        then ringWord g ((dn + 1) % 2 ^ 16) pt rl 0 else ringWord g dn pt rl (2 ^ (k % (g % 256 + 1))))).blocks) ∧
    (o.stage = 1 ∨ o.stage = 2 → o.target = none →
      (∀ a ∈ o.accs, lineFind s o.core o.glade o.ctx a.va2 = none ∧
        (o.stage = 2 → ∀ b ∈ o.accs, lineOf a.va2 ≠ lineOf b.va)) →
      ∃ t, exec (.copyLand op) s = .next t ∧ t.mem = r.foldl (fun m a => setMem m a.home2 o.size a.data) mem ∧
        t.blocks = s.blocks ∧ t.waves = s.waves ∧ Retires s t op o cCP))

/-- R213, R259 to R261: copies issue and land. -/
def Obligations.Copies : Prop := CopiesIssue ∧ CopiesLand

namespace Sys2Proof.Claims

open Sys2Proof Sys2Proof.Machine

/-- The traversal of a lane of a `trace`: of a bad ray there is none. -/
def laneWalk (s : State) (op : Nat) (o : Op) (a : Acc) : Walker :=
  if badRay a.data then {} else traceRay (rayReader s o) (Config.visitOrder op a.lane) a.data (o.args.headD 0)

/-- The words and the hit record of a lane; none where R345 states no result (R346, R347). -/
def laneOut (r : Nat) (x : Walker) : Option (List Word × List Word) :=
  let none' := fun st : Word => some ([0x7F800000#32, 0#32, 0#32, st], [0#32, 0#32, 0#32, 0#32, 0#32, 0#32])
  if badRay r then none' 2#32
  else if x.bad then none' 3#32
  else if x.openVal then none
  else match x.hit with
    | none => none' 0#32
    | some (h, va, leaf) => some ([h.t, h.b1, h.b2, if h.back then 9#32 else 1#32],
        [leaf.getD 9 0, leaf.getD 10 0, BitVec.ofNat 32 va, BitVec.ofNat 32 (va / 2 ^ 32), BitVec.ofNat 32 x.boxes, BitVec.ofNat 32 x.leaves])

/-- A `trace` of the same wave, issued later, has already written the lane. -/
def TracedLater (s : State) (op : Nat) (o : Op) (l : Nat) : Prop :=
  ∃ j p, (j, p) ∈ s.ops ∧ op < j ∧ p.wid = o.wid ∧ p.kind = .trace ∧ p.done = true ∧ p.active.getLsbD l = true

/-- A `trace` whose wave's earlier global stores have performed, and whose bandwidth share is not used up (R348, R382). -/
def TraceReady (s : State) (op : Nat) (o : Op) : Prop :=
  s.op? op = some o ∧ o.kind = .trace ∧ o.done = false ∧ o.cls = some cTQ ∧ o.target = none ∧ bwOver s o.glade = false ∧
    ∀ j p, (j, p) ∈ s.ops → j < op → p.wid = o.wid → p.done = true ∨ p.scr = true ∨
      (p.kind ≠ .store ∧ p.kind ≠ .atomic ∧ (p.kind = .copy → p.stage = 0))

end Sys2Proof.Claims

open Sys2Proof Sys2Proof.Machine Sys2Proof.Claims

/-- R343, R346 to R348, R262: `trace`, its results and hit records, its wait for a page, and `hitrd`. Notes/assumptions 123 (a root
at or above 2^52 is a bad node) and 124 (a miss has zero weights) are the model's choices. -/
def Obligations.RayInstructions : Prop :=
  (∀ (s : State) (wid eid : Nat) (w : Wave) (f : Frag), Issuing s wid eid w f → w.control = false →
    (∀ (d a : BitVec 7) (b : BitVec 8) (fa : Bool), VSrc.Ready w f { fd := a.toNat, cnt := 8 } → SrcS64 w b →
      DstVReady w f (d.toNat, 4, false) →
      let dst := range (vecNo f d.toNat) 4
      (f.active = 0#32 → Room s wid cTQ → MeshRoom s wid w → ∃ t, exec (.trace d a b fa) s = .next t ∧ UnitEnds s t wid eid w (afterUnit 4 true f)) ∧
      (f.active ≠ 0#32 → Room s wid cTQ → MeshRoom s wid w →
        StartsOp (.trace d a b fa) 4 s s wid eid (w.markEmptyV dst) f
          { mkOp wid eid w f .trace (some cTQ) with
            accs := (lanesOf f.active).map fun l => { lane := l, data := vecVal w (vecNo f a.toNat) 8 l }
            dst := dst, args := [(opS64 s wid w f b).toNat] })) ∧
    (∀ (d a : BitVec 7) (fa : Bool), SrcV w f a.toNat → DstV w f d.toNat →
      ((∃ k o, (k, o) ∈ s.ops ∧ o.wid = wid ∧ o.kind = .trace ∧ o.done = false) →
        NotReady (.hitrd d a fa) s wid eid .other) ∧
      ((∀ k o, (k, o) ∈ s.ops → o.wid = wid → o.kind = .trace → o.done = true) → Unwatched s w →
        ∃ t, exec (.hitrd d a fa) s = .next t ∧
          UnitEnds s t wid eid (w.setLanes (vecNo f d.toNat) 1 f.active fun l =>
            [if laneW w f a.toNat l < 6#32 then Tab.valD w.hits (32 * (laneW w f a.toNat l).toNat + l) 0 else 0#32])
            (afterUnit 4 true f)))) ∧
  (∀ (rd : Reader) (order : Nat → Nat) (r root : Nat), root % 128 ≠ 0 ∨ 2 ^ 52 ≤ root → (traceRay rd order r root).bad = true) ∧
  (∀ (s : State) (op : Nat) (o : Op), TraceReady s op o →
    (∀ a ∈ o.accs, ∀ l, l ∈ (laneWalk s op o a).read → readsMark s o [l] = true →
      exec (.traceComplete op) s = .next (blockTrap (dropOp s op) o copyFault)) ∧
    ((∀ a ∈ o.accs, ∀ l, l ∈ (laneWalk s op o a).read → readsMark s o [l] = false) →
      (∀ i a va, o.accs[i]? = some a → (laneWalk s op o a).miss = some va →
        (∀ b ∈ o.accs.take i, (laneWalk s op o b).miss = none) →
        ∃ t, exec (.traceComplete op) s = .next t ∧ t.mem = s.mem ∧ t.waves = s.waves ∧
          let q := enqueueFault s o.glade o.ctx false aRead (va / 65536 * 65536) o.wid o.pc
          t.op? op = some { o with target := some q.1 } ∧ (t.gladeSt o.glade).faultq = (q.2.gladeSt o.glade).faultq) ∧
      (∀ w n, (∀ a ∈ o.accs, (laneWalk s op o a).miss = none) → s.wave? o.wid = some w → w.ended ≠ 0xFFFFFFFF#32 →
        OpUnwatched s w o → Tab.wf w.vregs = true → Tab.wf w.hits = true → o.dst = range n 4 → o.accs.map (·.lane) = lanesOf o.active →
        ∃ t w', exec (.traceComplete op) s = .next t ∧ t.wave? o.wid = some w' ∧ w'.sregs = w.sregs ∧
          ((∀ a ∈ o.accs, (laneWalk s op o a).read = []) → t.mem = s.mem) ∧
          (∀ a ∈ o.accs, laneOut a.data (laneWalk s op o a) = none → w'.vreg (n + 3) a.lane >>> 4 = 0#32) ∧
          (∀ a ∈ o.accs, ∀ ws hs, laneOut a.data (laneWalk s op o a) = some (ws, hs) →
            (∀ i, i < 4 → w'.vreg (n + i) a.lane = ws.getD i 0) ∧
            (¬ TracedLater s op o a.lane → ∀ i, i < 6 → Tab.valD w'.hits (32 * i + a.lane) 0 = hs.getD i 0)) ∧
          (∀ i l, l < 32 → o.active.getLsbD l = false ∨ TracedLater s op o l →
            Tab.valD w'.hits (32 * i + l) 0 = Tab.valD w.hits (32 * i + l) 0) ∧
          (∀ q l, l < 32 → (q < n ∨ n + 4 ≤ q ∨ o.active.getLsbD l = false) → w'.vreg q l = w.vreg q l) ∧
          (∀ q, q ∈ w'.vEmpty ↔ q ∈ w.vEmpty ∧ ¬ (n ≤ q ∧ q < n + 4)) ∧ Retires s t op o cTQ)))

namespace Sys2Proof.Claims

open Sys2Proof Sys2Proof.Machine

/-- Vectors of exact values, in units of 2^-149 for FP32 inputs. -/
def dot3 (a b : Nat → Int) : Int := a 0 * b 0 + a 1 * b 1 + a 2 * b 2
def cross3 (a b : Nat → Int) (i : Nat) : Int := a ((i + 1) % 3) * b ((i + 2) % 3) - a ((i + 2) % 3) * b ((i + 1) % 3)
def rayFrom (r i : Nat) : Int := fx (BitVec.ofNat 32 (r / 2 ^ (32 * i)))
def rayAlong (r i : Nat) : Int := fx (BitVec.ofNat 32 (r / 2 ^ (32 * (4 + i))))
def cornerOf (leaf : List Word) (v i : Nat) : Int := fx (leaf.getD (3 * v + i) 0)

/-- A zero weight counts on a top edge or a left edge, from (·, ya) to (·, yb), of a triangle of this area whose third vertex has yc
(R332). -/
def EdgeCounts (area ya yb yc : Int) : Prop := (ya = yb ∧ ya < yc) ∨ (0 < area ∧ yb < ya) ∨ (area < 0 ∧ ya < yb)

/-- A weight shares the sign of the determinant, or is a zero that counts. -/
def WeightCounts (det e area ya yb yc : Int) : Prop := (e ≠ 0 ∧ (0 < e ↔ 0 < det)) ∨ (e = 0 ∧ EdgeCounts area ya yb yc)

/-- The box and the reference of a child of a box node (R341). -/
def childBox (ws : List Word) (i : Nat) : List Word := (List.range 6).map fun j => ws.getD (6 * i + j) 0
def childRef (ws : List Word) (i : Nat) : Nat := (ws.getD (24 + 2 * i) 0).toNat + 2 ^ 32 * (ws.getD (25 + 2 * i) 0).toNat
def refKind (x : Nat) : Nat := x / 2 ^ 62 % 4
def refTo (x : Nat) : Nat := x / 2 ^ 4 % 2 ^ 48 * 16

/-- A reference that gives BAD_NODE (R344). -/
def RefBad (x : Nat) : Prop :=
  refKind x = 3 ∨ x / 2 ^ 52 % 2 ^ 10 ≠ 0 ∨ (refKind x ≤ 1 ∧ x % 16 ≠ 0) ∨ (refKind x = 1 ∧ refTo x % 128 ≠ 0)

/-- The box node that a path of children leads to from the root, the last child first. -/
def boxNode (rd : Reader) (root : Nat) : List Nat → Option Nat
  | [] => some root
  | i :: p => ((boxNode rd root p).bind fun b => rd b 32).bind fun ws =>
      if refKind (childRef ws i) = 1 then some (refTo (childRef ws i)) else none

/-- The words of that node. -/
def nodeWords (rd : Reader) (root : Nat) (p : List Nat) : Option (List Word) := (boxNode rd root p).bind fun b => rd b 32

/-- The boxes of every child on a path satisfy a test. -/
def AllBoxes (ok : List Word → Prop) (rd : Reader) (root : Nat) : List Nat → Prop
  | [] => True
  | i :: p => AllBoxes ok rd root p ∧ i < 4 ∧ ∃ ws, nodeWords rd root p = some ws ∧ ok (childBox ws i)

/-- A leaf of the run that the last child of a path refers to. -/
def LeafOn (rd : Reader) (root : Nat) (p : List Nat) (va : Nat) (leaf : List Word) : Prop :=
  ∃ i q ws j, p = i :: q ∧ nodeWords rd root q = some ws ∧ refKind (childRef ws i) = 2 ∧ j ≤ childRef ws i % 16 ∧
    va = refTo (childRef ws i) + 48 * j ∧ rd va 12 = some leaf

end Sys2Proof.Claims

open Sys2Proof Sys2Proof.Machine Sys2Proof.Claims

/-- R344: the box test never misses a box that the ray meets within [tmin, t*], and an empty box is no hit. -/
def Sys2Proof.Claims.RayBoxes : Prop :=
  ∀ (r : Nat) (box : List Word) (tstar : Word) (guess : Bool),
    ((∃ i, i < 6 ∧ ((unpack FP32 (box.getD i 0).toNat).isNan = true)) ∨
      (∃ i, i < 3 ∧ finite (box.getD i 0) = true ∧ finite (box.getD (3 + i) 0) = true ∧ fx (box.getD (3 + i) 0) < fx (box.getD i 0)) →
      boxHit r box tstar guess = false) ∧
    (∀ q : ℚ, badRay r = false → (∀ i, i < 3 → rayInf r (4 + i) = false) → (∀ i, i < 6 → finite (box.getD i 0) = true) →
      finite (rayWord r 3) = true → fx (rayWord r 3) ≤ q * 2 ^ 149 →
      tstar = 0x7F800000#32 ∨ (finite tstar = true ∧ q * 2 ^ 149 ≤ fx tstar) →
      (∀ i, i < 3 → fx (box.getD i 0) ≤ rayFrom r i + q * rayAlong r i ∧ rayFrom r i + q * rayAlong r i ≤ fx (box.getD (3 + i) 0)) →
      boxHit r box tstar guess = true)

/-- R345: which triangle a ray hits, and the distance and the weights of the hit. -/
def Sys2Proof.Claims.RayLeaves : Prop :=
  ∀ (r : Nat) (leaf : List Word) (ax : Nat), badRay r = false → (∀ i, i < 3 → rayInf r (4 + i) = false) →
    (∀ i, i < 9 → finite (leaf.getD i 0) = true) → ax < 3 →
    (∀ i, i < 3 → (rayAlong r i).natAbs ≤ (rayAlong r ax).natAbs) → (∀ i, i < ax → (rayAlong r i).natAbs < (rayAlong r ax).natAbs) →
    let d := rayAlong r
    let v := fun n i => cornerOf leaf n i - rayFrom r i
    let U := dot3 d (cross3 (v 2) (v 1))
    let V := dot3 d (cross3 (v 0) (v 2))
    let W := dot3 d (cross3 (v 1) (v 0))
    let det := U + V + W
    let px := fun n => v n ((ax + 1) % 3)
    let py := fun n => v n ((ax + 2) % 3)
    let area := (px 1 - px 0) * (py 2 - py 0) - (px 2 - px 0) * (py 1 - py 0)
    let counts := fun (e : Int) (i : Nat) => WeightCounts det e area (py ((i + 1) % 3)) (py ((i + 2) % 3)) (py i)
    let flags := leaf.getD 11 0
    let hit := det ≠ 0 ∧ counts U 0 ∧ counts V 1 ∧ counts W 2 ∧ ¬ (det < 0 ∧ flags.getLsbD 0 = true) ∧
      ¬ (0 < det ∧ flags.getLsbD 1 = true)
    (¬ hit → leafHit r leaf = none) ∧
    (hit → ∃ h, leafHit r leaf = some h ∧ h.back = decide (det < 0) ∧ h.b1 = roundRat 0 V det 0 ∧ h.b2 = roundRat 0 W det 0 ∧
      h.t = roundRat 0 (dot3 (fun i => U * cornerOf leaf 0 i + V * cornerOf leaf 1 i + W * cornerOf leaf 2 i - det * rayFrom r i) d)
        (det * dot3 d d) 0)

/-- R341, R342, R344, R345: what a traversal finds, whatever order it visits children in: of the leaves behind boxes that hit, the
nearest, at equal distances the lowest; and BAD_NODE only for a bad root, reference, leaf or path. -/
def Sys2Proof.Claims.RayTraversal : Prop :=
  ∀ (rd : Reader) (order : Nat → Nat) (r root : Nat), badRay r = false →
    let x := traceRay rd order r root
    let accepted := fun h : LeafHit => fle (rayWord r 3) h.t = true ∧ fle h.t (rayWord r 7) = true
    let maybe := fun b => ∃ g, boxHit r b (rayWord r 7) g = true
    (x.bad = true → root % 128 ≠ 0 ∨ 2 ^ 52 ≤ root ∨
      (∃ p ws i, AllBoxes maybe rd root p ∧ nodeWords rd root p = some ws ∧ i < 4 ∧ RefBad (childRef ws i)) ∨
      (∃ p va leaf, AllBoxes maybe rd root p ∧ LeafOn rd root p va leaf ∧ (leaf.getD 11 0).toNat / 4 ≠ 0) ∨
      (∃ p, p.length = 64 ∧ AllBoxes maybe rd root p ∧ boxNode rd root p ≠ none)) ∧
    (∀ h va leaf, x.hit = some (h, va, leaf) →
      ∃ p, AllBoxes maybe rd root p ∧ LeafOn rd root p va leaf ∧ leafHit r leaf = some h ∧ accepted h) ∧
    (x.bad = false → x.openVal = false → x.miss = none → ∀ p va leaf h, LeafOn rd root p va leaf →
      AllBoxes (fun b => ∀ g, boxHit r b (x.tstar r) g = true) rd root p → leafHit r leaf = some h → accepted h →
      ∃ h' va' leaf', x.hit = some (h', va', leaf') ∧ (flt h'.t h.t = true ∨ (fle h'.t h.t = true ∧ va' ≤ va)))

/-- R341, R342, R344, R345: boxes, leaves and traversals of rays. -/
def Obligations.RayTraversals : Prop := RayBoxes ∧ RayLeaves ∧ RayTraversal

namespace Sys2Proof.Claims

open Sys2Proof Sys2Proof.Machine

/-! ## Commands and blocks (R41 to R53, R159 to R162) -/

/-- The next command sequence number of a control core (R159). -/
def nextSeq (n : Nat) : Nat := if n = 0xFFFFFFFF then 1 else n + 1

/-- `launch` or `pass` at a control core (R159 to R162). -/
def SubmitForm (isPass : Bool) (n : Nat) (i : BitVec 8 → BitVec 8 → Instr) : Prop :=
  ∀ (s : State) (wid eid : Nat) (w : Wave) (f : Frag) (d a : BitVec 8), Issuing s wid eid w f →
    (w.control = false → Traps (i d a) s wid eid f illegalOp 0 0) ∧
    (w.control = true → SrcS64 w a → DstSReady w (d.toNat, n, isPass) →
      (64 ≤ queueLength s w.glade → NotReady (i d a) s wid eid .other) ∧
      (queueLength s w.glade < 64 → ∃ t, exec (i d a) s = .next t ∧
        UnitEnds { s with
            cmds := Tab.put s.cmds s.nextId
              { isPass := isPass, glade := w.glade, seq := nextSeq w.ccSeq, ccpc := f.pc, addr := opS64 s wid w f a, dst := d.toNat },
            nextId := s.nextId + 1 }
          t wid eid (Wave.markEmptyS { w with ccSeq := nextSeq w.ccSeq } (range d.toNat n)) (afterUnit 4 true f)))

/-- The only bytes of memory that change are bytes of L1 lines that hold stored bytes, which their eviction lands (R22, R202). -/
def OnlyEvicts (s t : State) : Prop :=
  ((∀ core e, e ∈ (s.coreSt core).l1 → e.dirty = 0) → t.mem = s.mem) ∧
  (Memory.wf s.mem = true → ∀ a, (∀ core e, e ∈ (s.coreSt core).l1 → e.dirty ≠ 0 → a < e.home ∨ e.home + 128 ≤ a) →
    getByte t.mem a = getByte s.mem a)

/-- A command ends before any block of it stood: its status, and the destination of a `launch` that still waits. -/
def EndsEarly (i : Instr) (s : State) (cmd : Nat) (k : Cmd) (code detail : Nat) (result : Option Nat) : Prop :=
  ∃ t, exec i s = .next t ∧ t.mem = s.mem ∧ t.ops = s.ops ∧
    t.cmd? cmd = some { k with st := .ending, status := code, detail := detail, faultEnt := none } ∧
    ∀ w, s.wave? k.glade = some w → t.wave? k.glade = some (match result with
      | some v => if w.ended = 0xFFFFFFFF#32 then w else (w.setS k.dst (BitVec.ofNat 32 v)).markFullS (range k.dst 1)
      | none => w)

/-- A command's access waits for the driver: an entry of the fault queue names its page (R161, R374). -/
def AwaitsPage (i : Instr) (s : State) (cmd : Nat) (k : Cmd) (c va : Nat) : Prop :=
  ∃ t e, exec i s = .next t ∧ e ∈ (t.gladeSt k.glade).faultq ∧ e.ctx = c ∧ e.va / 2 ^ 16 = va / 2 ^ 16 ∧
    t.cmd? cmd = some { k with faultEnt := some e.id } ∧ t.mem = s.mem ∧ t.waves = s.waves ∧ t.ops = s.ops

/-- The words of a descriptor, by offset: 32 bits, 64 bits, and a field. -/
def dw (k : Cmd) (off : Nat) : Nat := (k.desc.getD (off / 4) 0).toNat
def dq (k : Cmd) (off : Nat) : Nat := dw k off + 2 ^ 32 * dw k (off + 4)
def df (k : Cmd) (off hi lo : Nat) : Nat := dw k off / 2 ^ lo % 2 ^ (hi + 1 - lo)

/-- An address field: 52 bits, aligned. -/
def AddrField (k : Cmd) (off align : Nat) : Prop := dq k off < 2 ^ 52 ∧ dq k off % align = 0

/-- A launch descriptor without the faults that R43 names. -/
structure GridValid (s : State) (k : Cmd) : Prop where
  version : df k 0 31 28 = 1
  counts : df k 0 22 20 ≤ 4 ∧ 1 ≤ df k 0 19 16 ∧ df k 0 19 16 ≤ 8 ∧ 1 ≤ df k 0 15 8 ∧ df k 0 15 8 ≤ 192 ∧ df k 0 19 16 ≤ df k 0 15 8
  sizes : 1 ≤ df k 4 31 26 ∧ df k 4 31 26 ≤ 32 ∧ df k 4 25 21 ≤ 16 ∧ df k 8 20 0 ≤ 1310720
  dims : 1 ≤ df k 0x10 15 0 ∧ 1 ≤ df k 0x10 31 16 ∧ 1 ≤ df k 0x14 15 0 ∧
    df k 0x10 15 0 * df k 0x10 31 16 * df k 0x14 15 0 ≤ 16777216
  fmt : LegalFmt (BitVec.ofNat 32 (dw k 0x0C))
  addrs : AddrField k 0x18 2 ∧ AddrField k 0x20 2 ∧ AddrField k 0x28 1 ∧ AddrField k 0x40 8
  teams : df k 0x38 8 0 ≤ 256 ∧ (df k 0x38 8 0 ≠ 0 → AddrField k 0x30 8)
  reserved : df k 0 23 23 = 0 ∧ df k 0 7 0 = 0 ∧ df k 4 16 0 = 0 ∧ df k 8 31 21 = 0 ∧ df k 0x14 31 16 = 0 ∧ df k 0x38 31 9 = 0 ∧
    df k 0x3C 31 6 = 0 ∧ ∀ i, i < 6 → dw k (0x68 + 4 * i) = 0
  ctx : ctxState s k.glade (df k 0x3C 5 0) = 1

/-- Entry `x` of a team table, 16 bytes, has none of the faults that R44 names, and COUNT at most 6,144 (notes/assumptions 145). -/
def EntryValid (x : Nat) : Prop :=
  x / 2 ^ 96 = 0 ∧ 1 ≤ x / 2 ^ 64 ∧ x / 2 ^ 64 ≤ 6144 ∧ x % 2 ^ 64 % 4 = 0 ∧ x % 2 ^ 64 < 2 ^ 52

/-- The teams of a table that can be read and whose entries are valid: member records as pairs of block and wave (R44). -/
def TableHolds (s : State) (g va n : Nat) (ts : List (List (Nat × Nat))) : Prop :=
  ts.length = n ∧ ∀ i t, ts[i]? = some t → ∃ x y, fetchCtx s g 0 (va + 16 * i) 16 = .ok x ∧ EntryValid x ∧
    fetchCtx s g 0 (x % 2 ^ 64) (4 * (x / 2 ^ 64)) = .ok y ∧ t.length = x / 2 ^ 64 ∧
    ∀ j m, t[j]? = some m → m = (y / 2 ^ (32 * j + 8) % 2 ^ 24, y / 2 ^ (32 * j) % 2 ^ 8)

/-- Entry `i` of a table makes it TEAM_BAD: it or its members cannot be read, or it breaks R44. -/
def EntryBad (s : State) (g va i : Nat) : Prop :=
  fetchCtx s g 0 (va + 16 * i) 16 = .bad ∨ ∃ x, fetchCtx s g 0 (va + 16 * i) 16 = .ok x ∧
    (¬ EntryValid x ∨ fetchCtx s g 0 (x % 2 ^ 64) (4 * (x / 2 ^ 64)) = .bad)

/-- Entry `i` of a table awaits a page. -/
def EntryMissing (s : State) (g va i a : Nat) : Prop :=
  fetchCtx s g 0 (va + 16 * i) 16 = .miss a ∨ ∃ x, fetchCtx s g 0 (va + 16 * i) 16 = .ok x ∧ EntryValid x ∧
    fetchCtx s g 0 (x % 2 ^ 64) (4 * (x / 2 ^ 64)) = .miss a

/-- The members of the teams are waves of the grid, in no list twice and in no more than four teams (R44). -/
def TeamsValid (k : Cmd) (ts : List (List (Nat × Nat))) : Prop :=
  ∀ t ∈ ts, t.Nodup ∧ ∀ m ∈ t, m.1 < df k 0x10 15 0 * df k 0x10 31 16 * df k 0x14 15 0 ∧ m.2 < df k 0 15 8 ∧
    (ts.filter fun u => u.contains m).length ≤ 4

/-- A core without waves, at the largest scratchpad (R50, R52). -/
def wholeCore (c : Nat) : CoreRes :=
  { core := c, slots := [128, 128, 128, 128], regs := [6144, 6144, 6144, 6144], tiles := [32, 32, 32, 32], scr := 1310720,
    split := 2048, gran := 768, nslots := 96 }

/-- `n` blocks of a stage can be placed together on the glade's cores, all of them empty (R52). -/
def Placeable (s : State) (k : Cmd) (stage n : Nat) : Prop :=
  (placeAll (fun _ => k.shape stage) ((List.range n).map fun i => (i, ({} : Block))) ((s.gladeSt k.glade).cores.map wholeCore)).isSome = true

/-- Two blocks hold members of one team. -/
def OneTeam (k : Cmd) (a b : Nat) : Prop := ∃ t m n, t ∈ k.teams ∧ m ∈ t ∧ n ∈ t ∧ m.1 = a ∧ n.1 = b

/-- The blocks of a team group with a block that holds a member: closed under common teams, and no larger (R52). -/
def TeamGroup (k : Cmd) (b : Nat) (l : List Nat) : Prop :=
  b ∈ l ∧ l.Nodup ∧ (∀ x y, x ∈ l → OneTeam k x y → y ∈ l) ∧
    ∀ l' : List Nat, b ∈ l' → (∀ x y, x ∈ l' → OneTeam k x y → y ∈ l') → ∀ x ∈ l, x ∈ l'

/-- An event of a block or a command leaves memory, waves and operations as they were. -/
def Quietly (s t : State) : Prop := t.mem = s.mem ∧ t.waves = s.waves ∧ t.ops = s.ops

end Sys2Proof.Claims

open Sys2Proof Sys2Proof.Machine Sys2Proof.Claims

/-- R159 to R162: submission of a grid or a pass. -/
def Sys2Proof.Claims.Submission : Prop := SubmitForm false 1 .launch ∧ SubmitForm true 2 .pass

/-- R43, R44, R47, R52, R161, R439: the steps of a grid up to WAIT_DEP: its descriptor is read and it is QUEUED; descriptor
and team table are valid and it is CHECKED; its residency is checked. (That COUNT is at most 6,144 is the model's choice, notes/assumptions 145.) -/
def Sys2Proof.Claims.DescriptorChecks : Prop :=
  ∀ (s : State) (cmd : Nat) (k : Cmd), s.cmd? cmd = some k → k.isPass = false → k.faultEnt = none → cmdBlocks s cmd = [] →
    let i := Instr.descriptorCheck cmd
    let g := k.glade
    let table := dq k 0x30
    let teams := df k 0x38 8 0
    (k.st = .reading → ccQuiet s cmd k.glade = true →
      (k.readFail = true ∨ k.addr.toNat % 128 ≠ 0 ∨ 2 ^ 52 < k.addr.toNat + 128 ∨ ctxState s k.glade 0 ≠ 1 →
        EndsEarly i s cmd k 1 0 (some 1)) ∧
      (k.readFail = false → k.addr.toNat % 128 = 0 → k.addr.toNat < 2 ^ 52 → ctxState s k.glade 0 = 1 →
        (walkPage s k.glade 0 k.addr.toNat = none → AwaitsPage i s cmd k 0 k.addr.toNat) ∧
        (∀ x, fetchCtx s k.glade 0 k.addr.toNat 128 = .ok x → ∃ t, exec i s = .next t ∧ Quietly s t ∧
          t.cmd? cmd = some { k with desc := wordsOf 32 x, st := .queued }))) ∧
    (k.st = .queued →
      (k.readFail = true → EndsEarly i s cmd k 2 0 (some 2)) ∧
      (k.readFail = false →
        (¬ GridValid s k → EndsEarly i s cmd k 1 0 (some 1)) ∧
        (∀ n ts, GridValid s k → n < teams → TableHolds s g table n ts →
          (EntryBad s g table n → EndsEarly i s cmd k 2 0 (some 2)) ∧
          (∀ va, EntryMissing s g table n va → AwaitsPage i s cmd k 0 va)) ∧
        (∀ ts, GridValid s k → TableHolds s g table teams ts →
          (¬ TeamsValid k ts → EndsEarly i s cmd k 2 0 (some 2)) ∧
          (TeamsValid k ts → ∃ t, exec i s = .next t ∧ t.mem = s.mem ∧ t.ops = s.ops ∧
            t.cmd? cmd = some { k with teams := ts, st := .checked } ∧
            ∀ w, s.wave? k.glade = some w → t.wave? k.glade =
              some (if w.ended = 0xFFFFFFFF#32 then w else (w.setS k.dst 0).markFullS (range k.dst 1)))))) ∧
    (k.st = .checked → replayAwaits s g cmd k.ctx = false →
      let grid := df k 0x10 15 0 * df k 0x10 31 16 * df k 0x14 15 0
      let coop := df k 0 25 25 = 1
      (¬ Placeable s k 0 1 → EndsEarly i s cmd k 5 0 none) ∧
      (Placeable s k 0 1 → coop → ¬ Placeable s k 0 grid → EndsEarly i s cmd k 4 0 none) ∧
      (Placeable s k 0 1 → (coop → Placeable s k 0 grid) →
        (∀ t m l, t ∈ k.teams → m ∈ t → TeamGroup k m.1 l → ¬ Placeable s k 0 l.length → EndsEarly i s cmd k 3 0 none) ∧
        ((∀ t m l, t ∈ k.teams → m ∈ t → TeamGroup k m.1 l → Placeable s k 0 l.length) →
          ∃ t, exec i s = .next t ∧ Quietly s t ∧ t.cmd? cmd = some { k with st := .waitDep })))

/-- R50: the resources that one part of a shape takes of a core, and where its waves go. -/
def Sys2Proof.Claims.Occupancy : Prop :=
  ∀ (x : Shape) (n gran slots q0 : Nat) (r : CoreRes) (fs rs ts : Nat → Nat), r.slots = (List.range 4).map fs →
    r.regs = (List.range 4).map rs → r.tiles = (List.range 4).map ts → q0 < 4 →
    (∀ q, q < 4 → fs q ≤ fs q0) → (∀ q, q < q0 → fs q < fs q0) →
    let waves := fun q => ((List.range n).filter fun i => (q0 + i) % 4 == q).length
    let scr := (x.scratch + 65535) / 65536 * 65536
    let fits := (∀ q, q < 4 → waves q ≤ fs q ∧ waves q * x.nvreg ≤ rs q ∧ waves q * x.nacc ≤ ts q) ∧ scr ≤ r.scr ∧
      n * (1 + x.rsv) ≤ r.split ∧ gran ≤ r.gran ∧ slots ≤ r.nslots
    (¬ fits → fitPart x n gran slots r = none) ∧
    (fits → ∃ r', fitPart x n gran slots r = some r' ∧ r'.core = r.core ∧ r'.slots = (List.range 4).map (fun q => fs q - waves q) ∧
      r'.regs = (List.range 4).map (fun q => rs q - waves q * x.nvreg) ∧
      r'.tiles = (List.range 4).map (fun q => ts q - waves q * x.nacc) ∧ r'.split = r.split - n * (1 + x.rsv) ∧
      (r.target = none → r'.scr = r.scr - scr) ∧
      (∀ tg, r.target = some tg → r'.scr = min 1310720 (max scr tg) - scr))

/-- R47, R48, R321, R325: a command whose dependences are satisfied becomes ACTIVE, and one whose dependence traps ends. -/
def Sys2Proof.Claims.EntryDependences : Prop :=
  ∀ (s : State) (cmd : Nat) (k : Cmd), s.cmd? cmd = some k → k.st = .waitDep → k.faultEnt = none → cmdBlocks s cmd = [] →
    let i := Instr.entryDependenceSatisfied cmd
    (∀ pre w c post, k.deps = pre ++ w :: post → (∀ v ∈ pre, witnessTrap s k.glade v = none) → witnessTrap s k.glade w = some c →
      EndsEarly i s cmd k 6 c none) ∧
    ((∀ w ∈ k.deps, witnessTrap s k.glade w = none ∧ satisfied s (256 + k.glade) k.glade w = true) →
      (k.readFail = true → EndsEarly i s cmd k 1 0 none) ∧
      (k.readFail = false → k.isPass = false → ∃ t, exec i s = .next t ∧ Quietly s t ∧ t.cmd? cmd = some { k with st := .active } ∧
        ∀ n, n < k.blocks → t.blk? (s.nextId + n) = some { cmd := cmd, lin := n, since := s.now }) ∧
      (k.readFail = false → k.isPass = true →
        (walkPage s k.glade k.ctx (k.d 0x18) = none → AwaitsPage i s cmd k k.ctx (k.d 0x18)) ∧
        (∀ p, walkPage s k.glade k.ctx (k.d 0x18) = some p →
          let q := readQueue s (p.homeOf (k.d 0x18))
          let ok := q.ok = true ∧ areaOk s k.glade k.ctx (k.d 0x18 + 64) (q.cap * 4 * q.rw) false = true
          (¬ ok → EndsEarly i s cmd k 1 0 none) ∧
          (ok → ∃ t, exec i s = .next t ∧ Quietly s t ∧ t.cmd? cmd = some { k with st := .active, pass := some {} } ∧
            (k.b 0 10 10 = 0 → t.blocks = s.blocks) ∧
            (k.b 0 10 10 = 1 → ∀ n, n < k.w 0x58 →
              t.blk? (s.nextId + n) = some { cmd := cmd, lin := n, stage := 1, since := s.now })))))

/-- R43, R44, R47, R48, R52, R159 to R162, R321, R325: submission, descriptor checks and entry dependences. -/
def Obligations.CommandsStart : Prop := Submission ∧ DescriptorChecks ∧ Occupancy ∧ EntryDependences

/-- R41, R46: the state in which a wave of a grid starts. -/
def Sys2Proof.Claims.InitialWaveState : Prop :=
  ∀ (k : Cmd) (cmd bid : Nat) (b : Block) (x : Shape) (wid widx part core quad : Nat), k.isPass = false → b.stage = 0 →
    let w := initWave k cmd bid b x wid widx part core quad
    let gx := k.b 0x10 15 0
    let gy := k.b 0x10 31 16
    (∀ n, w.sreg n = BitVec.ofNat 32 (if n = 0 then k.d 0x28 % 2 ^ 32 else if n = 1 then k.d 0x28 / 2 ^ 32 else if n = 2 then b.lin
      else if n = 3 then b.lin % gx else if n = 4 then b.lin / gx % gy else if n = 5 then b.lin / gx / gy else if n = 6 then widx
      else if n = 7 then part else if n = 8 then k.seq else if n = 9 then k.w 0x10 else if n = 10 then k.b 0x14 15 0 else 0)) ∧
    (∀ n l, l < 32 → w.vreg n l = if n = 0 then BitVec.ofNat 32 l else if n = 1 then BitVec.ofNat 32 (32 * widx + l) else 0) ∧
    w.sEmpty = [] ∧ w.vEmpty = [] ∧ w.fflags = 0 ∧ w.tiles = [] ∧ w.uhandler = x.handler ∧ w.nvreg = x.nvreg ∧ w.nacc = x.nacc ∧
    w.ents = [(0, .frag { memb := 0xFFFFFFFF#32, emask := 0xFFFFFFFF#32, pc := x.entry, fmt := x.fmt })] ∧
    (∀ i, i < 4 → w.teams.getD i 0 = match (((List.range k.teams.length).filter fun n => (k.teams.getD n []).contains (b.lin, widx)))[i]? with
      | some n => 256 + n
      | none => 0)

/-- R46, R49, R50, R53: the dispatcher places the first blocks of a command that no other bars. -/
def Sys2Proof.Claims.BlockPlacement : Prop :=
  (∀ (s : State) (cmd bid : Nat) (k : Cmd) (b : Block) (spots : List (Nat × Nat)), s.cmd? cmd = some k → s.blk? bid = some b →
    b.st = .pending → placedBlocks s cmd = [] → plan s cmd k = some ([(bid, b)], [(bid, spots)]) → firstServed s cmd k = true →
    barred s cmd k [(bid, b)] = false →
    let x := k.shape b.stage
    let ws := waveSpots x spots
    ∃ t b', exec (.blockPlacement cmd) s = .next t ∧ OnlyEvicts s t ∧ t.ops = s.ops ∧ t.blk? bid = some b' ∧ b'.st = .placed ∧
      b'.cores = spots.map (·.1) ∧ b'.waves = range s.nextId ws.length ∧ b'.scrSize = x.allot ∧
      t.cmd? cmd = some { k with st := .active } ∧
      (∀ i y, ws[i]? = some y → t.wave? (s.nextId + i) =
        some (initWave k cmd bid b x (s.nextId + i) y.1 y.2.1 y.2.2.1 y.2.2.2)) ∧
      ∀ n, n < s.nextId ∨ s.nextId + ws.length ≤ n → t.wave? n = s.wave? n) ∧
  (∀ (s : State) (cmd : Nat) (k : Cmd) (core q0 : Nat), s.cmd? cmd = some k → placedBlocks s cmd = [] →
    plan s cmd k = some ([], [(0, [(core, q0)])]) → firstServed s cmd k = true → barred s cmd k [] = false →
    ∃ t b', exec (.blockPlacement cmd) s = .next t ∧ OnlyEvicts s t ∧ t.ops = s.ops ∧ t.blk? s.nextId = some b' ∧ b'.cmd = cmd ∧
      b'.stage = 3 ∧ b'.lin = core ∧ b'.st = .placed ∧ b'.cores = [core] ∧
      b'.waves = range (s.nextId + 1) (waveSpots (k.shape 3) [(core, q0)]).length) ∧
  (∀ (s : State) (cmd : Nat) (k : Cmd), s.cmd? cmd = some k → placedBlocks s cmd ≠ [] → Tab.wf s.blocks = true →
    ∃ t, exec (.blockPlacement cmd) s = .next t ∧ Quietly s t ∧ t.cmds = s.cmds ∧
      ∀ id b, s.blk? id = some b →
        t.blk? id = some (if b.cmd = cmd ∧ b.st = .placed then { b with st := .running } else b)) ∧
  (∀ (s : State) (bid : Nat) (b : Block), s.blk? bid = some b → b.st = .pending ∨ b.st = .saved → b.starving = false →
    b.since + 64000 ≤ s.now →
    ∃ t, exec (.pendingTimeout bid) s = .next t ∧ Quietly s t ∧ t.blk? bid = some { b with starving := true })

/-- R45, R49, R160: the end of a block and of a grid. -/
def Sys2Proof.Claims.EndsOfBlocksAndGrids : Prop :=
  (∀ (s : State) (bid : Nat) (b : Block), s.blk? bid = some b → b.terminated = false →
    b.st = .running ∨ b.st = .finishing ∨ b.st = .quiescing → blockBusy s bid = false →
    (∀ k ∈ b.waves, (s.waveD k).ended = 0xFFFFFFFF#32) → Tab.wf s.waves = true → Tab.wf s.blocks = true →
    ∃ t b', exec (.blockDone bid) s = .next t ∧ t.mem = s.mem ∧ t.ops = s.ops ∧ t.blk? bid = some b' ∧ b'.st = .done ∧
      b'.cores = [] ∧ b'.slots = [] ∧ b'.scr = [] ∧
      (∀ n, t.wave? n = if n ∈ b.waves then none else s.wave? n) ∧
      ∀ k, s.cmd? b.cmd = some k →
        let k' := { k with wit := b.waves.foldl (fun v n => wMerge v (s.waveD n).sw) k.wit }
        t.cmd? b.cmd = some (if k.isPass = false ∧ (k.st = .active ∨ k.st = .suspended) ∧
            (∀ x ∈ cmdBlocks s b.cmd, x.1 = bid ∨ x.2.st = .done)
          then { k' with st := .ending, status := if k.firstTerm = none then 0 else 7, detail := k.firstTerm.getD 0 }
          else k')) ∧
  (∀ (s : State) (cmd : Nat) (k : Cmd), s.cmd? cmd = some k → k.isPass = false → inReplay s cmd = false →
    k.st = .ending →
    let st := k.status
    let det := k.detail
    let wit := if st = 0 then k.wit else 0
    coveredLanded s k.glade wit = true → Tab.wf s.cmds = true →
    let va := k.d 0x40
    ∃ t, exec (.completionRecordWrite cmd) s = .next t ∧ t.cmd? cmd = none ∧ t.waves = s.waves ∧ t.ops = s.ops ∧
      (k.desc = [] ∨ va % 8 ≠ 0 ∨ 2 ^ 52 ≤ va → t.mem = s.mem) ∧
      (∀ h, k.desc ≠ [] → va % 8 = 0 → va < 2 ^ 52 → (∀ n, n < 16 → writableHome s k.glade k.ctx (va + n) = some (h + n)) →
        Memory.wf s.mem = true → st < 256 → det < 256 → k.seq < 2 ^ 32 →
        getMem t.mem h 16 = st + det * 2 ^ 8 + k.seq * 2 ^ 32 + wit.toNat * 2 ^ 64 ∧
        ∀ a, a < h ∨ h + 16 ≤ a → getByte t.mem a = getByte s.mem a))

/-- R41, R45, R46, R49, R50, R53, R160: placement, the first state of a wave, and the ends of blocks and grids. -/
def Obligations.BlocksOfAGrid : Prop := InitialWaveState ∧ BlockPlacement ∧ EndsOfBlocksAndGrids

namespace Sys2Proof.Claims

open Sys2Proof Sys2Proof.Machine

/-! ## Render passes (R317 to R340) -/

/-- An active pass in a phase, with no access of its units waiting, in a context that runs. -/
structure InPass (s : State) (cmd phase : Nat) (k : Cmd) (p : PassSt) : Prop where
  cmd : s.cmd? cmd = some k
  pass : k.pass = some p
  active : k.st = .active
  phase : p.phase = phase
  noWait : k.faultEnt = none
  runs : ctxRuns s k.glade k.ctx = true

/-- Every page of the ranges grants a unit of the command the access. -/
def PagesOk (s : State) (cmd : Nat) (k : Cmd) (kind : Nat) (rs : List (Nat × Nat)) : Prop :=
  ∀ r ∈ rs, unitAccess s cmd k kind r.1 r.2 = .ok

/-- The event happens and leaves the pass as `p'`; no wave changes. -/
def PassStep (i : Instr) (s : State) (cmd : Nat) (k : Cmd) (p' : PassSt) (more : State → Prop) : Prop :=
  ∃ t, exec i s = .next t ∧ t.cmd? cmd = some { k with pass := some p' } ∧ more t

/-- A command ends: its status and detail, and none of its blocks is left. -/
def EndsNow (i : Instr) (s : State) (cmd code detail : Nat) : Prop :=
  ∃ t k, exec i s = .next t ∧ t.cmd? cmd = some k ∧ k.st = .ending ∧ k.status = code ∧ k.detail = detail ∧
    ∀ n b, t.blk? n = some b → b.cmd = cmd → b.st = .done

/-- A word of a colour sample as a tile of a pass holds it. -/
def colourAt (s : State) (cmd tile smp n j : Nat) : Word :=
  Tab.valD (Tab.valD ((s.cmdD cmd).pass.getD {}).tiles tile {}).colour (32 * smp + 4 * n + j) 0

/-- A resolve wave issues, in pass `k` with state `p`. -/
def Resolving (s : State) (wid eid : Nat) (w : Wave) (f : Frag) (k : Cmd) (p : PassSt) : Prop :=
  VecIssuing s wid eid w f ∧ w.stage = 3 ∧ s.cmd? w.cmd = some k ∧ k.pass = some p

/-- The place of an active lane among the active lanes. -/
def turnOf (m : Word) (l : Nat) : Nat := ((List.range l).filter fun i => m.getLsbD i).length

/-- The wave after `rsget`: the items to hand out, and whether the round then has none left (R334). -/
def Handed (w w' : Wave) (m : Word) (n : Nat) (items : List Item) (last : Bool) : Prop :=
  { w' with vregs := w.vregs, items := w.items } = w ∧
  (∀ r l, l < 32 → w'.vreg r l =
    if m.getLsbD l = true ∧ n ≤ r ∧ r < n + 8 then
      (match items[turnOf m l]? with
        | some x => x.words.getD (r - n) 0
        | none => 0#32) ||| (if r = n + 1 ∧ last = true then 64#32 else 0#32)
    else w.vreg r l) ∧
  ∀ l, l < 32 → Tab.val? w'.items l = if m.getLsbD l = true then items[turnOf m l]? else Tab.val? w.items l

/-- An `rsget` that finds no items yet has issued and waits: its lanes have given up theirs (R336; the moment they do is the
model's choice, notes/assumptions 120). -/
def AwaitsItems (i : Instr) (s : State) (wid eid : Nat) (w : Wave) (f : Frag) : Prop :=
  ∃ t w', exec i s = .next t ∧ t.mem = s.mem ∧ t.ops = s.ops ∧ (∀ n, n ≠ wid → t.wave? n = s.wave? n) ∧ t.wave? wid = some w' ∧
    w'.frag? eid = some { f with held := some (f.held.getD { since := s.now }), stall := .rasterWait } ∧ w'.vregs = w.vregs ∧
    ∀ l, l < 32 → Tab.val? w'.items l = if f.active.getLsbD l = true then none else Tab.val? w.items l

/-- Memory outside the pages a range of the context may be written at is as it was. -/
def WritesOnly (s t : State) (k : Cmd) (rs : List (Nat × Nat)) : Prop :=
  ∀ a, (∀ r ∈ rs, ∀ v, r.1 ≤ v → v < r.1 + r.2 → writableHome s k.glade k.ctx v ≠ some a) → getByte t.mem a = getByte s.mem a

/-- The pass is as `p'`, but for the record of what the device has written where. -/
def PassBecomes (t : State) (cmd : Nat) (k : Cmd) (p' : PassSt) : Prop :=
  ∃ q : PassSt, t.cmd? cmd = some { k with pass := some q } ∧ { q with arena := p'.arena, chunks := p'.chunks } = p'

/-- The words of a stage record at an offset (R318) keep to their ranges; COUNT is that of a task stage or zero. -/
structure StageValid (k : Cmd) (off : Nat) : Prop where
  entry : AddrField k off 2
  sizes : 1 ≤ df k (off + 8) 31 26 ∧ df k (off + 8) 31 26 ≤ 32 ∧ df k (off + 8) 25 21 ≤ 16 ∧ 1 ≤ df k (off + 8) 16 9 ∧ df k (off + 8) 16 9 ≤ 192
  handler : AddrField k (off + 0x10) 2
  count : if off = 0x40 then 1 ≤ dw k (off + 0x18) ∧ dw k (off + 0x18) ≤ 2 ^ 24 else dw k (off + 0x18) = 0
  fmt : LegalFmt (BitVec.ofNat 32 (dw k (off + 0x1C)))

/-- Bytes per sample: of a colour format, of the depth, and of a sample's tile slot (R319, R320). -/
def colourSize (n : Nat) : Nat := if n = 1 then 8 else if n = 3 then 16 else 4
def depthSize (n : Nat) : Nat := if n = 1 then 4 else if n = 2 then 2 else 0
def sampleSize (k : Cmd) : Nat :=
  depthSize (df k 0 17 16) + 4 + ((List.range (df k 0 21 18)).map fun i => colourSize (df k (0x10C + 32 * i) 2 0)).sum

/-- Tile edge, samples and number of tiles of a pass. -/
def passEdge (k : Cmd) : Nat := 16 * 2 ^ df k 0 23 22
def passTiles (k : Cmd) : Nat :=
  (df k 4 15 0 + passEdge k - 1) / passEdge k * ((df k 4 31 16 + passEdge k - 1) / passEdge k)

/-- A used colour target record (R319). -/
def TargetValid (k : Cmd) (i : Nat) : Prop :=
  let o := 0x100 + 32 * i
  let b := colourSize (df k (o + 0x0C) 2 0)
  df k (o + 0x0C) 2 0 ≤ 3 ∧ AddrField k o 256 ∧ dw k (o + 8) % 256 = 0 ∧ df k 4 15 0 * 2 ^ df k 0 25 24 * b ≤ dw k (o + 8) ∧
    ∀ j, j < 4 → b ≤ 4 * j → dw k (o + 0x10 + 4 * j) = 0

/-- A pass descriptor without the faults that R321 names; the queue header is read later. -/
structure PassValid (s : State) (k : Cmd) : Prop where
  version : df k 0 31 28 = 1
  ranges : df k 0 25 24 ≤ 2 ∧ df k 0 23 22 ≤ 2 ∧ df k 0 21 18 ≤ 8 ∧ df k 0 17 16 ≤ 2 ∧ df k 0 15 13 ≤ 4 ∧ df k 0 9 8 ≤ 2
  area : 1 ≤ df k 4 15 0 ∧ df k 4 15 0 ≤ 16384 ∧ 1 ≤ df k 4 31 16 ∧ df k 4 31 16 ≤ 16384
  cores : df k 8 7 0 ≤ 160
  addrs : AddrField k 0x10 1 ∧ AddrField k 0x18 64 ∧ AddrField k 0x20 32 ∧ AddrField k 0xA0 4096 ∧ AddrField k 0xB0 4096 ∧
    AddrField k 0xB8 256
  stages : StageValid k 0x60 ∧ StageValid k 0x80 ∧ (if df k 0 10 10 = 1 then StageValid k 0x40 else dw k 0x58 = 0)
  arena : 64 * (passTiles k + 3) ≤ 4096 * dw k 0xA8
  spill : 1 ≤ dw k 0xAC
  depth : dw k 0xC0 % 256 = 0 ∧ (df k 0 17 16 = 2 → df k 0xC4 31 16 = 0) ∧
    (df k 0 17 16 = 0 → df k 0 15 13 = 4 ∧ df k 0 12 12 = 0 ∧ df k 0 11 11 = 0)
  colours : ∀ i, i < df k 0 21 18 → TargetValid k i
  reserved : df k 0 7 6 = 0 ∧ df k 8 31 8 = 0 ∧ dw k 0x0C = 0 ∧ dq k 0x28 = 0 ∧ (∀ i, i < 14 → dw k (0xC8 + 4 * i) = 0) ∧
    (∀ i, i < 3 → df k (0x48 + 0x20 * i) 8 0 = 0 ∧ df k (0x4C + 0x20 * i) 31 21 = 0) ∧
    ∀ i, i < 8 → df k (0x10C + 32 * i) 31 4 = 0
  scratch : (df k 0x8C 20 0 + 4095) / 4096 * 4096 + 2 * (passEdge k * passEdge k * 2 ^ df k 0 25 24 * sampleSize k) ≤ 1310720
  ctx : ctxState s k.glade (df k 0 5 0) = 1

/-- The mesh stage has nothing left: its task groups have ended, its mesh waves have ended or issued `meshend`, and the queue holds
neither a record nor a push (R326). -/
def MeshStageOver (s : State) (cmd home : Nat) : Prop :=
  (∀ x ∈ cmdBlocks s cmd, x.2.stage = 1 → x.2.st = .done) ∧
    (∀ x ∈ allWaves s, x.control = false → x.cmd = cmd → x.stage = 2 → x.meshend = true ∨ x.ended = 0xFFFFFFFF#32) ∧
    (readQueue s home).head % 2 ^ 32 = (readQueue s home).tail % 2 ^ 32 ∧ queued s home .tqpush = []

/-- The vertices of a triangle in the plane. -/
def vertex (ws : List Word) (i : Nat) : Int × Int := (triVal ws i 0, triVal ws i 1)

end Sys2Proof.Claims

open Sys2Proof Sys2Proof.Machine Sys2Proof.Claims

/-- R327, R328, R334, R335: the PIPE instructions of mesh and resolve waves. -/
def Obligations.RenderPassUnits : Prop :=
  (∀ (s : State) (wid eid : Nat) (w : Wave) (f : Frag), Issuing s wid eid w f →
    (∀ a fa, w.control = true ∨ w.stage ≠ 2 ∨ w.meshend = true → Traps (.primemit a fa) s wid eid f illegalOp 0 0) ∧
    (∀ a fa, w.control = false → w.stage = 2 → w.meshend = false →
      (∀ h, f.held = some h → h.stage = 1 → ∃ t, exec (.primemit a fa) s = .next t ∧ UnitEnds s t wid eid w (afterUnit 4 true f)) ∧
      (∀ h, f.held = some h → h.stage ≠ 1 → NotReady (.primemit a fa) s wid eid .rasterWait) ∧
      (f.held = none → VSrc.Ready w f { fd := a.toNat, cnt := 14, tie := fa } →
        (f.active = 0#32 → ∃ t, exec (.primemit a fa) s = .next t ∧ UnitEnds s t wid eid w (afterUnit 4 true f)) ∧
        (f.active ≠ 0#32 → ∃ t, exec (.primemit a fa) s = .next t ∧ t.mem = s.mem ∧
          t.op? s.nextId = some { mkOp wid eid w f .prim none with
            accs := (lanesOf f.active).map fun l => { lane := l, data := vecVal w (vecNo f a.toNat) 14 l }, scr := true,
            issued := s.now, preds := (s.coreSt w.core).preds } ∧
          t.frag? wid eid = some { f with held := some { since := s.now, op := s.nextId }, stall := .rasterWait } ∧
          ∀ n, n ≠ wid → t.wave? n = s.wave? n))) ∧
    (w.control = true ∨ w.stage ≠ 2 → Traps .meshend s wid eid f illegalOp 0 0) ∧
    (w.control = false → w.stage = 2 → ∃ t, exec .meshend s = .next t ∧
      UnitEnds s t wid eid { w with meshend := true } (afterUnit 4 true f)) ∧
    (∀ d a fa n, (w.control = true ∨ w.stage ≠ 3 → Traps (.rsget d) s wid eid f illegalOp 0 0) ∧
      (w.control = true ∨ w.stage ≠ 3 ∨ (∀ k p, s.cmd? w.cmd = some k → k.pass = some p → k.ncolor ≤ BitVec.toNat n) →
        Traps (.rtwrite a fa n) s wid eid f illegalOp 0 0 ∧ Traps (.rtread d n) s wid eid f illegalOp 0 0))) ∧
  (∀ (s : State) (wid eid : Nat) (w : Wave) (f : Frag) (k : Cmd) (p : PassSt) (d : BitVec 7), Resolving s wid eid w f k p →
    DstVReady w f (d.toNat, 8, false) → Tab.wf w.vregs = true → Tab.wf w.items = true →
    let n := vecNo f d.toNat
    (f.active = 0#32 → ∃ t, exec (.rsget d) s = .next t ∧ UnitEnds s t wid eid w (afterUnit 4 true f)) ∧
    (f.active ≠ 0#32 → oldestTile p w.blk = none → roundOver p = false → AwaitsItems (.rsget d) s wid eid w f) ∧
    (f.active ≠ 0#32 → oldestTile p w.blk = none → roundOver p = true → ∃ t w', exec (.rsget d) s = .next t ∧
      UnitEnds s t wid eid w' (afterUnit 4 true f) ∧ Handed w w' f.active n [] true) ∧
    (∀ tile x, f.active ≠ 0#32 → oldestTile p w.blk = some (tile, x) →
      (x.st = 1 → AwaitsItems (.rsget d) s wid eid w f) ∧
      (x.st ≠ 1 → (∀ y ∈ x.items, y.words.length = 8) →
        let m := (lanesOf f.active).length
        let p' := { p with tiles := Tab.upd p.tiles tile fun y => { y with items := y.items.drop m } }
        let s' := s.updTile w.cmd tile fun y => { y with items := y.items.drop m }
        ∃ t w', exec (.rsget d) s = .next t ∧ UnitEnds s' t wid eid w' (afterUnit 4 true f) ∧
          Handed w w' f.active n (x.items.take m) (roundOver p')))) ∧
  (∀ (s : State) (wid eid : Nat) (w : Wave) (f : Frag) (k : Cmd) (p : PassSt) (r : BitVec 7) (fa : Bool) (n : BitVec 3),
    Resolving s wid eid w f k p → n.toNat < k.ncolor →
    let c := k.colourBytes n.toNat / 4
    let at' := fun (x : Item) (i : Nat) => x.pixel k * k.samples + i
    (VSrc.Ready w f { fd := r.toNat, cnt := c, tie := fa } →
      (∀ l x, Tab.val? w.items l = some x → (Tab.val? p.tiles x.tile).isSome = true) →
      ∃ s' t, exec (.rtwrite r fa n) s = .next t ∧ UnitEnds s' t wid eid w (afterUnit 4 true f) ∧ s'.mem = s.mem ∧ s'.ops = s.ops ∧
        s'.waves = s.waves ∧
        (∀ l x i, l < 32 → f.active.getLsbD l = true → Tab.val? w.items l = some x → i ∈ x.samples →
          (∀ l' y, l < l' → l' < 32 → f.active.getLsbD l' = true → Tab.val? w.items l' = some y → y.tile = x.tile →
            at' x i ∉ y.samples.map (at' y)) →
          ∀ j, j < c → colourAt s' w.cmd x.tile (at' x i) n.toNat j = w.vreg (vecNo f r.toNat + j) l) ∧
        (∀ tile q m j, m < 8 → j < 4 →
          (m = n.toNat → c ≤ j ∨ ∀ l x, l < 32 → f.active.getLsbD l = true → Tab.val? w.items l = some x → x.tile = tile →
            q ∉ x.samples.map (at' x)) →
          colourAt s' w.cmd tile q m j = colourAt s w.cmd tile q m j)) ∧
    (DstVReady w f (r.toNat, c, false) → Tab.wf w.vregs = true → ∃ t w', exec (.rtread r n) s = .next t ∧
      UnitEnds s t wid eid w' (afterUnit 4 true f) ∧ { w' with vregs := w.vregs } = w ∧
      ∀ q l, l < 32 → w'.vreg q l =
        if f.active.getLsbD l = true ∧ vecNo f r.toNat ≤ q ∧ q < vecNo f r.toNat + c then match Tab.val? w.items l with
          | none => 0#32
          | some x => colourAt s w.cmd x.tile (at' x (x.samples.headD 0)) n.toNat (q - vecNo f r.toNat)
        else w.vreg q l))

/-- R332: a sample on an edge that two triangles share, one on each side of it, is covered by exactly one of them. -/
def Sys2Proof.Claims.SharedEdges : Prop :=
  ∀ (p q : List Word) (x y : Int),
    let a := triArea p
    let b := triArea q
    (vertex q 0 = vertex p 1 ∧ vertex q 1 = vertex p 0 ∧ 0 < a * b) ∨
      (vertex q 0 = vertex p 0 ∧ vertex q 1 = vertex p 1 ∧ a * b < 0) →
    edgeAt p 2 x y = 0 → edgeAt q 2 x y = 0 →
    (∀ i, i < 2 → 0 < edgeAt p i x y * a ∧ 0 < edgeAt q i x y * b) →
    covers p x y ≠ covers q x y

/-- R321, R326, R329, R330, R337: the descriptor of a pass, its mesh stage and its binner. -/
def Obligations.BinPhase : Prop :=
  (∀ (s : State) (cmd : Nat) (k : Cmd), s.cmd? cmd = some k → k.isPass = true → k.faultEnt = none →
    cmdBlocks s cmd = [] →
    let i := Instr.passDescriptorCheck cmd
    let stages := if k.b 0 10 10 = 1 then [1, 2, 3] else [2, 3]
    let becomes := fun k' : Cmd => ∃ t, exec i s = .next t ∧ Quietly s t ∧ t.cmd? cmd = some k'
    (k.st = .reading → ccQuiet s cmd k.glade = true →
      (k.readFail = true ∨ k.addr.toNat % 256 ≠ 0 ∨ 2 ^ 52 < k.addr.toNat + 512 ∨ ctxState s k.glade 0 ≠ 1 →
        EndsEarly i s cmd k 1 0 none) ∧
      (∀ x, k.readFail = false → k.addr.toNat % 256 = 0 → fetchCtx s k.glade 0 k.addr.toNat 512 = .ok x →
        becomes { k with desc := wordsOf 128 x, st := .queued })) ∧
    (k.st = .queued →
      (¬ PassValid s k → EndsEarly i s cmd k 1 0 none) ∧ (PassValid s k → becomes { k with st := .checked })) ∧
    (k.st = .checked →
      ((∃ n ∈ stages, ¬ Placeable s k n 1) → EndsEarly i s cmd k 5 0 none) ∧
      ((∀ n ∈ stages, Placeable s k n 1) → becomes { k with st := .waitDep }))) ∧
  (∀ (s : State) (cmd : Nat) (k : Cmd) (p : PassSt), InPass s cmd 0 k p → p.laid = false → p.flushing = false → p.closed = false → k.haltMark = false →
    PagesOk s cmd k aWrite [(k.d 0xA0, 64 * (k.tileCount + 2))] → Memory.wf s.mem = true →
    ∃ t q, exec (.meshDispatch cmd) s = .next t ∧ t.waves = s.waves ∧ t.ops = s.ops ∧ t.cmd? cmd = some { k with pass := some q } ∧
      { q with arena := p.arena, chunks := p.chunks } = { p with laid := true } ∧
      (∀ n, n < k.tileCount → Tab.val? q.chunks n = some (k.d 0xA0 + 128 + 64 * n)) ∧
      WritesOnly s t k [(k.d 0xA0, 64 * (k.tileCount + 2))]) ∧
  (∀ (s : State) (cmd home : Nat) (k : Cmd) (p : PassSt), InPass s cmd 0 k p → p.laid = true → p.flushing = false →
    PagesOk s cmd k aRead [(k.d 0x18, 64)] → readableHome s k.glade k.ctx (k.d 0x18) = some home →
    let q := readQueue s home
    let b : Block := { cmd := cmd, stage := 2, lin := q.head, since := s.now }
    (∀ ws spots, k.haltMark = false → p.closed = false → PagesOk s cmd k aWrite [(k.d 0x18, 64)] → q.ok = true → meshRecords s home ≠ 0 →
      PagesOk s cmd k aRead [(recordVa q (k.d 0x18) q.head, 4 * q.rw)] →
      getRecord s k.glade k.ctx (recordVa q (k.d 0x18) q.head) q.rw = some ws →
      placeAll (fun b => k.shape b.stage) [(0, { b with record := ws })] (openCores s k cmd) = some [(0, spots)] →
      firstServed s cmd k = true → barred s cmd k [] = false → Memory.wf s.mem = true →
      ∃ t b', exec (.meshDispatch cmd) s = .next t ∧ getMem t.mem (home + 4) 4 = (q.head + 1) % 2 ^ 32 ∧
        (∀ a, a < home + 4 ∨ (home + 8 ≤ a ∧ a < home + 12) ∨ home + 16 ≤ a → getByte t.mem a = getByte s.mem a) ∧
        t.blk? s.nextId = some b' ∧ b'.st = .placed ∧ b'.stage = 2 ∧ b'.lin = q.head ∧ b'.record = ws ∧
        b'.cores = spots.map (·.1) ∧ b'.waves = range (s.nextId + 1) (waveSpots (k.shape 2) spots).length) ∧
    (p.closed = true ∨ MeshStageOver s cmd home →
      (∀ n o, s.op? n = some o → o.kind = .prim → (s.blkD o.blk).cmd ≠ cmd) → Tab.wf s.ops = true →
      PassStep (.meshStageClose cmd) s cmd k { p with phase := 1, closed := true, tiles := roundTiles k p true } (Quietly s)) ∧
    (p.closed = true → exec (.meshDispatch cmd) s = .refused (.notEnabled "MESH_DISPATCH"))) ∧
  (∀ (s : State) (op : Nat) (o : Op) (k : Cmd) (p : PassSt), s.op? op = some o → o.kind = .prim → o.cls = none →
    InPass s (s.blkD o.blk).cmd 0 k p → p.laid = true → p.flushing = false → (∀ j, p.first = some j → j = op ∨ s.op? j = none) →
    (∀ n q, s.op? n = some q → n < op → q.wid = o.wid → q.kind ≠ .prim) → Tab.wf s.ops = true →
    let i := Instr.binnerAccept op
    let cmd := (s.blkD o.blk).cmd
    let ws := wordsOf 14 (o.accs.getD o.stage {}).data
    let goesOn := fun t : State =>
      (o.stage + 1 < o.accs.length → t.op? op = some { o with stage := o.stage + 1 } ∧ t.waves = s.waves) ∧
      (o.accs.length ≤ o.stage + 1 → t.op? op = none ∧ ∀ f h, s.frag? o.wid o.eid = some f → f.held = some h →
        t.frag? o.wid o.eid = some { f with held := some { h with stage := 1 } })
    ((∃ n, n < 12 ∧ finite (ws.getD n 0) = false) ∨ (∃ v, v < 3 ∧ triVal ws v 3 ≤ 0) ∨ triArea ws = 0 →
      PassStep i s cmd k { p with discarded := p.discarded + 1 } fun t => t.mem = s.mem ∧ goesOn t) ∧
    (∀ ts, k.binTiles ws = some ts →
      let need' := 64 + 64 * (ts.filter fun t => listLen p t != 0 && listLen p t % 15 == 0).length
      let free := k.w 0xA8 * 4096 - 64 * (k.tileCount + 2)
      let va := k.d 0xA0 + 64 * (k.tileCount + 2) + p.used
      let r : Tri := { ord := p.binned, words := ws, tiles := ts }
      (free < p.used + need' →
        PassStep i s cmd k { p with flushing := true, first := some op, phase := 1, tiles := roundTiles k p false } (Quietly s)) ∧
      (p.used + need' ≤ free → (∀ t ∈ ts, k.d 0xA0 ≤ Tab.valD p.chunks t 0 ∧ Tab.valD p.chunks t 0 + 64 ≤ va) →
        PagesOk s cmd k aWrite ((k.d 0xA0, 128) :: (va, need') :: ts.map fun t => (Tab.valD p.chunks t 0, 64)) →
        Memory.wf s.mem = true →
        ∃ t, exec i s = .next t ∧ goesOn t ∧ WritesOnly s t k [(k.d 0xA0, va + need' - k.d 0xA0)] ∧
          PassBecomes t cmd k { p with tris := p.tris ++ [r], drawn := Tab.put p.drawn r.ord r, used := p.used + need',
                                       binned := p.binned + 1, first := none })))

namespace Sys2Proof.Claims

open Sys2Proof Sys2Proof.Machine

/-- The edge function of a triangle opposite vertex `i`, exactly; its vertices are in units of 2^-149 (R332). -/
def edgeFn (ws : List Word) (i : Nat) (x y : Int) : Int :=
  let p := vertex ws ((i + 1) % 3)
  let q := vertex ws ((i + 2) % 3)
  (q.1 - p.1) * (y - p.2) - (q.2 - p.2) * (x - p.1)
def edgeSum (ws : List Word) (x y : Int) : Int := edgeFn ws 0 x y + edgeFn ws 1 x y + edgeFn ws 2 x y
def cornerVal (ws : List Word) (i c : Nat) : Int := fx (ws.getD (4 * i + c) 0)

/-- Sample positions in a pixel, in eighths (R332). -/
def sampleSpot (n i : Nat) : Int × Int :=
  if n = 1 then (4, 4) else if n = 2 then [(6, 6), (2, 2)].getD i (0, 0) else [(3, 1), (7, 3), (1, 5), (5, 7)].getD i (0, 0)

/-- A pixel of a tile in the render area, and a point of it in units of 2^-149, from eighths. -/
def pixX (k : Cmd) (tile pix : Nat) : Nat := tile % ((dw k 4 % 2 ^ 16 + passEdge k - 1) / passEdge k) * passEdge k + pix % passEdge k
def pixY (k : Cmd) (tile pix : Nat) : Nat := tile / ((dw k 4 % 2 ^ 16 + passEdge k - 1) / passEdge k) * passEdge k + pix / passEdge k
def InArea (k : Cmd) (tile pix : Nat) : Prop :=
  pix < passEdge k * passEdge k ∧ pixX k tile pix < dw k 4 % 2 ^ 16 ∧ pixY k tile pix < dw k 4 / 2 ^ 16
def pointOf (k : Cmd) (tile pix : Nat) (spot : Int × Int) : Int × Int :=
  ((8 * pixX k tile pix + spot.1) * 2 ^ 146, (8 * pixY k tile pix + spot.2) * 2 ^ 146)

/-- A sample is covered: every edge function has the area's sign, or is a zero on a top or left edge (R332). -/
def Covered (ws : List Word) (x y : Int) : Prop :=
  ∀ i, i < 3 → WeightCounts (triArea ws) (edgeFn ws i x y) (triArea ws) (vertex ws ((i + 1) % 3)).2 (vertex ws ((i + 2) % 3)).2 (vertex ws i).2

/-- The depth of a triangle at a point (R332). -/
def depthOf (ws : List Word) (x y : Int) : Word :=
  roundRat 0 (edgeFn ws 0 x y * cornerVal ws 0 2 + edgeFn ws 1 x y * cornerVal ws 1 2 + edgeFn ws 2 x y * cornerVal ws 2 2)
    (edgeSum ws x y) (-149)

/-- The weight of a vertex at a point (R334). -/
def weightOf (ws : List Word) (i : Nat) (x y : Int) : Word :=
  roundRat 0 (edgeFn ws i x y * cornerVal ws i 3)
    (edgeFn ws 0 x y * cornerVal ws 0 3 + edgeFn ws 1 x y * cornerVal ws 1 3 + edgeFn ws 2 x y * cornerVal ws 2 3) 0

/-- What a depth is stored as: itself, or under D16 the nearest integer to z × 65,535, ties to even (R332). -/
def StoredAs (dfmt : Nat) (z x : Word) : Prop :=
  (dfmt = 1 → x = z) ∧
  (dfmt = 2 → x.toNat ≤ 65535 ∧ (2 * (x.toNat * 2 ^ 149 - fx z * 65535)).natAbs ≤ 2 ^ 149 ∧
    ((2 * (x.toNat * 2 ^ 149 - fx z * 65535)).natAbs = 2 ^ 149 → x.toNat % 2 = 0))

/-- DFUNC holds between a new and a stored depth. -/
def DepthPasses (dfmt func : Nat) (new old : Word) : Prop :=
  let a : Int := if dfmt = 2 then new.toNat else fx new
  let b : Int := if dfmt = 2 then old.toNat else fx old
  func = 4 ∨ (func = 0 ∧ a < b) ∨ (func = 1 ∧ a ≤ b) ∨ (func = 2 ∧ b < a) ∨ (func = 3 ∧ b ≤ a)

/-- The result of `rsget` for the samples of a pixel that share the word of sample `low` (R333, R334). -/
def ItemOf (k : Cmd) (p : PassSt) (tile : Nat) (t : TileSt) (pix low : Nat) (x : Item) : Prop :=
  let n := 2 ^ df k 0 25 24
  let v := t.visOf (pix * n + low)
  let w := fun i => x.words.getD i 0
  let c := pointOf k tile pix (4, 4)
  x.tile = tile ∧ x.words.length = 8 ∧ w 0 = BitVec.ofNat 32 (pixX k tile pix + 2 ^ 16 * pixY k tile pix) ∧ w 7 = v ∧
    (∀ j, j < 4 → ((w 1).getLsbD j = true ↔ j < n ∧ t.visOf (pix * n + j) = v)) ∧ (w 1).getLsbD 5 = true ∧ w 1 >>> 6 = 0#32 ∧
    (v = 0xFFFFFFFF#32 → Tab.val? p.drawn v.toNat = none →
      (w 1).getLsbD 4 = false ∧ w 2 = 0xFFFFFFFF#32 ∧ w 3 = 0#32 ∧ w 4 = 0#32 ∧ w 5 = 0#32 ∧ w 6 = 0#32) ∧
    ∀ r, Tab.val? p.drawn v.toNat = some r → ((w 1).getLsbD 4 = true ↔ 0 < triArea r.words) ∧ w 2 = r.words.getD 12 0 ∧
      w 3 = r.words.getD 13 0 ∧ w 6 = depthOf r.words c.1 c.2 ∧
      (edgeFn r.words 0 c.1 c.2 * cornerVal r.words 0 3 + edgeFn r.words 1 c.1 c.2 * cornerVal r.words 1 3 +
        edgeFn r.words 2 c.1 c.2 * cornerVal r.words 2 3 ≠ 0 → w 4 = weightOf r.words 1 c.1 c.2 ∧ w 5 = weightOf r.words 2 c.1 c.2)

end Sys2Proof.Claims

open Sys2Proof Sys2Proof.Machine Sys2Proof.Claims

/-- R331, R332: the samples of a tile that its list of triangles covers, in order: coverage, the depth, the depth test and what a
sample that passes stores. -/
def Sys2Proof.Claims.RasterSamples : Prop :=
  ∀ (k : Cmd) (tile : Nat) (rs : List Tri) (r : Tri) (t : TileSt), df k 0 25 24 ≤ 2 → Tab.wf t.depth = true → Tab.wf t.vis = true →
    triArea r.words ≠ 0 →
    let n := 2 ^ df k 0 25 24
    let dfmt := df k 0 17 16
    let a := rasterTile k tile rs t
    let b := rasterTile k tile (rs ++ [r]) t
    rasterTile k tile [] t = t ∧
    (tile ∉ r.tiles → b = a) ∧
    (tile ∈ r.tiles → ∀ pix i, i < n →
      let at' := pix * n + i
      let c := pointOf k tile pix (sampleSpot n i)
      let z := depthOf r.words c.1 c.2
      let same := b.visOf at' = a.visOf at' ∧ b.depthOf at' = a.depthOf at'
      (¬ InArea k tile pix → same) ∧
      (InArea k tile pix → (¬ Covered r.words c.1 c.2 ∨ finite z = false ∨ fx z < 0 ∨ 2 ^ 149 < fx z → same) ∧
        (Covered r.words c.1 c.2 → finite z = true → 0 ≤ fx z → fx z ≤ 2 ^ 149 →
          (dfmt = 0 → df k 0 15 13 = 4 → b.visOf at' = BitVec.ofNat 32 r.ord ∧ b.depthOf at' = a.depthOf at') ∧
          (∀ x, dfmt = 1 ∨ dfmt = 2 → StoredAs dfmt z x → dfmt = 2 ∨ df k 0 15 13 = 4 ∨ finite (a.depthOf at') = true →
            (DepthPasses dfmt (df k 0 15 13) x (a.depthOf at') → b.visOf at' = BitVec.ofNat 32 r.ord ∧ b.depthOf at' = x) ∧
            (df k 0 15 13 ≤ 4 → ¬ DepthPasses dfmt (df k 0 15 13) x (a.depthOf at') → same)))))

/-- R333, R334: the items of a tile are the sets of samples of a pixel that share a word, in ascending pixel and lowest sample, and
what each gives a lane of `rsget`; in a later round, of the pixels that have changed. -/
def Sys2Proof.Claims.TileItems : Prop :=
  ∀ (k : Cmd) (p : PassSt) (tile : Nat) (t : TileSt) (seed : Nat), df k 0 25 24 ≤ 2 →
    let n := 2 ^ df k 0 25 24
    let items := tileItems k p tile t seed
    let changed := fun pix => ∀ sp, Tab.val? p.spilled tile = some sp → ∃ i, i < n ∧ Tab.valD sp.vis (pix * n + i) 0xFFFFFFFF#32 ≠ t.visOf (pix * n + i)
    ∃ keys : List (Nat × Nat), keys.Pairwise (fun a b => a.1 < b.1 ∨ (a.1 = b.1 ∧ a.2 < b.2)) ∧
      (∀ q, q ∈ keys ↔ InArea k tile q.1 ∧ changed q.1 ∧ q.2 < n ∧ ∀ j, j < q.2 → t.visOf (q.1 * n + j) ≠ t.visOf (q.1 * n + q.2)) ∧
      items.length = keys.length ∧
      ∀ (i : Nat) (q : Nat × Nat) (x : Item), keys[i]? = some q → items[i]? = some x → ItemOf k p tile t q.1 q.2 x

/-- R331 to R334: coverage, shared edges, depth and the depth test of samples, and the items of a tile. -/
def Obligations.RasterValues : Prop := RasterSamples ∧ TileItems ∧ SharedEdges

/-- R322, R323, R331, R333, R336 to R338, R340: the rounds of DRAW and the end of a pass. -/
def Obligations.DrawPhase : Prop :=
  (∀ (s : State) (cmd blk tile : Nat) (k : Cmd) (p : PassSt) (b : Block) (x : TileSt), InPass s cmd 1 k p → s.blk? blk = some b →
    p.tiles.find? (fun e => e.2.st == 0) = some (tile, x) → b.cmd = cmd → b.stage = 3 → b.st = .running →
    (groupTiles p blk).length < 2 → (∀ e ∈ groupTiles p blk, e.2.st ≠ 1) → PagesOk s cmd k aRead (fillSpans k p tile) →
    let y := { fillTile s (b.cores.headD 0) k p tile x with
      st := 1, grp := blk, core := b.cores.headD 0, slot := if (groupTiles p blk).any fun e => e.2.slot == 0 then 1 else 0 }
    PassStep (.tileRasterise cmd blk) s cmd k { p with tiles := Tab.upd p.tiles tile fun _ => y } (Quietly s) ∧
    (Tab.val? p.spilled tile = none → k.b 0 17 16 ≠ 0 → k.b 0 11 11 = 0 → ∀ e ∈ tileSamples k tile,
      y.depthOf e.1 = BitVec.ofNat 32 (k.w 0xC4) ∧ y.visOf e.1 = 0xFFFFFFFF#32)) ∧
  (∀ (s : State) (cmd tile : Nat) (k : Cmd) (p : PassSt) (x : TileSt), InPass s cmd 1 k p → Tab.val? p.tiles tile = some x →
    (x.st = 1 → groupStands s x = true ∨ groupGone s x = true → PagesOk s cmd k aRead ((listParts p tile).map fun e => (e.1, e.2.len)) →
      let y := if (listParts p tile).all fun e => e.2.intact s k e.1 then rasterTile k tile p.tris x
        else TileSt.unknown k s.freeCount x
      PassStep (.tileRasterEnd cmd tile) s cmd k
        { p with tiles := Tab.upd p.tiles tile fun _ => { y with st := 2, items := tileItems k p tile y (s.freeCount + 2 ^ 16) } }
        (Quietly s)) ∧
    (x.st = 2 → (x.items = [] ∧ groupStands s x = true) ∨ groupGone s x = true → tileHeld s cmd tile = false →
      let sends := fun (q : PassSt) (rs : List (Nat × Nat)) => ∃ t o, exec (.tileRelease cmd tile) s = .next t ∧ t.waves = s.waves ∧
        PassBecomes t cmd k { q with tiles := Tab.upd p.tiles tile fun y => { y with st := 3 } } ∧ WritesOnly s t k rs ∧
        t.op? s.nextId = some o ∧ o.kind = .tile ∧ o.slot = cmd ∧ o.stage = tile ∧
        o.tag = if landSpans k q tile = [] then none else some (s.coreSt ((s.blkD x.grp).cores.headD x.core)).view
      (p.flushing = false → sends p []) ∧
      (p.flushing = true →
        let n := Config.spillSize (x.depth ++ x.vis)
        let room := k.w 0xAC * 4096
        let q := fun l => { p with log := l, spilled := Tab.put p.spilled tile { depth := x.depth, vis := x.vis } }
        let l := compact p.log ++ [(tile, n)]
        (logBytes p.log + n ≤ room → sends (q (p.log ++ [(tile, n)])) []) ∧
        (room < logBytes p.log + n → logBytes l ≤ room → PagesOk s cmd k aWrite [(k.d 0xB0, logBytes l)] →
          Memory.wf s.mem = true → sends (q l) [(k.d 0xB0, logBytes l)]) ∧
        (room < logBytes p.log + n → room < logBytes l →
          EndsNow (.tileRelease cmd tile) s cmd 0x10 0)))) ∧
  (∀ (s : State) (cmd tile n : Nat) (k : Cmd) (p : PassSt) (x : TileSt) (o : Op), s.cmd? cmd = some k → k.pass = some p →
    k.faultEnt = none → Tab.val? p.tiles tile = some x → x.st = 3 →
    s.ops.find? (fun e => e.2.kind == .tile && e.2.slot == cmd && e.2.stage == tile) = some (n, o) →
    let spans := landSpans k p tile
    let clean := ∀ l ∈ spanLines spans, ∀ e ∈ (s.coreSt o.core).l1, e.isAt o.glade o.ctx l = true → e.dirty = 0
    (PagesOk s cmd k aWrite spans → Memory.wf s.mem = true → Tab.wf s.ops = true →
      ∃ t, exec (.tileWritesLanded cmd tile) s = .next t ∧ t.waves = s.waves ∧ t.op? n = none ∧
        PassBecomes t cmd k { p with wrote := p.wrote || !spans.isEmpty, tiles := Tab.upd p.tiles tile fun _ =>
          { x with st := 4, depth := [], vis := [], colour := [] } } ∧
        (clean → WritesOnly s t k spans) ∧
        (∀ δ : Nat, p.flushing = false → k.ncolor = 1 → k.b 0 12 12 = 0 → k.width * k.samples * k.colourBytes 0 ≤ k.w 0x108 →
          (∀ r ∈ spans, ∀ v, r.1 ≤ v → v < r.1 + r.2 → writableHome s k.glade k.ctx v = some (v + δ)) →
          ∀ e ∈ tileSamples k tile,
            let c := k.colourBytes 0
            getMem t.mem (k.d 0x100 + e.2.2.1 * k.w 0x108 + (e.2.1 * k.samples + e.2.2.2) * c + δ) c = x.getColour e.1 0 (c / 4))) ∧
    (∀ r rest, spans = r :: rest → unitAccess s cmd k aWrite r.1 r.2 = .perm → Tab.wf s.ops = true →
      (k.st ≠ .ending → EndsNow (.tileWritesLanded cmd tile) s cmd 7 0x08) ∧
      (k.st = .ending → ∃ t, exec (.tileWritesLanded cmd tile) s = .next t ∧ t.cmd? cmd = some k ∧ t.mem = s.mem ∧
        t.waves = s.waves ∧ t.op? n = none))) ∧
  (∀ (s : State) (cmd : Nat) (k : Cmd) (p : PassSt), InPass s cmd 1 k p → (∀ e ∈ p.tiles, e.2.st = 4) →
    (∀ e ∈ cmdBlocks s cmd, e.2.stage = 3 → e.2.st = .done) →
    PassStep (.flushRoundEnd cmd) s cmd k
      (if p.flushing then { p with phase := 0, flushing := false, flushes := p.flushes + 1, round := p.round + 1, used := 0, tris := [],
                                   tiles := [], laid := false, chunks := [], arena := p.arena.filter fun e => 2 ^ 52 ≤ e.1 }
        else { p with phase := 2, tiles := [] }) (Quietly s)) ∧
  (∀ (s : State) (cmd : Nat) (k : Cmd) (p : PassSt), s.cmd? cmd = some k → k.isPass = true → p = k.pass.getD {} →
    k.st = .ending ∨ (k.st = .active ∧ k.pass = some p ∧ p.phase = 2) → (∀ e ∈ cmdBlocks s cmd, e.2.st = .done) →
    (∀ n o, s.op? n = some o → o.kind = .tile → o.slot ≠ cmd) → Tab.wf s.ops = true → Tab.wf s.cmds = true →
    coveredLanded s k.glade k.wit = true →
    let wit : DWord := if k.pass = some p ∧ p.wrote = true ∨ k.wit ≠ 0 then mkWit 2 k.glade 0 (p.landed.getD (s.gladeSt k.glade).epoch) else 0
    let st := if k.st = .ending then k.status else if k.firstTerm = none then 0 else 7
    let det := if k.st = .ending then k.detail else k.firstTerm.getD 0
    ∃ t, exec (.passStatusWrite cmd) s = .next t ∧ t.cmd? cmd = none ∧ t.ops = s.ops ∧
      (∀ w, s.wave? k.glade = some w → w.ended ≠ 0xFFFFFFFF#32 → t.wave? k.glade =
        some ((w.setSs k.dst [wit.extractLsb' 0 32, wit.extractLsb' 32 32]).markFullS (range k.dst 2))) ∧
      ∀ h, k.desc ≠ [] → k.d 0x20 % 32 = 0 → k.d 0x20 < 2 ^ 52 →
        (∀ n, n < 32 → writableHome s k.glade k.ctx (k.d 0x20 + n) = some (h + n)) → Memory.wf s.mem = true → st < 256 → det < 256 →
        getMem t.mem h 4 = st + det * 2 ^ 8 ∧ getMem t.mem (h + 4) 4 = k.seq % 2 ^ 32 ∧ getMem t.mem (h + 8) 4 = p.flushes % 2 ^ 32 ∧
        getMem t.mem (h + 12) 4 = p.binned % 2 ^ 32 ∧ getMem t.mem (h + 16) 4 = p.discarded % 2 ^ 32 ∧
        getMem t.mem (h + 24) 8 = wit.toNat ∧ ∀ a, a < h ∨ h + 32 ≤ a → getByte t.mem a = getByte s.mem a)

namespace Sys2Proof.Claims

open Sys2Proof Sys2Proof.Machine

/-! ## Debug functions and monitors (R397 to R427) -/

/-- A debug handler wave issues, and does not wait (R398). -/
def Debugging (s : State) (wid eid : Nat) (w : Wave) (f : Frag) : Prop :=
  Issuing s wid eid w f ∧ isDebugWave s w = true ∧ f.held = none

/-- A DBG function completes with an outcome in DSTAT; its wave is otherwise `w'` and the rest of the device that of `s'` (R410). -/
def Answers (i : Instr) (s s' : State) (wid eid : Nat) (w' : Wave) (f : Frag) (code : Nat) : Prop :=
  ∃ t, exec i s = .next t ∧ UnitEnds s' t wid eid { w' with dstat := BitVec.ofNat 32 code } (afterUnit 4 true f)

/-- The predicate that six scalar registers hold (R400, R411). -/
def predAt (w : Wave) (a : Nat) : Pred := { ctl := w.sPair a, a := w.sPair (a + 2), b := w.sPair (a + 4) }

/-- A predicate `wpset` accepts as number n: no reserved SRC, CMP or WSEL, no CHAIN on 15, and WAVE to 191 (R411). -/
def PredLegal (n : Nat) (x : Nat) : Prop :=
  x / 2 ^ 59 % 8 ≤ 5 ∧ x / 2 ^ 56 % 8 ≤ 4 ∧ x / 2 ^ 46 % 4 ≤ 1 ∧ (n = 15 → x / 2 ^ 50 % 2 = 0) ∧ x / 2 ^ 38 % 256 ≤ 191

/-- A fragment halts: one already HALTED keeps its origin (R407, R409). -/
def halted (h : HaltSt) (g : Frag) : Frag := if g.halt = none then { g with halt := some h, haltDue := [], sleepEnd := none, stepping := 0 } else g

/-- Every fragment of a wave as `k` changes it, and nothing else of the wave. -/
def EachFrag (u u' : Wave) (k : Frag → Frag) : Prop :=
  (∀ e g, u.frag? e = some g → u'.frag? e = some (k g)) ∧ { u' with ents := u.ents, haltReq := u.haltReq } = u

/-- The device with a predicate on a core. -/
def withPred (s : State) (core n : Nat) (p : Pred) : State := s.updCore core fun c => { c with preds := Tab.put c.preds n p }

/-- The words of a ring record, by offset and size (R420). -/
def RecordOf (s : State) (v : Wave) (typ lane reason issued : Nat) (pc : DWord) (time : DWord) (x : Nat) (rd : Nat → Nat → Nat) : Prop :=
  rd 0 4 = v.core * 2 ^ 24 + v.quad * 2 ^ 22 + issued * 2 ^ 21 + reason * 2 ^ 16 + v.ctx * 2 ^ 10 + lane * 2 ^ 5 + typ ∧
    rd 4 4 = (s.cmdD v.cmd).seq % 2 ^ 32 ∧ rd 8 8 = pc.toNat ∧ rd 16 8 = (s.cmdD v.cmd).ccpc.toNat ∧ rd 24 8 = time.toNat ∧
    rd 32 8 = x % 2 ^ 64 ∧ rd 40 4 = ((s.blkD v.blk).lin * 2 ^ 8 + v.widx) % 2 ^ 32 ∧ rd 44 20 = 0

/-- The places of a wave fit their fields. -/
def PlaceFits (v : Wave) : Prop := v.core < 160 ∧ v.quad < 4 ∧ v.ctx < 64

/-- The fragment issued in this clk of its core (R418). -/
def IssuedInClk (s : State) (v : Wave) (f : Frag) : Prop := f.stall = .issued ∧ f.served = coreClk s v.core

/-- A record goes to a glade's sample ring: into the slot that TAIL names, which then advances, or, the ring full, it is lost (R420). -/
def RecordGoes (s t : State) (g : Nat) (record : (Nat → Nat → Nat) → Prop) : Prop :=
  let tail := reg s .smp (32 * g + 12)
  let size := 2 ^ regFld s .smp (32 * g) 8 4
  let base := reg64 s .smp (32 * g) / 2 ^ 12 % 2 ^ 40 * 2 ^ 12
  ((tail - reg s .smp (32 * g + 8)).toNat = size →
    t.mem = s.mem ∧ reg t .smp (32 * g + 12) = tail ∧ reg t .smp (32 * g + 16) = reg s .smp (32 * g + 16) + 1) ∧
  (∀ h, (tail - reg s .smp (32 * g + 8)).toNat ≠ size → writableHome s g (ringCtx s g) (base + 64 * (tail.toNat % size)) = some h →
    reg t .smp (32 * g + 12) = tail + 1 ∧ record (fun off n => getMem t.mem (h + off) n) ∧
    ∀ x, x < h ∨ h + 64 ≤ x → getByte t.mem x = getByte s.mem x)

/-- The fields of a fragment in the order of R416. -/
def fieldWords (g : Frag) : List Word :=
  let rj : DWord := g.rejoin.getD 0xFFFFFFFFFFFFFFFF#64
  let tr : DWord := (g.halt.map (·.trig)).getD 0
  [g.pc.extractLsb' 0 32, g.pc.extractLsb' 32 32, g.memb, g.emask, g.fmt, BitVec.ofNat 32 (g.x0.toNat + 256 * g.x1.toNat),
   rj.extractLsb' 0 32, rj.extractLsb' 32 32, tr.extractLsb' 0 32, tr.extractLsb' 32 32,
   BitVec.ofNat 32 ((if g.halt = none then 0 else 1) + (if g.parked = none then 0 else 2) + (if g.trap.inHandler then 4 else 0))]

end Sys2Proof.Claims

open Sys2Proof Sys2Proof.Machine Sys2Proof.Claims

/-- R398, R411, R415: PRIV, and the predicates and the list of halted waves. -/
def Obligations.DebugPredicates : Prop :=
  (∀ (s : State) (wid eid : Nat) (w : Wave) (f : Frag) (n : BitVec 4) (d a : BitVec 8) (i : Instr), Issuing s wid eid w f →
    isDebugWave s w = false → i ∈ [.wpset n a, .wpget d n, .dhalt a, .dresume a, .dstep a, .dlist d a, .drdv d a, .dwrv d a, .drds d a,
      .dwrs d a] → (w.control = false → Traps i s wid eid f priv 0 0) ∧ (w.control = true → Traps i s wid eid f illegalOp 0 0)) ∧
  (∀ (s : State) (wid eid : Nat) (w : Wave) (f : Frag) (n : BitVec 4) (a : BitVec 8), Debugging s wid eid w f →
    SSrc.Ready w { fd := a.toNat, cnt := 6, pair := true } →
    let p := predAt w a.toNat
    (¬ PredLegal n.toNat p.ctl.toNat → Traps (.wpset n a) s wid eid f illegalOp 0 0) ∧
    (PredLegal n.toNat p.ctl.toNat → p.ctl.getLsbD 62 = false → ∃ t, exec (.wpset n a) s = .next t ∧
      UnitEnds (withPred { s with nextId := s.nextId + 1 } w.core n.toNat { p with gen := s.nextId }) t wid eid w (afterUnit 4 true f)) ∧
    (PredLegal n.toNat p.ctl.toNat → p.ctl.getLsbD 62 = true → ∃ t o, exec (.wpset n a) s = .next t ∧ t.mem = s.mem ∧
      t.cores = s.cores ∧ t.op? (s.nextId + 1) = some o ∧ o.kind = .spread ∧ o.wid = wid ∧ o.eid = eid ∧ o.glade = w.glade ∧
      o.args = [n.toNat, p.ctl.toNat, p.a.toNat, p.b.toNat, s.nextId] ∧
      t.frag? wid eid = some { f with held := some { since := s.now, op := s.nextId + 1 }, stall := .other })) ∧
  (∀ (s : State) (wid eid : Nat) (w : Wave) (f : Frag) (n : BitVec 4) (a : BitVec 8) (h : Held), Issuing s wid eid w f →
    isDebugWave s w = true → f.held = some h → h.stage = 1 →
    ∃ t, exec (.wpset n a) s = .next t ∧ UnitEnds s t wid eid w (afterUnit 4 true f)) ∧
  (∀ (s : State) (wid eid k n : Nat) (o : Op) (p : Pred), s.ops.find? (fun e => e.2.kind == .spread && e.2.wid == wid && e.2.eid == eid) = some (k, o) →
    s.op? k = some o → o.cls = none → o.args = [n, p.ctl.toNat, p.a.toNat, p.b.toNat, p.gen] → p.hits = 0 → Tab.wf s.ops = true →
    ∃ t, exec (.spreadWriteDone wid eid) s = .next t ∧ t.mem = s.mem ∧ t.op? k = none ∧
      (∀ c ∈ (s.gladeSt o.glade).cores, Tab.val? (t.coreSt c).preds n = some p) ∧
      (∀ c, c ∉ (s.gladeSt o.glade).cores → t.coreSt c = s.coreSt c) ∧
      ∀ f h, s.frag? wid eid = some f → f.held = some h → t.frag? wid eid = some { f with held := some { h with stage := 1 } }) ∧
  (∀ (s : State) (wid eid : Nat) (w : Wave) (f : Frag) (n : BitVec 4) (d : BitVec 8), Debugging s wid eid w f →
    DstSReady w (d.toNat, 6, true) →
    let p := Tab.valD (s.coreSt w.core).preds n.toNat {}
    ∃ t, exec (.wpget d n) s = .next t ∧
      UnitEnds s t wid eid (((w.setSPair d.toNat p.ctl).setSPair (d.toNat + 2) p.a).setSPair (d.toNat + 4) p.b) (afterUnit 4 true f)) ∧
  (∀ (s : State) (wid eid : Nat) (w : Wave) (f : Frag) (d a : BitVec 8), Debugging s wid eid w f → SrcS w a →
    DstSReady w (d.toNat, 4, true) →
    let n := (opS s wid w f a).toNat
    ((haltedWaves s w.glade).length ≤ n → Answers (.dlist d a) s s wid eid (w.setSs d.toNat [0xFFFFFFFF#32, 0, 0, 0]) f 0) ∧
    (∀ v g h, (haltedWaves s w.glade)[n]? = some v → v.frags = [(0, g)] → v.intr = none → g.halt = some h → g.memb ≠ 0 →
      Answers (.dlist d a) s s wid eid (w.setSs d.toNat [BitVec.ofNat 32 ((s.blkD v.blk).lin * 2 ^ 8 + v.widx),
        BitVec.ofNat 32 (s.cmdD v.cmd).seq, g.memb, BitVec.ofNat 32 (h.origin * 2 ^ 28 + h.pred * 2 ^ 24)]) f 0))

/-- R196, R407, R409, R410, R412: `dhalt` and `dresume`, and halts through the taproot; a halt waits for a `vdec` under way. -/
def Sys2Proof.Claims.DebugHalts : Prop :=
  (∀ (s : State) (wid eid : Nat) (w : Wave) (f : Frag) (a : BitVec 8), Debugging s wid eid w f → SrcS w a → Tab.wf s.waves = true →
    let x := (opS s wid w f a).toNat
    (dbgWave s w = none → Answers (.dhalt a) s s wid eid w f 1 ∧ Answers (.dresume a) s s wid eid w f 1) ∧
    ∀ k v, dbgWave s w = some (k, v) →
      let scope := fun (n : Nat) (u : Wave) => u.control = false ∧ if x = 1 then u.cmd = v.cmd else n = k
      (1 < x → Answers (.dhalt a) s s wid eid w f 3 ∧ Answers (.dresume a) s s wid eid w f 3) ∧
      (x ≤ 1 → ¬ scope wid w →
        ((∀ n u, s.wave? n = some u → scope n u → u.core = w.core ∧ vdecOut s n = false ∧ ∀ g ∈ u.allFrags, g.haltDue = []) →
          ∃ t w', exec (.dhalt a) s = .next t ∧ t.mem = s.mem ∧
          t.wave? wid = some w' ∧ w'.rest = { w with dstat := 0 }.rest ∧
          (∀ n u, s.wave? n = some u → scope n u → ∃ u', t.wave? n = some u' ∧ EachFrag u u' (halted { origin := 0, since := s.now })) ∧
          (∀ n u, s.wave? n = some u → n ≠ wid → ¬ scope n u → t.wave? n = some u) ∧
          (dbgNotify s w.glade = 0 → t.ops = s.ops) ∧
          (dbgNotify s w.glade ≠ 0 → ∃ o, t.op? s.nextId = some o ∧ o.kind = .notify ∧ o.args = [dbgNotify s w.glade]) ∧
          (x = 1 → ∀ c, s.cmd? v.cmd = some c → t.cmd? v.cmd = some { c with haltMark := true })) ∧
        ((∃ n u, s.wave? n = some u ∧ scope n u ∧ u.core ≠ w.core) → ∃ t g, exec (.dhalt a) s = .next t ∧ t.mem = s.mem ∧
          t.frag? wid eid = some g ∧ g.held = some { since := s.now, a := x, b := if x = 1 then v.cmd else k } ∧
          ∀ n u, s.wave? n = some u → scope n u → u.core ≠ w.core →
            t.wave? n = some { u with haltReq := some { origin := 0, since := s.now } })) ∧
      (x = 0 → v.anyHalted = false → Answers (.dresume a) s s wid eid w f 2) ∧
      (x = 1 ∨ (x = 0 ∧ v.anyHalted = true) → ¬ scope wid w → ∃ t w', exec (.dresume a) s = .next t ∧ t.mem = s.mem ∧ t.ops = s.ops ∧
        t.wave? wid = some w' ∧ w'.rest = { w with dstat := 0 }.rest ∧
        (∀ n u e g, s.wave? n = some u → scope n u → u.frag? e = some g → t.frag? n e = some (g.resume s.now)) ∧
        (∀ g : Frag, (g.resume s.now).halt = none) ∧
        (∀ n u, s.wave? n = some u → n ≠ wid → ¬ scope n u → t.wave? n = some u) ∧
        (x = 1 → ∀ c, s.cmd? v.cmd = some c → t.cmd? v.cmd = some { c with haltMark := false }))) ∧
  (∀ (s : State) (wid eid : Nat) (w : Wave) (f : Frag) (a : BitVec 8) (h : Held), Issuing s wid eid w f → isDebugWave s w = true →
    SrcS w a → f.held = some h → Tab.wf s.waves = true →
    let pending := ∃ n u, s.wave? n = some u ∧ (u.haltReq ≠ none ∨ ∃ g ∈ u.allFrags, g.haltDue ≠ []) ∧ if h.a = 1 then u.cmd = h.b else n = h.b
    (pending → NotReady (.dhalt a) s wid eid .other) ∧ (¬ pending → Answers (.dhalt a) s s wid eid w f 0)) ∧
  (∀ (s : State) (wid : Nat) (u : Wave) (h : HaltSt), s.wave? wid = some u → u.haltReq = some h →
    ∃ t u', exec (.haltBroadcast wid) s = .next t ∧ t.mem = s.mem ∧ t.ops = s.ops ∧ t.wave? wid = some u' ∧ u'.haltReq = none ∧
      (vdecOut s wid = false → EachFrag u u' (halted { h with since := s.now })) ∧
      (vdecOut s wid = true → EachFrag u u' fun g => if g.halt = none then
        { g with haltDue := g.haltDue ++ [(g.memb, { h with since := s.now })], sleepEnd := none, stepping := 0 } else g) ∧
      ∀ n, n ≠ wid → t.wave? n = s.wave? n)

/-- R413, R414: `dstep` and the STEP delivery. -/
def Sys2Proof.Claims.DebugSteps : Prop :=
  (∀ (s : State) (wid eid : Nat) (w : Wave) (f : Frag) (a : BitVec 8), Debugging s wid eid w f → SrcS w a →
    let x := (opS s wid w f a).toNat
    let lane := x % 32
    (dbgWave s w = none → Answers (.dstep a) s s wid eid w f 1) ∧
    ∀ k v, dbgWave s w = some (k, v) →
      (x / 32 % 8 ≠ 0 ∨ 2 ^ 9 ≤ x → Answers (.dstep a) s s wid eid w f 3) ∧
      (x / 32 % 8 = 0 → x < 2 ^ 9 →
        (v.ended.getLsbD lane = true → Answers (.dstep a) s s wid eid w f 7) ∧
        ∀ e g, v.ended.getLsbD lane = false → v.frags.find? (fun y => y.2.memb.getLsbD lane) = some (e, g) → v.frag? e = some g →
          (g.parked ≠ none → Answers (.dstep a) s s wid eid w f 5) ∧
          (g.parked = none → g.halt = none → Answers (.dstep a) s s wid eid w f 2) ∧
          (g.parked = none → g.halt ≠ none → g.memb ≠ 1#32 <<< lane → freeEntries s v = 0 → Answers (.dstep a) s s wid eid w f 6) ∧
          (g.parked = none → g.halt ≠ none → g.memb = 1#32 <<< lane → k ≠ wid → ∃ t h, exec (.dstep a) s = .next t ∧
            t.mem = s.mem ∧ t.ops = s.ops ∧ t.frag? k e = some { g.resume s.now with stepping := if 2 ^ 8 ≤ x then 2 else 1 } ∧
            h.a = k ∧ h.b = e ∧ t.frag? wid eid = some { f with held := some h, stall := .other } ∧
            ∀ n, n ≠ k → n ≠ wid → t.wave? n = s.wave? n))) ∧
  (∀ (s : State) (wid eid : Nat) (w : Wave) (f : Frag) (a : BitVec 8) (h : Held), Issuing s wid eid w f → isDebugWave s w = true →
    SrcS w a → f.held = some h →
    (∀ g, s.frag? h.a h.b = some g → g.stepping ≠ 0 → NotReady (.dstep a) s wid eid .other) ∧
    ((∀ g, s.frag? h.a h.b = some g → g.stepping = 0) → Answers (.dstep a) s s wid eid w f 0)) ∧
  (∀ (s : State) (wid e : Nat) (w : Wave), s.wave? wid = some w → w.stepDue = some e →
    (∃ g h n o, s.frag? wid e = some g ∧ g.halt = some h ∧ (n, o) ∈ s.ops ∧ o.wid = wid ∧ o.eid = e ∧ o.pc = h.trig ∧ o.done = false) ∨
      vdecOut s wid = true → exec (.stepDelivery wid) s = .refused (.notEnabled "STEP_DELIVERY")) ∧
  (∀ (s : State) (wid e : Nat) (w : Wave), s.wave? wid = some w → w.stepDue = some e → w.intr = none →
    (∀ g, s.frag? wid e = some g → (g.parked ≠ none ∨ g.halt ≠ none) ∧
      ∀ h, g.halt = some h → ∀ x ∈ s.ops, x.2.wid = wid → x.2.eid = e → x.2.pc = h.trig → x.2.done = true) →
    vdecOut s wid = false → (∀ x ∈ w.frags, x.2.reading = false) →
    ctxHandler s w.glade w.ctx ≠ 0 → (s.blkD w.blk).st = .running → ctxRuns s w.glade w.ctx = true →
    ∃ t w' it, exec (.stepDelivery wid) s = .next t ∧ t.mem = s.mem ∧ t.wave? wid = some w' ∧ w'.intr = some it ∧
      it.cause = 0x19 ∧ it.restore = false ∧ it.ents = w.ents ∧ w'.sregs = w.sregs ∧ w'.vregs = w.vregs ∧
      w'.frags.map (·.2) = [{ memb := ~~~w.ended, emask := ~~~w.ended, pc := BitVec.ofNat 64 (ctxHandler s w.glade w.ctx) }]) ∧
  (∀ (s : State) (wid : Nat) (w : Wave) (it : Intr), s.wave? wid = some w → w.intr = some it → it.cause = 0x19 → it.hdone = 3 →
    ∃ t w', exec (.hdoneStep wid) s = .next t ∧ t.mem = s.mem ∧ t.wave? wid = some w' ∧ w'.intr = none ∧ w'.ents = it.ents ∧
      w'.sregs = w.sregs ∧ w'.vregs = w.vregs ∧ ∀ n, n ≠ wid → t.wave? n = s.wave? n)

/-- R407, R409, R410, R412 to R414: halts, resumption and single steps. -/
def Obligations.DebugHaltsAndSteps : Prop := DebugHalts ∧ DebugSteps

/-- R410, R416: reads and writes of a target wave. -/
def Obligations.DebugReadsAndWrites : Prop :=
  ∀ (s : State) (wid eid : Nat) (w : Wave) (f : Frag) (d a : BitVec 8), Debugging s wid eid w f → SrcS w a →
    let x := (opS s wid w f a).toNat
    let n := x % 2 ^ 8
    let lane := x / 2 ^ 8 % 32
    let space := x / 2 ^ 14 % 4
    let gives := fun (i : Instr) (v : Word) (c : Nat) => Answers i s s wid eid (w.setS d.toNat v) f c
    (DstS w d →
      (dbgWave s w = none → gives (.drdv d a) 0 1 ∧ gives (.drds d a) 0 1) ∧
      ∀ k v, dbgWave s w = some (k, v) →
        (v.anyHalted = false → gives (.drdv d a) 0 2 ∧ gives (.drds d a) 0 2) ∧
        (v.anyHalted = true →
          (2 ^ 13 ≤ x ∨ v.nvreg ≤ n → gives (.drdv d a) 0 3) ∧
          (x < 2 ^ 13 → n < v.nvreg → gives (.drdv d a) (v.vreg n lane) (if n ∈ v.vEmpty then 4 else 0)) ∧
          (2 ^ 16 ≤ x ∨ x / 2 ^ 13 % 2 = 1 ∨ 2 ≤ space ∨ (space = 0 ∧ (191 < n ∨ lane ≠ 0)) ∨ (space = 1 ∧ 10 < n) →
            gives (.drds d a) 0 3) ∧
          (x ≤ 191 → gives (.drds d a) (v.sreg n) (if n ∈ v.sEmpty then 4 else 0)) ∧
          (x < 2 ^ 16 → x / 2 ^ 13 % 2 = 0 → space = 1 → n ≤ 10 →
            (v.ended.getLsbD lane = true → gives (.drds d a) 0 7) ∧
            (∀ e g, v.ended.getLsbD lane = false → laneFrag v lane = some (e, g) → gives (.drds d a) ((fieldWords g).getD n 0) 0)))) ∧
    (SrcS w d →
      let y := opS s wid w f d
      (dbgWave s w = none → Answers (.dwrv d a) s s wid eid w f 1 ∧ Answers (.dwrs d a) s s wid eid w f 1) ∧
      ∀ k v, dbgWave s w = some (k, v) → k ≠ wid →
        let writes := fun (i : Instr) (v' : Wave) => Answers i s (s.setWave k v') wid eid w f 0
        (space ≠ 1 → v.stopped = false → Answers (.dwrv d a) s (s.setWave k v) wid eid w f 2 ∧
          Answers (.dwrs d a) s (s.setWave k v) wid eid w f 2) ∧
        (v.stopped = true →
          (2 ^ 13 ≤ x ∨ v.nvreg ≤ n → Answers (.dwrv d a) s (s.setWave k v) wid eid w f 3) ∧
          (x < 2 ^ 13 → n < v.nvreg → n ∈ v.vEmpty → Answers (.dwrv d a) s (s.setWave k v) wid eid w f 4) ∧
          (x < 2 ^ 13 → n < v.nvreg → n ∉ v.vEmpty → writes (.dwrv d a) (v.setV n lane y)) ∧
          (x ≤ 191 → n ∈ v.sEmpty → Answers (.dwrs d a) s (s.setWave k v) wid eid w f 4) ∧
          (x ≤ 191 → n ∉ v.sEmpty → writes (.dwrs d a) (v.setS n y))) ∧
        (∀ e g, x < 2 ^ 16 → x / 2 ^ 13 % 2 = 0 → space = 1 → v.ended.getLsbD lane = false → laneFrag v lane = some (e, g) →
          v.frag? e = some g →
          (n ≤ 10 → g.halt = none → Answers (.dwrs d a) s (s.setWave k v) wid eid w f 2) ∧
          (g.halt ≠ none →
            (n = 0 → y.getLsbD 0 = true → Answers (.dwrs d a) s (s.setWave k v) wid eid w f 8) ∧
            (n = 0 → y.getLsbD 0 = false → y = g.pc.extractLsb' 0 32 → g.stack = [] → g.rejoin = none → writes (.dwrs d a) (v.setFrag e g)) ∧
            (n = 0 → y.getLsbD 0 = false → y ≠ g.pc.extractLsb' 0 32 → g.stack = [] → g.rejoin = none →
              writes (.dwrs d a) (v.setFrag e { g with pc := g.pc.extractLsb' 32 32 ++ y, held := none, skipPred := false })) ∧
            (n = 3 → writes (.dwrs d a) (v.setFrag e { g with emask := y &&& g.memb })) ∧
            (n = 4 → LegalFmt y → writes (.dwrs d a) (v.setFrag e { g with fmt := y })) ∧
            (n = 4 → ¬ LegalFmt y → Answers (.dwrs d a) s (s.setWave k v) wid eid w f 8) ∧
            (n = 5 → writes (.dwrs d a) (v.setFrag e { g with x0 := y.extractLsb' 0 8, x1 := y.extractLsb' 8 8 })) ∧
            (n = 2 ∨ (6 ≤ n ∧ n ≤ 10) → Answers (.dwrs d a) s (s.setWave k v) wid eid w f 3))))

/-- R420, R423, R425 to R427: samples, replay sessions, droop, temperature and skew. -/
def Sys2Proof.Claims.MonitorEvents : Prop :=
  (∀ (s : State) (core quad g : Nat), gladeOf s core = some g → quad < 4 → regFld s .smp (32 * g) 11 11 = 1 →
    (s.coreSt core).sampleAt.getD quad 0 ≤ coreClk s core →
    let p := 2 ^ (regFld s .smp (32 * g) 3 0 + 6)
    ((s.coreSt core).sampleAt.length = 4 → ∃ t, exec (.sample core quad) s = .next t ∧ t.waves = s.waves ∧
      (t.coreSt core).sampleAt.getD quad 0 = (coreClk s core / p + 1) * p) ∧
    (nextSample s core quad = none → ∃ t, exec (.sample core quad) s = .next t ∧ t.mem = s.mem ∧ t.regs = s.regs) ∧
    (∀ v f, nextSample s core quad = some v → sampled v = some f → Memory.wf s.mem = true → Tab.wf s.regs = true → PlaceFits v →
      ∃ t, exec (.sample core quad) s = .next t ∧ t.waves = s.waves ∧ RecordGoes s t g (RecordOf s v 0 0 (stallOf s v f).code
        (if v.frags.any (fun e => e.2.stall == .issued && e.2.served == coreClk s v.core) then 1 else 0) f.pc (timebase s (dieOf v.core)) 0))) ∧
  (∀ (s : State) (v : Wave) (f : Frag),
    let why := stallOf s v f
    (IssuedInClk s v f → why = .issued) ∧
    (¬ IssuedInClk s v f → f.decoding = false → f.reading = false →
      (f.halt ≠ none → why = .haltedDebug) ∧
      (f.halt = none → f.haltDue = [] → (∀ e ∈ v.frags, e.2.stepping = 0) → v.control = false → v.intr = none →
        ((s.blkD v.blk).st = .quiescing → why = .preemptQuiesce) ∧
        ((s.blkD v.blk).st = .running → replaying s v.blk = false → v.replay ≠ [] → why = .faultReplay)))) ∧
  (∀ (s : State) (d mv core g q : Nat) (v : Wave) (f : Frag), d < 8 → regFld s .drp (16 * d) 7 0 ≤ mv → Tab.valD s.droop d 0 = 0 →
    regFld s .drp (16 * d) 31 31 = 1 → 20 * d ≤ core → core < 20 * d + 20 → gladeOf s core = some g → q < 4 →
    nextSample s core q = some v → sampled v = some f →
    (∀ c p, 20 * d ≤ c → c < 20 * d + 20 → p < 4 → (c ≠ core ∨ p ≠ q) → nextSample s c p = none) →
    Memory.wf s.mem = true → Tab.wf s.regs = true → PlaceFits v →
    ∃ t, exec (.droopEventStart d mv) s = .next t ∧ reg64 t .drp (16 * d + 8) = (timebase s d).toNat ∧
      RecordGoes s t g (RecordOf s v 2 0 (stallOf s v f).code (if v.frags.any (fun e => e.2.stall == .issued && e.2.served == coreClk s v.core) then 1 else 0) f.pc (timebase s d) 0)) ∧
  (∀ (s : State) (g : Nat) (r : ReplaySt) (k : Cmd), Tab.val? s.replaySes g = some r → s.cmd? r.cmd = some k →
    k.st = .ending → (∀ e ∈ cmdBlocks s r.cmd, e.2.st = .done) →
    let last := r.early ≠ 0 ∨ k.status ≠ 0 ∨ k.firstTerm ≠ none ∨ regFld s .rpl (256 * g) 23 20 < r.pass
    let code := if r.early ≠ 0 then r.early else if k.status ≠ 0 ∨ k.firstTerm ≠ none then 3 else 0
    (last → Tab.wf s.replaySes = true → Tab.wf s.regs = true → r.pass < 32 → code < 8 → ∃ t, exec (.replayPassEnd g) s = .next t ∧
      t.waves = s.waves ∧ Tab.val? t.replaySes g = none ∧ t.cmd? r.cmd = some k ∧ regFld t .rpl (256 * g + 12) 25 21 = r.pass ∧
      regFld t .rpl (256 * g + 12) 28 26 = code ∧ regFld t .rpl (256 * g + 12) 31 31 = 0) ∧
    (¬ last → Tab.wf s.regs = true → r.pass < 32 → ∃ t, exec (.replayPassEnd g) s = .next t ∧ t.waves = s.waves ∧
      Tab.val? t.replaySes g = some { r with pass := r.pass + 1 } ∧ regFld t .rpl (256 * g + 12) 25 21 = r.pass ∧
      t.cmd? r.cmd = some { k with phases := [], wit := 0, doneBlocks := 0, firstTerm := none, status := 0, detail := 0, st := .active } ∧
      (∀ n, n < k.blocks → t.blk? (s.nextId + n) = some { cmd := r.cmd, lin := n, since := s.now }))) ∧
  (∀ (s : State) (d mv : Nat), d < 13 → regFld s .drp (16 * d) 7 0 ≤ mv → Tab.wf s.regs = true →
    let st := Tab.valD s.droop d 0
    (st ≠ 1 → st ≠ 2 → (st = 0 ∨ st - 3 + 10000 ≤ s.now) → regFld s .drp (16 * d) 31 31 = 0 → ∃ t, exec (.droopEventStart d mv) s = .next t ∧
      t.mem = s.mem ∧ t.waves = s.waves ∧ Tab.valD t.droop d 0 = 1 ∧ regFld t .drp (16 * d) 23 16 = min 255 mv ∧
      regFld t .drp (16 * d) 15 8 = min 255 (regFld s .drp (16 * d) 15 8 + 1) ∧ reg64 t .drp (16 * d + 8) = (timebase s d).toNat) ∧
    (3 ≤ st → s.now < st - 3 + 10000 → ∃ t, exec (.droopEventStart d mv) s = .next t ∧ t.mem = s.mem ∧ t.waves = s.waves ∧
      Tab.valD t.droop d 0 = 2 ∧ regFld t .drp (16 * d) 23 16 = min 255 (max (Tab.valD s.sags d 0) mv) ∧
      regFld t .drp (16 * d) 15 8 = regFld s .drp (16 * d) 15 8)) ∧
  (∀ (s : State) (d mv : Nat), d < 13 → Tab.valD s.droop d 0 = 1 ∨ Tab.valD s.droop d 0 = 2 → Tab.wf s.regs = true →
    ∃ t, exec (.droopEventEnd d mv) s = .next t ∧ t.mem = s.mem ∧ t.waves = s.waves ∧ Tab.valD t.droop d 0 = s.now + 3 ∧
      regFld t .drp (16 * d) 23 16 = min 255 (max (Tab.valD s.sags d 0) mv)) ∧
  (∀ (s : State) (d c m : Nat), d < 13 → c < 256 → m < 16 → Tab.val? s.msAt d ≠ some (s.now / 1000000) → Tab.wf s.temps = true → Tab.wf s.regs = true →
    ∃ t, exec (.temperatureSample d c) s = .next t ∧ t.mem = s.mem ∧ t.waves = s.waves ∧ Tab.valD t.temps d 0 = c ∧
      (regFld s .hmn (256 * m) 31 31 = 1 → regFld s .hmn (256 * m) 29 27 = 4 → regFld s .hmn (256 * m) 11 8 = d →
        (reg t .hmn (256 * m + 8)).toNat = min (reg s .hmn (256 * m + 8)).toNat c ∧
        (reg t .hmn (256 * m + 12)).toNat = max (reg s .hmn (256 * m + 12)).toNat c ∧
        ∀ b, b < 16 → (c = 0 ∧ b = 0 ∨ 1 ≤ b ∧ 2 ^ (b - 1) ≤ c ∧ c < 2 ^ b) →
          (reg t .hmn (256 * m + 64 + 4 * b)).toNat = min 0xFFFFFFFF ((reg s .hmn (256 * m + 64 + 4 * b)).toNat + 1))) ∧
  (∀ (s : State) (n e : Nat) (o : BitVec 64), n < 12 ∨ (n = 12 ∧ s.hostUp = true) ∨
      (13 ≤ n ∧ n < 25 ∧ regFld s .pyl (0x100 + 8 * (n - 13)) 0 0 = 1) → Tab.val? s.msAt (32 + n) ≠ some (s.now / 1000000) →
    Tab.wf s.regs = true → ∃ t, exec (.skewMeasure n o e) s = .next t ∧ t.mem = s.mem ∧ t.waves = s.waves ∧ reg64 t .tmb (0x100 + 16 * n) = o.toNat ∧
      reg64 t .tmb (0x108 + 16 * n) = 2 ^ 63 + e % 2 ^ 16)

/-- R421 to R424: a session takes a grid; before a page's first write it keeps the page; signatures are kept and compared; sums are
written; and captured pages return between passes. -/
def Sys2Proof.Claims.ReplaySessions : Prop :=
  (∀ (s : State) (g cmd ctx : Nat), Tab.wf s.regs = true → g < 64 → ctx < 64 →
    regFld s .rpl (256 * g) 31 31 = 1 → regFld s .rpl (256 * g) 29 24 = ctx → Tab.val? s.replaySes g = none → (s.gladeSt g).armAt ≤ cmd →
    (∀ c ∈ (s.gladeSt g).cores, c < 160) →
    let t := startReplay s g cmd ctx
    Tab.val? t.replaySes g = some { cmd := cmd } ∧ regFld t .rpl (256 * g) 31 31 = 0 ∧ reg64 t .rpl (256 * g + 8) = 2 ^ 63 ∧
      ∀ c ∈ (s.gladeSt g).cores, ∀ n, n < 4 → reg t (.core c) (0x40 + 8 * n) = 0#32 ∧
        reg t (.core c) (0x44 + 8 * n) =
          BitVec.ofNat 32 ((reg s .rpl (256 * g + 0x20)).toNat / 2 ^ (8 * n) % 2 ^ 8 * 2 ^ 24 + ctx * 2 ^ 16)) ∧
  (∀ (m : List Host.Cell) (s : State) (g va home : Nat) (r : ReplaySt), Memory.wf m = true → Memory.wf s.mem = true →
    (va ∈ r.pages → capture m s g r (va, home) = (s, r)) ∧
    (va ∉ r.pages → rplPages s g ≤ r.pages.length → r.early = 0 → capture m s g r (va, home) = (s, { r with early := 1 })) ∧
    (∀ h, va ∉ r.pages → r.pages.length < rplPages s g →
      writableHome s g (rplCtx s g) (rplSnap s g + 65536 * r.pages.length) = some h →
      let x := capture m s g r (va, home)
      x.2 = { r with pages := r.pages ++ [va] } ∧ x.1 = { s with mem := x.1.mem } ∧
        (∀ a, a < 65536 → getByte x.1.mem (h + a) = getByte m (home + a)) ∧
        ∀ a, a < h ∨ h + 65536 ≤ a → getByte x.1.mem a = getByte s.mem a)) ∧
  (∀ (s : State) (g h : Nat) (r : ReplaySt) (w : Wave) (k : Cmd), s.cmd? w.cmd = some k → g < 64 → Tab.wf s.regs = true →
    Memory.wf s.mem = true →
    let n := (s.blkD w.blk).lin * df k 0 15 8 + w.widx
    let va := rplOut s g + 0x200 + 8 * n
    let t := signature s g r w
    let stat := 256 * g + 12
    (regFld s .rpl (256 * g) 19 0 ≤ n → t.mem = s.mem ∧ regFld t .rpl stat 29 29 = 1) ∧
    (n < regFld s .rpl (256 * g) 19 0 → (∀ m, m < 8 → writableHome s g (rplCtx s g) (va + m) = some (h + m)) →
      (r.pass = 1 → t.regs = s.regs ∧ getMem t.mem h 4 = w.retired % 2 ^ 32 ∧ getMem t.mem (h + 4) 4 = w.hash.toNat ∧
        ∀ a, a < h ∨ h + 8 ≤ a → getByte t.mem a = getByte s.mem a) ∧
      (r.pass ≠ 1 →
        let same := getMem s.mem h 8 = w.retired % 2 ^ 32 + 2 ^ 32 * w.hash.toNat
        (same ∨ regFld s .rpl stat 30 30 = 1 → t = s) ∧
        (¬ same → regFld s .rpl stat 30 30 = 0 → r.pass < 32 → t.mem = s.mem ∧ regFld t .rpl stat 30 30 = 1 ∧
          regFld t .rpl stat 20 16 = r.pass ∧ reg t .rpl (256 * g + 8) = BitVec.ofNat 32 ((s.blkD w.blk).lin * 2 ^ 8 + w.widx))))) ∧
  (∀ (w : Wave) (pc target : DWord) (lanes : Word),
    let x := target.toNat % 2 ^ 32
    (w.hashJump pc target lanes).hash.toNat =
      (w.hash.toNat + (pc.toNat % 2 ^ 32 ^^^ (x * 2 ^ 13 + x / 2 ^ 19) % 2 ^ 32 ^^^ lanes.toNat) * 0x9E3779B1) % 2 ^ 32) ∧
  (∀ (s : State) (g h : Nat) (r : ReplaySt) (k : Cmd), Tab.val? s.replaySes g = some r → s.cmd? r.cmd = some k → k.st = .ending →
    (∀ e ∈ cmdBlocks s r.cmd, e.2.st = .done) → (∀ c e, e ∈ (s.coreSt c).l1 → e.glade = g → e.dirty = 0) → Memory.wf s.mem = true →
    Tab.wf s.regs = true → g < 64 → 1 ≤ r.pass →
    (∀ m, m < 32 → writableHome s g (rplCtx s g) (rplOut s g + 32 * (r.pass - 1) + m) = some (h + m)) →
    let more := r.early = 0 ∧ k.status = 0 ∧ k.firstTerm = none ∧ r.pass ≤ regFld s .rpl (256 * g) 23 20
    (¬ more → ∃ t, exec (.replayPassEnd g) s = .next t ∧
      (∀ n, n < 4 → getMem t.mem (h + 8 * n) 8 =
        ((s.gladeSt g).cores.map fun c => reg64 s (.core c) (0x40 + 8 * n) % 2 ^ 48).sum % 2 ^ 64) ∧
      ∀ a, a < h ∨ h + 32 ≤ a → getByte t.mem a = getByte s.mem a) ∧
    (∀ va src dst, more → r.pages = [va] → readableHome s g (rplCtx s g) (rplSnap s g) = some src →
      readableHome s g (rplCtx s g) va = some dst → src + 65536 ≤ h ∨ h + 32 ≤ src → ∃ t, exec (.replayPassEnd g) s = .next t ∧
        (∀ a, a < 65536 → getByte t.mem (dst + a) = getByte s.mem (src + a)) ∧
        ∀ c e, e ∈ (t.coreSt c).l1 → e.glade ≠ g))

/-- R418, R420 to R427: samples, stall reasons, droop, temperature and skew, and replay sessions. -/
def Obligations.MonitorsAndReplay : Prop := MonitorEvents ∧ ReplaySessions

namespace Sys2Proof.Claims

open Sys2Proof Sys2Proof.Machine

/-- A field of a predicate's control register (R400). -/
def predField (p : Pred) (hi lo : Nat) : Nat := p.ctl.toNat / 2 ^ lo % 2 ^ (hi + 1 - lo)

/-- Comparisons of an access's bytes from `x` with [a, b], and of a value (R402). -/
def RangeMatches (cmp a b x len : Nat) : Prop :=
  (cmp = 0 ∧ ∃ y, x ≤ y ∧ y < x + len ∧ y = a) ∨ (cmp = 1 ∧ ∀ y, x ≤ y → y < x + len → y ≠ a) ∨
  (cmp = 2 ∧ ∃ y, x ≤ y ∧ y < x + len ∧ a ≤ y ∧ y ≤ b) ∨ (cmp = 3 ∧ ∃ y, x ≤ y ∧ y < x + len ∧ (y < a ∨ b < y)) ∨
  (cmp = 4 ∧ x &&& b = a)
def ValueMatches (cmp a b x : Nat) : Prop :=
  (cmp = 0 ∧ x = a) ∨ (cmp = 1 ∧ x ≠ a) ∨ (cmp = 2 ∧ a ≤ x ∧ x ≤ b) ∨ (cmp = 3 ∧ (x < a ∨ b < x)) ∨ (cmp = 4 ∧ x &&& b = a)

/-- A predicate matches an event of a wave, CHAIN aside (R400 to R402). -/
def EventMatches (w : Wave) (p : Pred) (e : WatchEv) : Prop :=
  p.ctl.getLsbD 63 = true ∧ predField p 61 59 = e.src ∧ p.ctl.getLsbD e.lane = true ∧
    (predField p 47 46 = 0 ∨ (predField p 47 46 = 1 ∧ predField p 45 38 = w.widx)) ∧
    if e.src ≤ 1 then
      p.ctl.getLsbD 37 = e.scr ∧
        (if e.scr then RangeMatches (predField p 58 56) (p.a.toNat % 2 ^ 32) (p.b.toNat % 2 ^ 32) e.x e.len
         else RangeMatches (predField p 58 56) p.a.toNat p.b.toNat e.x e.len)
    else
      let m := if e.src = 4 then 2 ^ 64 else 2 ^ (8 * 2 ^ predField p 55 54)
      ValueMatches (predField p 58 56) (p.a.toNat % m) (p.b.toNat % m) (e.x % m)

/-- Lane `l` hits predicate `n`: on an event that is new, or, chained, on two of one unit of which one is new (R403). -/
def LaneHits (preds : Tab Pred) (w : Wave) (evs : List WatchEv) (n : Nat) (p : Pred) (l : Nat) : Prop :=
  if p.ctl.getLsbD 50 = true then
    ∃ q e e', Tab.val? preds (n + 1) = some q ∧ e ∈ evs ∧ e' ∈ evs ∧ e.lane = l ∧ e'.lane = l ∧ EventMatches w p e ∧ EventMatches w q e' ∧
      (e.seen = false ∨ e'.seen = false)
  else ∃ e, e ∈ evs ∧ e.lane = l ∧ EventMatches w p e ∧ e.seen = false

/-- The events are of lanes and cover bytes, and the predicates are ones that `wpset` accepts. -/
def WatchLegal (preds : Tab Pred) (evs : List WatchEv) : Prop :=
  (∀ e ∈ evs, e.lane < 32 ∧ (e.src ≤ 1 → 1 ≤ e.len)) ∧ ∀ n p, Tab.val? preds n = some p → predField p 58 56 ≤ 4

/-- The halt of a predicate's action that reaches a wave: the hitting wave's own origin is PREDICATE (R407). -/
def haltOf (s : State) (wid n act : Nat) (trig : DWord) (k : Nat) : HaltSt :=
  { origin := if act = 6 ∧ k ≠ wid then 3 else 1, pred := n, trig := trig, since := s.now }

/-- The waves that a halt action stops (R407). -/
def HaltScope (wid : Nat) (w : Wave) (act tslot k : Nat) (v : Wave) : Prop :=
  v.control = false ∧
    ((act = 3 ∧ k = wid) ∨ (act = 4 ∧ v.blk = w.blk) ∨ (act = 6 ∧ v.cmd = w.cmd) ∨
     (act = 5 ∧ if 2 ^ 8 ≤ w.teams.getD tslot 0 then v.cmd = w.cmd ∧ w.teams.getD tslot 0 ∈ v.teams else k = wid))

end Sys2Proof.Claims

open Sys2Proof Sys2Proof.Machine Sys2Proof.Claims

/-- R400 to R404: which lanes hit a predicate, how HITS counts them, and which hits take the action. -/
def Sys2Proof.Claims.WatchHits : Prop :=
  (∀ (preds : Tab Pred) (w : Wave) (evs : List WatchEv) (n : Nat), WatchLegal preds evs →
    let hits := hitsOf preds w evs n
    (Tab.val? preds n = none → hits = []) ∧
    ∀ p, Tab.val? preds n = some p →
      (hits.map (·.1)).Pairwise (· < ·) ∧ (∀ l, (∃ x, (l, x) ∈ hits) ↔ l < 32 ∧ LaneHits preds w evs n p l) ∧
      ∀ l x, (l, x) ∈ hits → ∃ e ∈ evs, e.lane = l ∧ e.x = x ∧ EventMatches w p e) ∧
  (∀ (s : State) (wid : Nat) (w : Wave) (trig : DWord) (evs : List WatchEv), s.wave? wid = some w →
    let preds := (s.coreSt w.core).preds
    let r := takeHits s wid preds trig evs
    Tab.wf preds = true →
    (∀ n p, n < 16 → Tab.val? preds n = some p →
      let hs := hitsOf preds w evs n
      let th := max 1 (predField p 36 32)
      Tab.val? (r.1.coreSt w.core).preds n = some { p with hits := BitVec.ofNat 32 (min 0xFFFFFFFF (p.hits.toNat + hs.length)) } ∧
      ∀ a, (n, p, a) ∈ r.2 ↔ a ≠ [] ∧ a = hs.drop (th - 1 - p.hits.toNat)) ∧
    ((∀ a ∈ r.2, predField a.2.1 53 51 ≠ 1) → r.1.mem = s.mem ∧ r.1.regs = s.regs ∧ r.1.waves = s.waves ∧ r.1.ops = s.ops) ∧
    (∀ n p l x, r.2 = [(n, p, [(l, x)])] → predField p 53 51 = 1 → l < 32 → n < 16 → Memory.wf s.mem = true → Tab.wf s.regs = true →
      PlaceFits w → r.1.waves = s.waves ∧ RecordGoes s r.1 w.glade (RecordOf s w 1 l n 0 trig (timebase s (dieOf w.core)) x)))

/-- R405, R407, R409: what a halt action stops, with which origin, on the hitting core and on others; and HALT_LANE. -/
def Sys2Proof.Claims.WatchHalts : Prop :=
  (∀ (s : State) (wid : Nat) (w : Wave) (n act tslot : Nat) (lanes : Word) (trig : DWord), s.wave? wid = some w → w.control = false →
    3 ≤ act → act ≤ 6 → Tab.wf s.waves = true → (∀ k v, s.wave? k = some v → HaltScope wid w act tslot k v → vdecOut s k = false) →
    let t := haltAction s wid false none n act tslot lanes trig
    t.mem = s.mem ∧ t.ops = s.ops ∧
      (∀ k v, s.wave? k = some v → HaltScope wid w act tslot k v → v.core = w.core →
        ∃ v', t.wave? k = some v' ∧ EachFrag v v' (halted (haltOf s wid n act trig k)) ∧ v'.haltReq = none) ∧
      (∀ k v, s.wave? k = some v → HaltScope wid w act tslot k v → v.core ≠ w.core →
        t.wave? k = some { v with haltReq := some (haltOf s wid n act trig k) }) ∧
      (∀ k v, s.wave? k = some v → ¬ HaltScope wid w act tslot k v → t.wave? k = some v) ∧
      (act = 6 → ∀ c, s.cmd? w.cmd = some c → t.cmd? w.cmd = some { c with haltMark := true })) ∧
  (∀ (s : State) (wid eid : Nat) (w : Wave) (f : Frag) (n : Nat) (lanes : Word) (trig : DWord), s.wave? wid = some w →
    (eid, f) ∈ w.frags → w.frag? eid = some f → f.halt = none → f.memb &&& lanes ≠ 0#32 → vdecOut s wid = false → w.control = false →
    f.skipPred = false → (∀ e g, (e, g) ∈ w.frags → e ≠ eid → g.memb &&& lanes = 0#32) → Tab.wf w.ents = true →
    let h := haltOf s wid n 2 trig wid
    let t := haltAction s wid false none n 2 0 lanes trig
    t.mem = s.mem ∧ t.ops = s.ops ∧ (∀ k, k ≠ wid → t.wave? k = s.wave? k) ∧
    (freeEntries s w = 0 ∨ f.memb &&& lanes = f.memb → t.frag? wid eid = some (halted h f)) ∧
    (freeEntries s w ≠ 0 → f.memb &&& lanes ≠ f.memb → ∃ e g f', w.frag? e = none ∧ t.frag? wid e = some g ∧ t.frag? wid eid = some f' ∧
      f'.memb = f.memb &&& ~~~lanes ∧ f'.halt = none ∧ f'.pc = f.pc ∧ f'.emask = f.emask ∧
      g.memb = f.memb &&& lanes ∧ g.emask = f.emask &&& lanes ∧ g.halt = some h ∧ g.pc = f.pc ∧ g.fmt = f.fmt ∧ g.x0 = f.x0 ∧ g.x1 = f.x1 ∧
      g.pending = f.pending ∧ g.rejoin = f.rejoin ∧ g.trap = f.trap)) ∧
  (∀ (s : State) (wid : Nat) (w : Wave) (n act tslot : Nat) (p : Pred) (a : List (Nat × Nat)) (trig : DWord), s.wave? wid = some w →
    predField p 53 51 = act → 2 ≤ act → act ≤ 6 → predField p 49 48 = tslot →
    let t := haltAction s wid false none n act tslot (a.foldl (fun m h => m ||| 1#32 <<< h.1) 0) trig
    let u := haltHits s wid false none trig [(n, p, a)]
    u.waves = t.waves ∧ u.cmds = t.cmds ∧ u.mem = t.mem ∧
      (dbgNotify s w.glade = 0 → u.ops = t.ops) ∧
      (dbgNotify s w.glade ≠ 0 → ∃ o, u.op? s.nextId = some o ∧ o.kind = .notify ∧ o.args = [dbgNotify s w.glade]))

/-- R405, R406, R408: predicates on addresses are evaluated at issue: the unit goes on, or does not execute and its fragment halts or
takes WATCH; predicates on values are evaluated when the value exists, and WATCH finds the unit complete. -/
def Sys2Proof.Claims.WatchDelivery : Prop :=
  (∀ (s : State) (wid eid : Nat) (w : Wave) (f : Frag) (evs : List WatchEv), s.wave? wid = some w → w.frag? eid = some f →
    let preds := (s.coreSt w.core).preds
    let r := takeHits s wid preds f.pc evs
    (watched s w = false ∨ f.skipPred = true ∨ preds = [] → watchAddr s wid eid evs = .ok s) ∧
    (watched s w = true → f.skipPred = false → preds ≠ [] →
      ((∀ a ∈ r.2, predField a.2.1 53 51 ≤ 1) →
        watchAddr s wid eid evs = .ok { r.1 with watchEv := s.watchEv ++ evs.map fun e => { e with seen := true } }) ∧
      ((∃ a ∈ r.2, 2 ≤ predField a.2.1 53 51 ∧ predField a.2.1 53 51 ≤ 6) →
        watchAddr s wid eid evs = .error (.ended (haltHits r.1 wid false (some eid) f.pc r.2))) ∧
      (∀ n p l x more, r.2 = [(n, p, (l, x) :: more)] → predField p 53 51 = 7 → f.memb.getLsbD l = true → w.uhandler ≠ 0 →
        w.intr = none → f.trap.inHandler = false → ∃ t, watchAddr s wid eid evs = .error (.ended t) ∧ t.mem = r.1.mem ∧ t.ops = s.ops ∧
          t.frag? wid eid = some { f with
            pc := w.uhandler, pending := none, held := none, sleepEnd := none, skipPred := false,
            trap := { inHandler := true, rpc := f.pc, savedRj := f.pending, cause := 0x17, tpc := f.pc,
                      targ := BitVec.ofNat 32 (n + 2 ^ 8 * l), skip := true } }))) ∧
  (∀ (s : State) (wid eid : Nat) (w : Wave) (f : Frag) (trig : DWord) (evs : List WatchEv), s.wave? wid = some w →
    w.frags = [(eid, f)] → w.frag? eid = some f → f.decoding = false → evs ≠ [] →
    let preds := (s.coreSt w.core).preds
    let r := takeHits s wid preds trig evs
    (watched s w = false ∨ preds = [] → watchValues s wid preds false trig evs = s) ∧
    (watched s w = true → preds ≠ [] →
      ((∀ a ∈ r.2, predField a.2.1 53 51 ≤ 1) → watchValues s wid preds false trig evs = r.1) ∧
      (∀ n p a, r.2 = [(n, p, a)] → 3 ≤ predField p 53 51 → predField p 53 51 ≤ 6 →
        watchValues s wid preds false trig evs = haltHits r.1 wid false none trig r.2) ∧
      (∀ n p l x more, r.2 = [(n, p, (l, x) :: more)] → predField p 53 51 = 7 → f.memb.getLsbD l = true → w.uhandler ≠ 0 →
        w.intr = none → f.trap.inHandler = false → f.skipPred = false →
        let t := watchValues s wid preds false trig evs
        t.mem = r.1.mem ∧ t.ops = s.ops ∧ t.frag? wid eid = some { f with
          pc := w.uhandler, pending := none, held := none, sleepEnd := none, parked := none, watchDue := none,
          trap := { inHandler := true, rpc := f.pc, savedRj := f.pending, cause := 0x17, tpc := trig,
                    targ := BitVec.ofNat 32 (n + 2 ^ 8 * l) } })))

/-- R401, R406: a scalar or vector load whose checks pass generates its address events and obeys them: with a TRAP that acts it does
not execute and WATCH is delivered; with no action that stops it, it issues as without predicates. -/
def Sys2Proof.Claims.WatchedLoads : Prop :=
  ∀ (s : State) (wid eid : Nat) (w : Wave) (f : Frag) (x : Ext) (d a : BitVec 7) (b : BitVec 8) (fa : Bool) (v : DWord) (home : Nat → Nat),
    Issuing s wid eid w f → Room s wid cLD → MeshRoom s wid w → watched s w = true → f.skipPred = false → (s.coreSt w.core).preds ≠ [] →
    w.control = false → WitOk s wid w f x v → SrcV w f a.toNat → SrcS64 w b → DstVReady w f (d.toNat, 1, false) → s.watchEv = [] →
    let m := memExt x
    let va := laneAddr w f false (baseOf s wid w f false b) x a
    let dst := range (vecNo f d.toNat) 1
    let o : Op := { mkOp wid eid w f .load (some cLD) with
      accs := (lanesOf f.active).map fun l => { lane := l, va := va l, home := home l }
      size := 4, dst := dst, scope := m.scope, pol := m.pol, rc := m.rc, wit := v }
    let evs : List WatchEv := (lanesOf f.active).map fun l => { src := 0, lane := l, x := va l, len := 4 }
    let r := takeHits s wid (s.coreSt w.core).preds f.pc evs
    AddrsOk s wid w f false 4 aRead va home → LinesFit s o →
    (∀ n p l y more, r.2 = [(n, p, (l, y) :: more)] → predField p 53 51 = 7 → f.memb.getLsbD l = true → w.uhandler ≠ 0 → w.intr = none →
      f.trap.inHandler = false → ∃ t g, exec (.vldW x d a b fa) s = .next t ∧ t.mem = r.1.mem ∧ t.ops = s.ops ∧
        (t.coreSt w.core).preds = (r.1.coreSt w.core).preds ∧ t.frag? wid eid = some g ∧ g.pc = w.uhandler ∧
        g.trap = { inHandler := true, rpc := f.pc, savedRj := f.pending, cause := 0x17, tpc := f.pc,
                   targ := BitVec.ofNat 32 (n + 2 ^ 8 * l), skip := true }) ∧
    ((∀ a ∈ r.2, predField a.2.1 53 51 ≤ 1) → f.active ≠ 0#32 → ∃ t, exec (.vldW x d a b fa) s = .next t ∧
      t.mem = r.1.mem ∧ (∃ q, t.op? (requestWitness s w.core w.glade w.ctx v).nextId = some q ∧ q.accs = o.accs ∧ q.dst = dst ∧ q.kind = .load ∧ q.size = 4) ∧
      ∃ w', t.wave? wid = some w' ∧ w'.vEmpty = (w.markEmptyV dst).vEmpty)

/-- R399 to R408: which lanes hit a predicate, how hits count, and what the actions do. -/
def Obligations.WatchPredicates : Prop := WatchHits ∧ WatchHalts ∧ WatchDelivery ∧ WatchedLoads

namespace Sys2Proof.Claims

open Sys2Proof Sys2Proof.Machine

/-! ## Requests of a driver, contexts and pre-emption (R61 to R67, R369 to R391) -/

/-- A virtual function bound to glade `g` makes a request, and none of it is in progress (R379, R395). -/
def VfReq (s : State) (vf g : Nat) : Prop := vfGlade s vf = some g ∧ ∀ c ∈ s.changes, c.vf ≠ vf

/-- Firmware answers a request of a virtual function with a status, and the device is then `s'`. -/
def Replies (i : Instr) (s s' : State) (vf st : Nat) : Prop :=
  exec i s = .next (setReg { s' with replies := [BitVec.ofNat 32 vf, BitVec.ofNat 32 st] :: s.replies } .vf (4096 * vf) (BitVec.ofNat 32 st))

/-- Firmware has answered a request of a virtual function with a status, which stands in the record too (R379). -/
def Replied (s t : State) (vf st : Nat) : Prop :=
  t.replies = [BitVec.ofNat 32 vf, BitVec.ofNat 32 st] :: s.replies ∧ (Tab.wf s.regs = true → reg t .vf (4096 * vf) = BitVec.ofNat 32 st)

/-- No L1 of a glade holds a line of a frame range (R356). -/
def NoLines (t : State) (g home len : Nat) : Prop :=
  ∀ core e, e ∈ (t.coreSt core).l1 → ¬ (e.glade = g ∧ home ≤ e.home ∧ e.home < home + len)

/-- Everything that waited on a fault queue entry goes on, and the entry is gone (R374, R375). -/
def EntryGone (s t : State) (g id : Nat) : Prop :=
  (∀ e ∈ (t.gladeSt g).faultq, e.id ≠ id) ∧ (∀ n w, t.wave? n = some w → id ∉ w.replay) ∧
  (∀ n w, s.wave? n = some w → id ∉ w.replay → w.intr = none → t.wave? n = some w) ∧
  (∀ n k, t.cmd? n = some k → k.faultEnt ≠ some id)

/-- A page as MAP enters it. -/
def mappedPage (va len : Nat) (r : PageReq) : Page :=
  { va := va, len := len, kind := r.kind,
    home := if r.kind = 0 then r.target else if r.kind = 1 then 2 ^ 56 + r.target % 2 ^ 56 else (2 + r.target / 2 ^ 56) * 2 ^ 56 + r.target % 2 ^ 56,
    rwx := r.rwx ||| 1 }

/-- A block's waves hold only interrupted state that a PREEMPT delivery set aside (R384). -/
def DeliveredTo (w w' : Wave) (pc : DWord) (restore : Bool) : Prop :=
  ∃ it, w'.intr = some it ∧ it.cause = 0x18 ∧ it.restore = restore ∧ it.ents = w.ents ∧ it.sregs = w.sregs ∧ it.sEmpty = w.sEmpty ∧
    it.vEmpty = w.vEmpty ∧ it.replay = w.replay ∧ w'.replay = [] ∧ w'.vEmpty = [] ∧
    w'.frags.map (·.2) = [{ memb := ~~~w.ended, emask := ~~~w.ended, pc := pc }] ∧
    (∀ l, l < 32 → w'.vreg 0 l = BitVec.ofNat 32 (4 * l) ∧ w'.vreg 1 l = 0)

end Sys2Proof.Claims

open Sys2Proof Sys2Proof.Machine Sys2Proof.Claims

/-- R376, R377, R379: MAP, UNMAP, PROTECT and the completion of a change. The size codes and the place of a PEER page's port are the
model's choice (notes/assumptions 73). -/
def Sys2Proof.Claims.TranslationRequests : Prop :=
  (∀ (s : State) (vf g ctx va : Nat) (r : PageReq) (len : Nat), VfReq s vf g → pageSize r.size = some len →
    let i := Instr.map vf ctx va r
    let bad := 63 < ctx ∨ va % len ≠ 0 ∨ r.target % 2 ^ 56 % len ≠ 0 ∨ 2 ^ 52 < va + len ∨ 2 < r.kind
    let own := pageOwned s g r.kind r.target len
    let overlap := ∃ p ∈ (s.ctxSt g ctx).pages, p.va < va + len ∧ va < p.va + p.len
    (bad → Replies i s s vf 1) ∧ (¬ bad → own = false → Replies i s s vf 2) ∧ (¬ bad → own = true → overlap → Replies i s s vf 3) ∧
    (¬ bad → own = true → ¬ overlap →
      ((mappedPage va len r).w = false →
        Replies i s (s.updCtx g ctx fun x => { x with pages := mappedPage va len r :: x.pages }) vf 0) ∧
      ((mappedPage va len r).w = true → ∃ t, exec i s = .next t ∧ Replied s t vf 0 ∧ t.waves = s.waves ∧ t.ops = s.ops ∧
        (t.ctxSt g ctx).pages = mappedPage va len r :: (s.ctxSt g ctx).pages ∧ NoLines t g (mappedPage va len r).home len))) ∧
  (∀ (s : State) (vf g ctx va : Nat) (r : PageReq), VfReq s vf g → 3 ≤ r.size → Replies (.map vf ctx va r) s s vf 1) ∧
  (∀ (s : State) (g target len : Nat), pageOwned s g 0 target len = true ↔
    ∀ n, n < len / 65536 → (frameOf s (target / 65536 + n)).valid = true ∧ (frameOf s (target / 65536 + n)).glade = g) ∧
  (∀ (s : State) (vf g ctx va size : Nat) (rwx : BitVec 3), VfReq s vf g →
    ((∀ p ∈ (s.ctxSt g ctx).pages, p.va = va → pageSize size ≠ some p.len) →
      Replies (.unmap vf ctx va size) s s vf 4 ∧ Replies (.protect vf ctx va size rwx) s s vf 4) ∧
    (∀ pre p post, (s.ctxSt g ctx).pages = pre ++ p :: post → (∀ q ∈ pre, q.va ≠ va) → p.va = va → pageSize size = some p.len →
      exec (.unmap vf ctx va size) s = .next { s with changes := s.changes ++ [{ vf := vf, glade := g, ctx := ctx, old := p }] } ∧
      exec (.protect vf ctx va size rwx) s = .next { s with
        changes := s.changes ++ [{ vf := vf, glade := g, ctx := ctx, old := p, new := some { p with rwx := rwx ||| 1 } }] })) ∧
  (∀ (s : State) (vf : Nat) (c : XlChange) (p : Page), s.changes.find? (fun c => c.vf == vf && !c.closing) = some c →
    (s.ctxSt c.glade c.ctx).pages.find? (fun p => p.va == c.old.va) = some p →
    (pageUsed s c.glade c.ctx p = true ∨ p.merging ≠ none →
      exec (.translationChangeComplete vf) s = .refused (.notEnabled "TRANSLATION_CHANGE_COMPLETE")) ∧
    (pageUsed s c.glade c.ctx p = false → p.merging = none → ∃ t, exec (.translationChangeComplete vf) s = .next t ∧
      t.waves = s.waves ∧ t.ops = s.ops ∧ Replied s t vf 0 ∧ (∀ d ∈ t.changes, d.vf ≠ vf) ∧
      (t.ctxSt c.glade c.ctx).pages = (s.ctxSt c.glade c.ctx).pages.filterMap (fun q =>
        if q.va = p.va then c.new.map (fun n => { p with rwx := n.rwx }) else some q) ∧
      (∀ core e, e ∈ (t.coreSt core).tlb → ¬ (e.glade = c.glade ∧ e.ctx = c.ctx ∧ e.page.va = p.va ∧ e.page.len = p.len)) ∧
      NoLines t c.glade p.home p.len ∧
      (c.new ≠ none ∨ p.shared = false → t.frames = s.frames) ∧
      (c.new = none → p.shared = true → Tab.wf s.frames = true → ∀ n, frameOf t n =
        if n = p.home / 65536 then { frameOf s n with sharers := (frameOf s n).sharers - 1 } else frameOf s n))) ∧
  (∀ (s : State) (g ctx : Nat) (p : Page), pageUsed s g ctx p = true ↔
    (∃ e ∈ s.ops, e.2.usesPage g ctx p = true) ∨ (∃ b ∈ s.blocks, ∃ o ∈ b.2.entries, o.usesPage g ctx p = true) ∨
    ∃ e ∈ s.waves, e.2.glade = g ∧ memCtx e.2 = ctx ∧ ∃ f ∈ e.2.allFrags, f.usesPage p = true) ∧
  (∀ (o : Op) (g ctx : Nat) (p : Page) (a : Acc), o.glade = g → o.ctx = ctx → o.done = false → o.scr = false → a ∈ o.accs →
    p.home ≤ a.home → a.home < p.home + p.len → p.va ≤ a.va → a.va < p.va + p.len → o.usesPage g ctx p = true)

/-- R370, R381: opening, closing and faulting a context. -/
def Sys2Proof.Claims.ContextLifecycle : Prop :=
  (∀ (s : State) (vf g ctx : Nat) (r : List Word), VfReq s vf g →
    (63 < ctx → Replies (.ctxOpen vf ctx r) s s vf 1 ∧ Replies (.ctxClose vf ctx) s s vf 1) ∧
    (ctx ≤ 63 → ctxState s g ctx ≠ 0 → Replies (.ctxOpen vf ctx r) s s vf 5) ∧
    (ctx ≤ 63 → ctxState s g ctx = 0 → Replies (.ctxClose vf ctx) s s vf 4) ∧
    (ctx ≤ 63 → tearing s g = true → Replies (.ctxOpen vf ctx r) s s vf 5) ∧
    (ctx ≤ 63 → ctxState s g ctx = 0 → tearing s g = false → recordBad r = true → Replies (.ctxOpen vf ctx r) s s vf 1) ∧
    (ctx ≤ 63 → ctxState s g ctx = 0 → tearing s g = false → recordBad r = false → Tab.wf s.regs = true →
      ∃ t, exec (.ctxOpen vf ctx r) s = .next t ∧ t.mem = s.mem ∧ t.waves = s.waves ∧
        Replied s t vf 0 ∧ ctxState t g ctx = 1 ∧ regFld t (.gld g) (ctxOff ctx) 7 0 = 0 ∧
        (∀ n, 2 ≤ n → n ≤ 11 → reg t (.gld g) (ctxOff ctx + 4 * n) = r.getD n 0) ∧
        (∀ n, 12 ≤ n → n ≤ 15 → reg t (.gld g) (ctxOff ctx + 4 * n) = 0)) ∧
    (ctx ≤ 63 → ctxState s g ctx ≠ 0 → Tab.wf s.regs = true →
      ∃ t, exec (.ctxClose vf ctx) s = .next t ∧ t.mem = s.mem ∧ t.waves = s.waves ∧ t.ops = s.ops ∧ ctxState t g ctx = 3 ∧
        ctxRuns t g ctx = false ∧
        (t.ctxSt g ctx).drainFrom = some ((s.ctxSt g ctx).drainFrom.getD s.now) ∧
        (t.ctxSt g ctx).drainRec = (if (s.ctxSt g ctx).drainFrom = none then [] else (s.ctxSt g ctx).drainRec) ∧ t.changes = s.changes ++ [{ vf := vf, glade := g, ctx := ctx, closing := true }])) ∧
  (∀ (s : State) (vf : Nat) (c : XlChange), s.changes.find? (fun c => c.vf == vf && c.closing) = some c → vf < 128 → c.ctx < 64 →
    s.clear.queue = [] → (s.ctxSt c.glade c.ctx).drainFrom = none → ctxCmds s c.glade c.ctx = [] →
    (∀ e ∈ s.ops, e.2.glade ≠ c.glade ∨ e.2.ctx ≠ c.ctx ∨ e.2.done = true ∨ e.2.lasting = true) →
    (∀ p ∈ (s.ctxSt c.glade c.ctx).pages, p.merging = none ∧ pageUsed s c.glade c.ctx p = false) → Tab.wf s.regs = true →
    ∃ t, exec (.ctxCloseComplete vf) s = .next t ∧ t.waves = s.waves ∧ Replied s t vf 0 ∧
      ctxState t c.glade c.ctx = 0 ∧ (t.ctxSt c.glade c.ctx).pages = []) ∧
  (∀ (s : State) (g ctx at' : Nat), (s.ctxSt g ctx).drainFrom = some at' → ctx < 64 → Tab.wf s.regs = true →
    (∀ e ∈ s.ops, e.2.glade = g → e.2.ctx = ctx → e.2.core < 256 → e.2.lasting = true ∨ e.2.done = true) ∨ at' + 4000 ≤ s.now →
    ∃ t, exec (.contextFaultDrainExpiry g ctx) s = .next t ∧ (t.ctxSt g ctx).drainFrom = none ∧
      (∀ e ∈ t.ops, e.2.glade = g → e.2.ctx = ctx → e.2.core < 256 → e.2.lasting = true) ∧
      ((s.ctxSt g ctx).drainRec = [] → ctxState t g ctx = ctxState s g ctx ∧ ∀ n k, s.cmd? n = some k → k.glade = g → k.desc ≠ [] → k.ctx = ctx → k.st ≠ .ending →
        ∃ k', t.cmd? n = some k' ∧ k'.st = .ending ∧ k'.status = 8 ∧ k'.detail = 0) ∧
      ((s.ctxSt g ctx).drainRec ≠ [] →
        let cause := fld ((s.ctxSt g ctx).drainRec.headD 0) 7 0
        ctxState t g ctx = (if ctxState s g ctx = 3 then 3 else 2) ∧ regFld t (.gld g) (ctxOff ctx) 7 0 = cause ∧
        (∀ n k, s.cmd? n = some k → k.glade = g → k.desc ≠ [] → k.ctx = ctx → k.st ≠ .ending →
          ∃ k', t.cmd? n = some k' ∧ k'.st = .ending ∧ k'.status = 7 ∧ k'.detail = cause))) ∧
  (∀ (s : State) (g ctx : Nat), ctxRuns s g ctx = true → (s.ctxSt g ctx).winAt ≤ coreClk s (256 + g) →
    let x := s.ctxSt g ctx
    let ws := (Tab.vals s.waves).filter fun w => !w.control && w.glade == g && w.ctx == ctx
    let counts := x.residentAll = true ∧ ws ≠ [] ∧ x.retiredInWindow = false ∧ x.stalledInWindow = false ∧ ∀ w ∈ ws, excluded s w = false
    let wd := regFld s (.gld g) (ctxOff ctx + 0x1C) 21 16
    let limit := 2 ^ (if wd = 0 then 32 else wd)
    ∃ t, exec (.watchdogWindow g ctx) s = .next t ∧ t.mem = s.mem ∧ t.waves = s.waves ∧ t.regs = s.regs ∧
      (t.ctxSt g ctx).winAt = (coreClk s (256 + g) / 256 + 1) * 256 ∧
      (counts → (t.ctxSt g ctx).hang = x.hang + 1 ∧ (limit ≤ 256 * (x.hang + 1) →
        (t.ctxSt g ctx).drainFrom = some s.now ∧ fld ((t.ctxSt g ctx).drainRec.headD 0) 7 0 = 0x1D)) ∧
      (¬ counts → (t.ctxSt g ctx).hang = x.hang) ∧
      (256 * (x.hang + 1) < limit → (t.ctxSt g ctx).drainFrom = none)) ∧
  (∀ (s : State) (g : Nat), (s.gladeSt g).bwWin ≠ s.now / 1000 → ∃ t, exec (.bandwidthWindow g) s = .next t ∧ t.mem = s.mem ∧ t.waves = s.waves ∧ t.regs = s.regs ∧
    (t.gladeSt g).bytes = 0)

/-- R370, R376, R377, R379, R381: contexts open, close and fault, and their pages change. The size codes of MAP and the place of a PEER
page's port are the model's choice (notes/assumptions 73). -/
def Obligations.ContextsAndTranslation : Prop := TranslationRequests ∧ ContextLifecycle

/-- R340, R348, R373 to R375, R391: answers to translation faults, COW faults and deduplication. That a page keeps its copy-on-write mark where a merge is given
up while other pages share its frame is the model's choice (notes/assumptions 135). -/
def Obligations.FaultAnswers : Prop :=
  (∀ (s : State) (vf g id cause : Nat), VfReq s vf g →
    (findEntry s g id false = none → Replies (.resolve vf id) s s vf 4 ∧ Replies (.fail vf id cause) s s vf 4) ∧
    (∀ e, findEntry s g id false = some e →
      (∃ t, exec (.resolve vf id) s = .next t ∧ t.mem = s.mem ∧ Replied s t vf 0 ∧ EntryGone s t g id) ∧
      (cause ≠ 0x08 → cause ≠ 0x0A → Replies (.fail vf id cause) s s vf 1) ∧
      (cause = 0x08 ∨ cause = 0x0A →
        (∃ t, exec (.fail vf id cause) s = .next t ∧ Replied s t vf 0 ∧
          (∀ n w, s.wave? n = some w → w.control = false → id ∈ w.replay → saveRefuses w = false → ctxRuns s w.glade w.ctx = true →
            (t.ctxSt w.glade w.ctx).drainFrom = some s.now ∧ fld ((t.ctxSt w.glade w.ctx).drainRec.headD 0) 7 0 = cause) ∧
          (∀ w, s.wave? g = some w → w.control = true → id ∈ w.replay → ∃ w', t.wave? g = some w' ∧ w'.haltCc = true) ∧
          (∀ n k, s.cmd? n = some k → k.faultEnt = some id → k.st ≠ .active → k.st ≠ .ending → ∃ k', t.cmd? n = some k' ∧ k'.readFail = true))))) ∧
  (∀ (s : State) (g ctx page : Nat) (e : FaultEnt),
    (s.gladeSt g).faultq.find? (fun e => e.cow && e.ctx == ctx && e.va / 65536 == page) = some e →
    (∀ p, findPage (s.ctxSt g ctx).pages (65536 * page) = some p →
      (p.merging ≠ none → exec (.cowResolved g ctx page) s = .refused (.notEnabled "COW_RESOLVED")) ∧
      (p.merging = none → p.cow = false → ∃ t, exec (.cowResolved g ctx page) s = .next t ∧ t.mem = s.mem ∧ EntryGone s t g e.id) ∧
      (p.merging = none → p.cow = true → mappings s g (p.home / 65536) ≤ 1 → ∃ t, exec (.cowResolved g ctx page) s = .next t ∧ EntryGone s t g e.id ∧
        { p with cow := false } ∈ (t.ctxSt g ctx).pages) ∧
      (∀ n, p.merging = none → p.cow = true → 1 < mappings s g (p.home / 65536) → freeFrame s g = some n → n ≠ p.home / 65536 →
        p.home % 65536 = 0 → Memory.wf s.mem = true →
        (∀ core l, l ∈ (s.coreSt core).l1 → l.glade = g → l.dirty = 0) →
        ∃ t, exec (.cowResolved g ctx page) s = .next t ∧ EntryGone s t g e.id ∧
          { p with home := 65536 * n, cow := false, rwx := p.rwx ||| 2, shared := false } ∈ (t.ctxSt g ctx).pages ∧
          (∀ a, a < 65536 → getByte t.mem (65536 * n + a) = getByte s.mem (p.home + a)) ∧
          ∀ a, a < 65536 * n ∨ 65536 * n + 65536 ≤ a → getByte t.mem a = getByte s.mem a)) ∧
    (findPage (s.ctxSt g ctx).pages (65536 * page) = none → ∃ t, exec (.cowResolved g ctx page) s = .next t ∧ EntryGone s t g e.id)) ∧
  (∀ (s : State) (op id : Nat) (e : FaultEnt),
    (∀ o, s.op? op = some o → o.kind = .trace → o.target = some id →
      (s.gladeSt o.glade).faultq.find? (fun e => e.id == id) = some e → e.cow = false → (walkPage s o.glade e.ctx e.va).isSome = true →
      ∃ t, exec (.unitXlateResolved op) s = .next t ∧ t.mem = s.mem ∧ EntryGone s t o.glade id ∧ t.op? op = some { o with target := none }) ∧
    (∀ k, s.op? op = none → s.cmd? op = some k → k.st = .active ∨ k.st = .ending → k.faultEnt = some id →
      (s.gladeSt k.glade).faultq.find? (fun e => e.id == id) = some e → e.cow = false → (walkPage s k.glade e.ctx e.va).isSome = true →
      ∃ t, exec (.unitXlateResolved op) s = .next t ∧ t.mem = s.mem ∧ EntryGone s t k.glade id ∧ t.cmd? op = some { k with faultEnt := none })) ∧
  (∀ (s : State) (vf g : Nat) (w : Wave) (pc : BitVec 64), VfReq s vf g → s.wave? g = some w →
    (w.haltCc = false → Replies (.ccRestart vf pc) s s vf 5) ∧
    (w.haltCc = true → Tab.wf s.regs = true → ∃ t w', exec (.ccRestart vf pc) s = .next t ∧ t.mem = s.mem ∧ t.wave? g = some w' ∧
      w'.haltCc = false ∧ w'.replay = [] ∧ w'.sregs = w.sregs ∧ (∀ e f, w.frag? e = some f → ∃ f', w'.frag? e = some f' ∧ f'.pc = pc) ∧
      reg t .ccr (0x100 + 16 * g) = 0 ∧ ∀ n, n ≠ g → t.wave? n = s.wave? n)) ∧
  (∀ (s : State) (g ca va cb vb : Nat) (p q : Page), findPage (s.ctxSt g ca).pages va = some p → findPage (s.ctxSt g cb).pages vb = some q →
    regFld s .ddp 0 0 0 = 1 → regFld s (.gld g) 0 28 28 = 0 → p.va = va → q.va = vb → p.len = 65536 → q.len = 65536 → p.kind = 0 → q.kind = 0 →
    p.w = true → q.w = true → p.home ≠ q.home → ¬ (ca = cb ∧ va = vb) →
    let free := p.merging = none ∧ q.merging = none ∧ pageUsed s g ca p = false ∧ pageUsed s g cb q = false
    let paired := p.merging = some (cb, vb) ∧ q.merging = some (ca, va)
    (free → sameFrames s.mem p.home q.home = false → exec (.dedupCompare g ca va cb vb) s = .next s) ∧
    (free → sameFrames s.mem p.home q.home = true → ∃ t, exec (.dedupCompare g ca va cb vb) s = .next t ∧ t.waves = s.waves ∧
        { p with cow := true, merging := some (cb, vb) } ∈ (t.ctxSt g ca).pages ∧ { q with cow := true, merging := some (ca, va) } ∈ (t.ctxSt g cb).pages) ∧
    (paired → sameFrames s.mem p.home q.home = true → p.home / 65536 ≠ q.home / 65536 →
      Tab.wf s.frames = true → Tab.wf s.regs = true → ∃ t, exec (.dedupCompare g ca va cb vb) s = .next t ∧ t.waves = s.waves ∧
        { p with merging := none, shared := true } ∈ (t.ctxSt g ca).pages ∧
        { q with home := p.home, merging := none, shared := true } ∈ (t.ctxSt g cb).pages ∧
        (frameOf t (p.home / 65536)).sharers = (frameOf s (p.home / 65536)).sharers + (if p.shared then 1 else 2) ∧
        (frameOf t (q.home / 65536)).sharers = (frameOf s (q.home / 65536)).sharers - (if q.shared then 1 else 0) ∧
        reg t .ddp 8 = if mappings s g (q.home / 65536) = 1 then reg s .ddp 8 + 1 else reg s .ddp 8) ∧
    (paired → sameFrames s.mem p.home q.home = false → Tab.wf s.regs = true → ∃ t, exec (.dedupCompare g ca va cb vb) s = .next t ∧
      t.waves = s.waves ∧ t.frames = s.frames ∧ { p with cow := p.shared, merging := none } ∈ (t.ctxSt g ca).pages ∧
      { q with cow := q.shared, merging := none } ∈ (t.ctxSt g cb).pages ∧ reg t .ddp 12 = reg s .ddp 12 + 1)) ∧
  (∀ (s : State) (g n : Nat), mappings s g n = (((Tab.vals (s.gladeSt g).ctxs).flatMap (·.pages)).filter fun p =>
    p.kind = 0 ∧ p.home ≤ 65536 * n ∧ 65536 * n < p.home + p.len).length)

/-- R63 to R66, R383: PREEMPT and WITHDRAW, and cancellation while a block quiesces (R64, R388). The status of a request whose sequence
number names no command is the model's choice (notes/assumptions 69). -/
def Sys2Proof.Claims.PreemptionRequests : Prop :=
  (∀ (s : State) (vf g : Nat) (r : PreemptReq), VfReq s vf g →
    let i := Instr.preempt vf r
    let busy := fun more : Bool => if more || preempting s g then 2 ^ 31 else 0
    let bad := (r.mode = 0 ∧ (r.count = 0 ∨ 160 < r.count)) ∨ 1 < r.mode ∨ ∃ c ∈ r.mask, 159 < c
    (bad → Replies i s s vf 1) ∧
    (¬ bad → findCmd s g r.seq = none → Tab.wf s.regs = true → ∃ t, exec i s = .next t ∧ t.mem = s.mem ∧ t.waves = s.waves ∧
      t.blocks = s.blocks ∧ Replied s t vf 1 ∧ reg t (.gld g) 0x4040 = BitVec.ofNat 32 (busy false + 0x00020000)) ∧
    (∀ cmd k, ¬ bad → findCmd s g r.seq = some (cmd, k) → inTransit s cmd = false → k.glade = g → r.discard = false → Tab.wf s.regs = true → Tab.wf s.blocks = true →
      let cores := takenCores s g cmd r
      let bs := vacated s cmd k cores
      let slots := freeSlots s g k.ctx
      let fits := bs.length ≤ slots.length ∧ ∀ e ∈ bs, imageBytes s e.2 ≤ slotBytes s g k.ctx
      (¬ fits → ∃ t, exec i s = .next t ∧ t.mem = s.mem ∧ t.waves = s.waves ∧ t.blocks = s.blocks ∧
        Replied s t vf 6 ∧ reg t (.gld g) 0x4040 = BitVec.ofNat 32 (busy false + 0x00010000)) ∧
      (fits → ∃ t, exec i s = .next t ∧ Replied s t vf 0 ∧
        (t.gladeSt g).preempts = (s.gladeSt g).preempts ++ [{ cmd := cmd, cores := cores }] ∧
        reg t (.gld g) 0x4040 = BitVec.ofNat 32 (busy (!bs.isEmpty) + bs.length) ∧
        (∀ (n id : Nat) (b : Block), bs[n]? = some (id, b) → ∃ b', t.blk? id = some b' ∧ b'.st = .quiescing ∧ b'.slotNo = slots[n]? ∧ b'.quiesceAt = s.now) ∧
        (∀ id b, s.blk? id = some b → (∀ e ∈ bs, e.1 ≠ id) → t.blk? id = some b))) ∧
    (∀ cmd k e, ¬ bad → findCmd s g r.seq = some (cmd, k) → inTransit s cmd = false →
      r.discard = true → Tab.wf s.regs = true → e ∈ vacated s cmd k (takenCores s g cmd r) → e.2.published = true ∨ k.idemp = false → k.glade = g →
      ctxRuns s g k.ctx = true → ∃ t, exec i s = .next t ∧ t.blocks = s.blocks ∧ t.waves = s.waves ∧
        (t.ctxSt g k.ctx).drainFrom = some s.now ∧ fld ((t.ctxSt g k.ctx).drainRec.headD 0) 7 0 = 0x1E)) ∧
  (∀ (s : State) (cmd g : Nat) (r : PreemptReq), r.mode = 0 →
    let cs := (s.gladeSt g).cores
    cs.Nodup → ∀ c, c ∈ takenCores s g cmd r ↔ c ∈ cs ∧
      (cs.filter fun d => cmdWaves s cmd d < cmdWaves s cmd c || (cmdWaves s cmd d == cmdWaves s cmd c && c < d)).length < r.count) ∧
  (∀ (s : State) (vf g seq : Nat), VfReq s vf g →
    (findCmd s g seq = none → Replies (.withdraw vf seq) s s vf 4) ∧
    (∀ cmd k, findCmd s g seq = some (cmd, k) →
      ((∀ p ∈ (s.gladeSt g).preempts, p.cmd ≠ cmd) → Replies (.withdraw vf seq) s s vf 4) ∧
      ((∃ p ∈ (s.gladeSt g).preempts, p.cmd = cmd) → Replies (.withdraw vf seq) s
        (s.updGlade g fun x => { x with preempts := x.preempts.filter fun p => p.cmd != cmd }) vf 0))) ∧
  (∀ (s : State) (bid : Nat) (b : Block), s.blk? bid = some b → b.st = .quiescing → b.quiesceAt + 4000 ≤ s.now →
    let asks := fun o : Op => o.blk = bid ∧ o.cancellable = true ∧ o.done = false ∧ o.cancel = false
    (∃ n o, s.op? n = some o ∧ asks o) → ∃ t, exec (.quiesceCancelTimeout bid) s = .next t ∧ t.mem = s.mem ∧ t.waves = s.waves ∧
      t.blocks = s.blocks ∧ ∀ n o, s.op? n = some o → (asks o → t.op? n = some { o with cancel := true }) ∧ (¬ asks o → t.op? n = some o)) ∧
  (∀ (s : State) (op : Nat) (o : Op), s.op? op = some o → o.cancel = true → o.done = false →
    (∀ b, o.kind = .copy ∨ o.kind = .atomic → s.blk? o.blk = some b → ∃ t b', exec (.cancelAnswer op false) s = .next t ∧ t.mem = s.mem ∧
      t.waves = s.waves ∧ t.blk? o.blk = some b' ∧ b'.entries = b.entries ++ [{ o with pinCore := if o.tag = none then none else some (o.pinCore.getD o.core) }] ∧
      ∀ c, o.cls = some c → Retires s t op o c) ∧
    (∀ b, o.kind = .barrive ∨ o.kind = .gbarrive → s.blk? o.blk = some b → ∃ t b', exec (.cancelAnswer op false) s = .next t ∧ t.mem = s.mem ∧
      t.blk? o.blk = some b' ∧ b'.entries = b.entries ++ [{ o with pinCore := if o.tag = none then none else some (o.pinCore.getD o.core) }] ∧
      ∀ f h, s.frag? o.wid o.eid = some f → f.held = some h → t.frag? o.wid o.eid = some { f with held := some { h with stage := 1 } }) ∧
    (∀ b, o.kind = .tqpush ∨ o.kind = .tqpop → s.blk? o.blk = some b → Memory.wf s.mem = true → ∃ t b', exec (.cancelAnswer op false) s = .next t ∧
      t.waves = s.waves ∧ t.blk? o.blk = some b' ∧
      b'.entries = b.entries ++ [{ o with pinCore := if o.tag = none then none else some (o.pinCore.getD o.core) }] ∧
      ∀ a, a < o.header.home + 12 ∨ o.header.home + 16 ≤ a → getByte t.mem a = getByte s.mem a) ∧
    exec (.cancelAnswer op true) s = match o.kind with
      | .copy => exec (.copyLand op) s
      | .barrive => exec (.barriveApply op) s
      | .gbarrive => exec (.gbarriveApply op) s
      | .atomic => exec (.atomicExecute op) s
      | .tqpush => exec (.tqPushLanded op) s
      | _ => exec (.tqPopDeliver op) s)

/-- R384 to R389: deliveries, the save, the restore and DUMP. -/
def Sys2Proof.Claims.SaveAndRestore : Prop :=
  (∀ (s : State) (bid : Nat) (b : Block), s.blk? bid = some b → b.st = .quiescing → quiet s bid = true →
    (∀ n ∈ b.waves, (s.waveD n).intr = none) → b.waves.Nodup →
    let g := (blkCtx s b).1
    let c := (blkCtx s b).2
    let pc := ctxHandler s g c
    let us := regFld s (.gld g) (ctxOff c + 0x1C) 15 0
    (pc = 0 → ∃ t, exec (.preemptDelivery bid) s = .next t ∧ t.mem = s.mem ∧ t.waves = s.waves ∧
      t.blk? bid = some { b with st := .saving, image := some { fallback := true, area := areaOff s b } }) ∧
    (pc ≠ 0 → ∃ t, exec (.preemptDelivery bid) s = .next t ∧ t.mem = s.mem ∧ t.ops = s.ops ∧
      t.blk? bid = some { b with st := .saving, image := some { handler := true, area := areaOff s b }, budgetAt := some (s.now + 1000 * (if us = 0 then 50 else us)) } ∧
      (∀ n w, n ∈ b.waves → s.wave? n = some w → w.ended ≠ 0xFFFFFFFF#32 → Tab.wf w.vregs = true →
        ∃ w', t.wave? n = some w' ∧ DeliveredTo w w' (BitVec.ofNat 64 pc) false ∧ w'.sregs = w.sregs ∧
          ∀ r l, 2 ≤ r → l < 32 → w'.vreg r l = w.vreg r l) ∧
      (∀ n w, s.wave? n = some w → n ∉ b.waves ∨ w.ended = 0xFFFFFFFF#32 → t.wave? n = some w))) ∧
  (∀ (s : State) (wid : Nat) (w : Wave) (it : Intr), s.wave? wid = some w → w.intr = some it → it.cause = 0x18 → it.restore = false →
    it.hdone = 1 → it.saved = false → exec (.hdoneSave wid) s = .next (s.setWave wid { w with intr := some { it with saved := true } })) ∧
  (∀ (s : State) (bid at' : Nat) (b : Block), s.blk? bid = some b → b.st = .saving → b.budgetAt = some at' → at' ≤ s.now →
    allSaved s b = false → ∃ t b', exec (.saveBudgetExpiry bid) s = .next t ∧ t.mem = s.mem ∧ t.waves = s.waves ∧ t.blk? bid = some b' ∧
      b'.budgetAt = none ∧ b'.st = .saving ∧ ∀ im, b.image = some im → b'.image = some { im with fallback := true, handler := false }) ∧
  (∀ (s : State) (bid n : Nat) (b : Block) (im : Image), s.blk? bid = some b → b.st = .saving → b.image = some im → b.slotNo = some n →
    im.fallback = true ∨ allSaved s b = true → quiet s bid = true → b.waves.Nodup → Tab.wf s.waves = true →
    let g := (blkCtx s b).1
    let c := (blkCtx s b).2
    ∃ t b' im', exec (.blockSaved bid) s = .next t ∧ t.blk? bid = some b' ∧ b'.st = .saved ∧ b'.cores = [] ∧ b'.image = some im' ∧
      b'.lin = b.lin ∧ b'.slots = b.slots.filter (fun e => e.2.st != 4) ∧ im'.fallback = im.fallback ∧
      (∀ k ∈ b.waves, t.wave? k = none ∧ Tab.val? im'.waves k = some (s.waveD k).interrupted) ∧
      (∀ k, k ∉ b.waves → t.wave? k = s.wave? k) ∧
      ∀ h, (∀ m, m < areaOff s b + sectionBytes (handlerSections s b) → writableHome s g c (slotVa s g c n + m) = some (h + m)) →
        Memory.wf s.mem = true →
        getMem t.mem h 4 = 0x53365841 ∧
        getMem t.mem (h + 8) 4 = (areaOff s b + if im.fallback then 0 else sectionBytes (handlerSections s b)) % 2 ^ 32 ∧ getMem t.mem (h + 20) 4 = (s.cmdD b.cmd).seq % 2 ^ 32 ∧ getMem t.mem (h + 24) 4 = b.lin % 2 ^ 32) ∧
  (∀ (s : State) (wid : Nat) (w : Wave) (it : Intr) (b : Block), s.wave? wid = some w → w.intr = some it → it.cause = 0x18 →
    it.restore = true → it.hdone = 2 → s.blk? w.blk = some b →
    (∀ e ∈ s.ops, e.2.wid ≠ wid ∨ e.2.done = true ∨ e.2.lasting = true ∨ e.2.kind = .tred) →
    ∃ t w', exec (.hdoneRestore wid) s = .next t ∧ t.mem = s.mem ∧ t.ops = s.ops ∧ t.wave? wid = some w' ∧ w'.intr = none ∧
      (∀ e f, Tab.val? it.ents e = some (.frag f) → w'.frag? e = some { f with held := f.held.map fun h =>
        { h with limit := h.limit.map fun _ => s.now + 1000 * h.tcount } }) ∧ w'.sregs = it.sregs ∧ w'.sEmpty = it.sEmpty ∧ w'.vEmpty = it.vEmpty ∧ w'.replay = it.replay ∧
      (∀ n, n ≠ wid → t.wave? n = s.wave? n) ∧
      ((∀ k ∈ b.waves, k ≠ wid → (s.waveD k).intr = none) →
        t.blk? w.blk = some { b with st := if ∀ k ∈ b.waves, (t.waveD k).ended = 0xFFFFFFFF#32 then .finishing else .running,
                                     image := none, slotNo := none, budgetAt := none })) ∧
  (∀ (s : State) (cmd bid core q0 : Nat) (k : Cmd) (b : Block) (im : Image), s.cmd? cmd = some k → s.blk? bid = some b → b.st = .saved →
    b.image = some im → im.handler = false → b.entries = [] → Tab.wf im.waves = true → (k.shape b.stage).parts = 1 →
    placedBlocks s cmd = [] → plan s cmd k = some ([(bid, b)], [(bid, [(core, q0)])]) → firstServed s cmd k = true → barred s cmd k [(bid, b)] = false →
    ∃ t b', exec (.blockPlacement cmd) s = .next t ∧ OnlyEvicts s t ∧ t.blk? bid = some b' ∧ (b'.st = .running ∨ b'.st = .finishing) ∧ b'.cores = [core] ∧
      b'.lin = b.lin ∧ b'.slotNo = none ∧
      ∀ i wid w, i < (k.shape b.stage).waves → im.waves.find? (fun e => e.2.widx == i) = some (wid, w) →
        ∃ n, t.wave? wid = some { w.freshTimeouts s.now with core := core, quad := (q0 + i) % 4, born := n }) ∧
  (∀ (s : State) (vf g ctx lin slot : Nat), VfReq s vf g →
    let found := s.blocks.find? fun e => blkCtx s e.2 == (g, ctx) && e.2.lin == lin && e.2.st != .done && e.2.st != .pending
    let size := fun b => areaOff s b + if (s.ctxSt g ctx).drainRec = [] then 0 else 80
    (found = none → Replies (.dump vf ctx lin slot) s s vf 4) ∧
    (∀ n b, found = some (n, b) →
      (slot ∉ freeSlots s g ctx ∨ slotBytes s g ctx < size b → Replies (.dump vf ctx lin slot) s s vf 6) ∧
      (slot ∈ freeSlots s g ctx → size b ≤ slotBytes s g ctx → ∃ t, exec (.dump vf ctx lin slot) s = .next t ∧
        t.waves = s.waves ∧ t.blocks = s.blocks ∧ t.ops = s.ops ∧ Replied s t vf 0 ∧
        ∀ h, (∀ m, m < size b → writableHome s g ctx (slotVa s g ctx slot + m) = some (h + m)) →
          Memory.wf s.mem = true → getMem t.mem h 4 = 0x53365841 ∧ getMem t.mem (h + 4) 4 / 2 ^ 16 % 2 ^ 8 = 3)))

/-- R63 to R67, R383 to R389: pre-emption requests, deliveries, saves and restores, and DUMP. The status of a request that names no
command is the model's choice (notes/assumptions 69). -/
def Obligations.PreemptionAndSaves : Prop := PreemptionRequests ∧ SaveAndRestore

namespace Sys2Proof.Claims

open Sys2Proof Sys2Proof.Machine

/-! ## Lines, epochs, fetch, walks and traps (R202, R203, R215 to R225, R250, R369 to R378, R442) -/

/-- Lines of a core that satisfy `p`, written back: their dirty bytes are in memory, and they stay, clean. -/
def WrittenBack (s t : State) (core : Nat) (p : L1Line → Prop) [DecidablePred p] : Prop :=
  (t.coreSt core).l1 = (s.coreSt core).l1.map (fun e => if p e then { e with dirty := 0, valid := e.valid ||| e.dirty } else e) ∧
  t.mem = (s.coreSt core).l1.foldl (fun m e => if p e then landBytes m e else m) s.mem ∧
  t.waves = s.waves ∧ t.ops = s.ops ∧ t.blocks = s.blocks

/-- The only line of a core for a context and line address. -/
def OnlyLine (s : State) (core ctx line : Nat) (pre : List L1Line) (e : L1Line) (post : List L1Line) : Prop :=
  (s.coreSt core).l1 = pre ++ e :: post ∧ e.ctx = ctx ∧ e.va = line ∧ ∀ x, x ∈ pre ∨ x ∈ post → ¬ (x.ctx = ctx ∧ x.va = line)

/-- What a fault record and its delivery keep: memory, registers, waves but for one, and operations. -/
def FaultsContext (s t : State) (g c cause : Nat) (kind : Nat) : Prop :=
  (t.ctxSt g c).drainFrom = some s.now ∧
  ∃ ws, (t.ctxSt g c).drainRec = ws ∧ ws.headD 0 = BitVec.ofNat 32 (kind * 2 ^ 24 + cause)

/-- The causes that R127 delivers as context faults (class C), but for those no unit takes as it issues or performs. -/
def ClassC (cause : Nat) : Prop :=
  cause ∈ [0x01, 0x02, 0x03, 0x05, 0x06, 0x08, 0x0A, 0x0B, 0x0C, 0x0D, 0x0E, 0x10, 0x11, 0x12, 0x13, 0x14, 0x1A, 0x1B, 0x1C]

/-- What a fault record says of the unit that caused it (R372): KIND and CAUSE, PC, ADDR, ARG and LANES. -/
def RecordNames (ws : List Word) (kind cause : Nat) (pc : DWord) (addr : Nat) (arg lanes : Word) : Prop :=
  ws.length = 16 ∧ ws.getD 0 0 = BitVec.ofNat 32 (kind * 2 ^ 24 + cause) ∧ ws.getD 4 0 = pc.setWidth 32 ∧
  ws.getD 5 0 = (pc.extractLsb' 32 32) ∧ ws.getD 6 0 = BitVec.ofNat 32 addr ∧ ws.getD 7 0 = BitVec.ofNat 32 (addr / 2 ^ 32) ∧
  ws.getD 8 0 = arg ∧ ws.getD 11 0 = lanes ∧ ws.getD 14 0 = 0 ∧ ws.getD 15 0 = 0

end Sys2Proof.Claims

open Sys2Proof Sys2Proof.Machine Sys2Proof.Claims

/-- R202, R203, R211, R222, R359: write-backs and invalidations of lines, and landing probes. -/
def Sys2Proof.Claims.LinesAndProbes : Prop :=
  (∀ (s : State) (core ctx line : Nat) (pre post : List L1Line) (e : L1Line), OnlyLine s core ctx line pre e post →
    (e.dirty ≠ 0 → Memory.wf s.mem = true → ∀ i, i = Instr.storeLand core ctx line ∨ i = .l1DeadlineWriteBack core ctx line →
      ∃ t, exec i s = .next t ∧ t.waves = s.waves ∧ t.ops = s.ops ∧
        (t.coreSt core).l1 = pre ++ { e with dirty := 0, valid := e.valid ||| e.dirty } :: post ∧
        (∀ n, n < 128 → getByte t.mem (e.home + n) =
          if e.dirty.getLsbD n then e.data.extractLsb' (8 * n) 8 else getByte s.mem (e.home + n)) ∧
        ∀ a, a < e.home ∨ e.home + 128 ≤ a → getByte t.mem a = getByte s.mem a) ∧
    (∃ t, exec (.l1LineExpiry core ctx line) s = .next t ∧ t.mem = s.mem ∧ t.waves = s.waves ∧ t.ops = s.ops ∧
      (t.coreSt core).l1 = if e.dirty = 0 then pre ++ post else pre ++ { e with valid := e.dirty } :: post)) ∧
  (∀ (s : State) (n : Nat) (p : Probe), Tab.val? s.probes n = some p →
    (p.received = false → ∃ t, exec (.landingProbe n) s = .next t ∧ Tab.val? t.probes n = some { p with received := true } ∧
      WrittenBack s t p.target fun e => e.glade = p.glade) ∧
    (p.received = true → (∀ g ∈ unlandedTags s p.target p.glade, epochLater g p.epoch = true) → Tab.wf s.probes = true →
      ∃ t, exec (.landingProbeAnswer n) s = .next t ∧ t.mem = s.mem ∧ t.waves = s.waves ∧ t.ops = s.ops ∧ Tab.val? t.probes n = none ∧
        (p.target, p.epoch) ∈ (t.coreSt p.reader).answered ∧
        (∀ e ∈ (t.coreSt p.reader).l1, e.glade = p.glade → e.dirty ≠ 0 ∧ e.valid = e.dirty) ∧
        (∀ e ∈ (s.coreSt p.reader).l1, e.dirty ≠ 0 → e.glade = p.glade → { e with valid := e.dirty } ∈ (t.coreSt p.reader).l1) ∧
        ∀ e ∈ (t.coreSt p.reader).ic, e.glade ≠ p.glade)) ∧
  (∀ (s : State) (g core d : Nat), (s.gladeSt g).demand = some d → core ∈ (s.gladeSt g).cores ∨ core = 256 + g →
    ∃ t, exec (.writeBackDemand g core) s = .next t ∧ WrittenBack s t core fun e => e.glade = g ∧ epochLater e.tag d = false) ∧
  (∀ (s : State) (core ctx line : Nat), (∃ e ∈ (s.coreSt core).ic, e.ctx = ctx ∧ e.va = line) →
    ∃ t, exec (.icacheLineExpiry core ctx line) s = .next t ∧ t.mem = s.mem ∧ t.waves = s.waves ∧ (t.coreSt core).l1 = (s.coreSt core).l1 ∧
      ∀ e, e ∈ (t.coreSt core).ic ↔ e ∈ (s.coreSt core).ic ∧ ¬ (e.ctx = ctx ∧ e.va = line))

/-- R215, R216, R225, R360: advances of the epoch and the completed epoch. -/
def Sys2Proof.Claims.Epochs : Prop :=
  (∀ (s : State) (g : Nat) (seen : List Nat), (∀ c ∈ seen, c ∈ (s.gladeSt g).cores ∨ c = 256 + g) →
    let clk := coreClk s (256 + g)
    let grants := (s.gladeSt g).advance = true ∧ (s.gladeSt g).grantAt ≤ clk
    (grants ∨ ∃ c ∈ seen, (s.coreSt c).view ≠ (s.gladeSt g).epoch) →
    let e := if grants then ((s.gladeSt g).epoch + 1) % 2 ^ 48 else (s.gladeSt g).epoch
    ∃ t, exec (.epochAdvance g seen) s = .next t ∧ t.mem = s.mem ∧ t.waves = s.waves ∧ t.ops = s.ops ∧ (t.gladeSt g).epoch = e ∧
      (grants → (t.gladeSt g).advance = false ∧ (t.gladeSt g).grantAt = clk + 32) ∧
      (¬ grants → (t.gladeSt g).advance = (s.gladeSt g).advance ∧ (t.gladeSt g).grantAt = (s.gladeSt g).grantAt) ∧ (∀ c ∈ seen, t.coreSt c = { s.coreSt c with view := e }) ∧ (∀ c, c ∉ seen → t.coreSt c = s.coreSt c) ∧
      ∀ p, p ∈ (t.gladeSt g).poison ↔ p ∈ (s.gladeSt g).poison ∧ (e + 2 ^ 48 - p.hi) % 2 ^ 48 < 2 ^ 46) ∧
  (∀ (s : State) (g : Nat) (seen : List Nat), (∀ c ∈ seen, c ∈ (s.gladeSt g).cores ∨ c = 256 + g) → Tab.wf s.regs = true →
    let e := epochMax (completedEpoch s g) (s.gladeSt g).completed
    ∃ t, exec (.completedEpochPublish g seen) s = .next t ∧ t.mem = s.mem ∧ t.waves = s.waves ∧ t.ops = s.ops ∧
      (t.gladeSt g).completed = e ∧ (e < 2 ^ 64 → reg64 t .tpr (0x100 + 8 * g) = e) ∧
      ∀ c ∈ seen, t.coreSt c = { s.coreSt c with completed := epochMax e (s.coreSt c).completed }) ∧
  (∀ (s : State) (core g : Nat), (s.coreSt core).view < 2 ^ 48 →
    (∀ t ∈ unlandedTags s core g, t < 2 ^ 48 ∧ ((s.coreSt core).view + 2 ^ 48 - t) % 2 ^ 48 < 2 ^ 46) →
    let l := landedEpoch s core g
    l < 2 ^ 48 ∧ (unlandedTags s core g = [] → l = ((s.coreSt core).view + 2 ^ 48 - 1) % 2 ^ 48) ∧
    (∀ t ∈ unlandedTags s core g, epochLater t l = true) ∧
    (∀ e, e < 2 ^ 48 → epochLater (s.coreSt core).view e = true → ((s.coreSt core).view + 2 ^ 48 - e) % 2 ^ 48 < 2 ^ 46 →
      (∀ t ∈ unlandedTags s core g, epochLater t e = true) → epochLater e l = false))

/-- R110, R374, R376, R378, R442: the fetch of a line, and the end of a walk. -/
def Sys2Proof.Claims.FetchAndWalks : Prop :=
  (∀ (s : State) (wid eid va : Nat) (w : Wave) (f : Frag), s.wave? wid = some w → w.frag? eid = some f →
    let core := w.coreNo wid
    fetchUnit unitLen (liveLines s core) w.glade (memCtx w) f.pc.toNat = .error va →
    let base := va / 128 * 128
    (2 ^ 52 ≤ va → exec (.instructionFetch wid eid) s = .next (takeTrap s wid eid 0x06 0 va 0)) ∧
    (va < 2 ^ 52 → w.control = true → ctxState s w.glade 0 ≠ 1 →
      exec (.instructionFetch wid eid) s = .next (takeTrap s wid eid 0x08 0 va aFetch)) ∧
    (∀ p, va < 2 ^ 52 → (w.control = true → ctxState s w.glade 0 = 1) → tlbLookup s core w.glade (memCtx w) va = some p →
      (p.x = false → exec (.instructionFetch wid eid) s = .next (takeTrap s wid eid 0x08 0 va aFetch)) ∧
      (p.x = true → 256 ≤ meshRequests s core → exec (.instructionFetch wid eid) s = .refused (.notEnabled "INSTRUCTION_FETCH")) ∧
      (p.x = true → meshRequests s core < 256 → ∃ t, exec (.instructionFetch wid eid) s = .next t ∧ t.mem = s.mem ∧ t.waves = s.waves ∧ t.ops = s.ops ∧
        (t.coreSt core).l1 = (s.coreSt core).l1 ∧
        (∃ e, ilineFind (t.coreSt core).ic w.glade (memCtx w) va = some e ∧ e.va = base ∧ e.filled = s.now ∧
          ∀ n, n < 128 → lineByte e.data (base + n) = BitVec.ofNat 8 (getMem s.mem (p.homeOf base + n) 1)) ∧
        ∀ g c a, ¬ (g = w.glade ∧ c = memCtx w ∧ a / 128 * 128 = base) →
          ilineFind (t.coreSt core).ic g c a = ilineFind (s.coreSt core).ic g c a)) ∧
    (va < 2 ^ 52 → (w.control = true → ctxState s w.glade 0 = 1) → tlbLookup s core w.glade (memCtx w) va = none →
      ∃ t k, exec (.instructionFetch wid eid) s = .next t ∧ t.mem = s.mem ∧ k ∈ (t.coreSt core).walks ∧ k.wid = wid ∧ k.eid = eid ∧
        k.va / 2 ^ 16 = va / 2 ^ 16 ∧ t.frag? wid eid = some { f with stall := .xlateMiss })) ∧
  (∀ (s : State) (core ctx page : Nat) (k : Walk) (ks : List Walk),
    (s.coreSt core).walks.filter (fun k => k.ctx == ctx && k.va / 2 ^ 16 == page) = k :: ks →
    (∀ p, walkPage s k.glade ctx k.va = some p → ∃ t, exec (.tlbWalkDone core ctx page) s = .next t ∧ t.mem = s.mem ∧ t.waves = s.waves ∧
      t.ops = s.ops ∧ tlbLookup t core k.glade ctx k.va = some p ∧ (t.coreSt core).tlb.length ≤ 256 ∧
      ∀ x ∈ (t.coreSt core).walks, ¬ (x.ctx = ctx ∧ x.va / 2 ^ 16 = page)) ∧
    (∀ w f, walkPage s k.glade ctx k.va = none → ks = [] → s.wave? k.wid = some w → w.frag? k.eid = some f → f.stall = .xlateMiss →
      w.restoring = false → (if w.control then 0 else w.ctx) = ctx → w.glade = k.glade →
      ∃ t w' e, exec (.tlbWalkDone core ctx page) s = .next t ∧ t.mem = s.mem ∧ t.ops = s.ops ∧ t.wave? k.wid = some w' ∧
        e.id ∈ w'.replay ∧ (∀ n ∈ w'.replay, n = e.id ∨ n ∈ w.replay) ∧ e ∈ (t.gladeSt k.glade).faultq ∧ e.ctx = ctx ∧ e.va / 2 ^ 16 = page ∧ e.cow = false ∧
        (∀ n, n ≠ k.wid → t.wave? n = s.wave? n) ∧
        ((∀ x ∈ (s.gladeSt k.glade).faultq, ¬ (x.ctx = ctx ∧ x.va / 2 ^ 16 = page ∧ x.cow = false)) →
          e.va = k.va ∧ e.kind = k.kind ∧ e.wid = k.wid ∧ e.pc = f.pc)))

/-- R21, R202, R203, R211, R215, R216, R222, R225, R359, R360: cache lines, landing probes and epochs. -/
def Obligations.LinesProbesAndEpochs : Prop := LinesAndProbes ∧ Epochs ∧ FetchAndWalks

/-- R62, R127, R154, R250, R265, R369 to R373, R385: what taking a trap does, by its cause's class and the wave's state; block
termination; fault records; and the traps of waits whose limit has passed. -/
def Sys2Proof.Claims.TakingATrap : Prop :=
  (∀ (s : State) (wid eid cause akind addr : Nat) (arg : Word) (w : Wave) (f : Frag), s.wave? wid = some w → w.frag? eid = some f →
    let t := takeTrap s wid eid cause arg addr akind
    let classR := cause = 0x07 ∨ cause = 0x09
    let classU := cause = 0x04 ∨ cause = 0x0F
    (classR → w.restoring = false → t.mem = s.mem ∧ t.ops = s.ops ∧ ∃ w' e, t.wave? wid = some w' ∧ w' = { w with replay := w'.replay } ∧ e.id ∈ w'.replay ∧ (∀ n ∈ w.replay, n ∈ w'.replay) ∧
      e ∈ (t.gladeSt w.glade).faultq ∧ e.ctx = memCtx w ∧ e.va / 2 ^ 16 = addr / 2 ^ 16 ∧ e.cow = (cause == 0x09)) ∧
    (ClassC cause ∨ classU → w.control = true → w.glade = wid → w.intr = none → Tab.wf s.regs = true →
      t.wave? wid = some { w with haltCc := true } ∧ t.ops = s.ops ∧ reg t .ccr (0x100 + 16 * wid) = BitVec.ofNat 32 (0x100 + cause) ∧
        reg64 t .ccr (0x108 + 16 * wid) = f.pc.toNat % 2 ^ 52 ∧
        ((∀ c, c < 64 → ctxState s wid c ≠ 1) → t.mem = s.mem ∧ t.msix = s.msix) ∧
        ∀ c, c < 64 → ctxState s wid c = 1 → (∀ d, d < 64 → d ≠ c → ctxState s wid d ≠ 1) →
          ∃ ws, RecordNames ws 4 cause f.pc addr arg f.active ∧ t.mem = (writeFaultRecord s wid c ws).mem ∧
            t.msix = (writeFaultRecord s wid c ws).msix) ∧
    (w.control = false → w.intr = none →
      (classU → w.uhandler ≠ 0 → f.trap.inHandler = false → t.mem = s.mem ∧ t.ops = s.ops ∧
        t.frag? wid eid = some { f with
          pc := w.uhandler, pending := none, held := none, sleepEnd := none, skipPred := false,
          trap := { inHandler := true, rpc := f.pc, savedRj := f.pending, cause := BitVec.ofNat 8 cause, tpc := f.pc, targ := arg, skip := f.skipPred } } ∧
        (∀ e, e ≠ eid → t.frag? wid e = s.frag? wid e) ∧ ∃ w', t.wave? wid = some w' ∧ w'.sregs = w.sregs ∧ w'.vregs = w.vregs) ∧
      (ClassC cause ∨ (classU ∧ (w.uhandler = 0 ∨ f.trap.inHandler = true)) →
        (ctxRuns s w.glade w.ctx = false → t = s) ∧
        (ctxRuns s w.glade w.ctx = true → t.waves = s.waves ∧ t.mem = s.mem ∧ t.ops = s.ops ∧ FaultsContext s t w.glade w.ctx cause 1 ∧
          RecordNames (t.ctxSt w.glade w.ctx).drainRec 1 cause f.pc (if classU then 0 else addr) arg f.active))) ∧
    (∀ it, w.control = false → w.intr = some it →
      (ClassC cause ∨ classU → it.cause = 0x18 → it.restore = false → t.waves = s.waves ∧ t.mem = s.mem ∧ t.regs = s.regs ∧ t.glades = s.glades ∧
        ∀ b im, s.blk? w.blk = some b → b.image = some im →
          t.blk? w.blk = some { b with budgetAt := none, image := some { im with fallback := true, handler := false } }) ∧
      (((ClassC cause ∨ classU) ∧ it.cause ≠ 0x18) ∨ ((ClassC cause ∨ classU ∨ classR) ∧ it.cause = 0x18 ∧ it.restore = true) →
        (ctxRuns s w.glade w.ctx = false → t = s) ∧
        (ctxRuns s w.glade w.ctx = true → t.waves = s.waves ∧ t.mem = s.mem ∧ FaultsContext s t w.glade w.ctx cause 1 ∧
          RecordNames (t.ctxSt w.glade w.ctx).drainRec 1 cause f.pc addr arg f.active)))) ∧
  (∀ (s : State) (o : Op) (cause addr : Nat) (w : Wave), s.wave? o.wid = some w → w.control = false → w.intr = none →
    ClassC cause → ctxRuns s w.glade w.ctx = true →
    let t := opTrap s o cause addr
    t.waves = s.waves ∧ t.mem = s.mem ∧ t.ops = s.ops ∧ FaultsContext s t w.glade w.ctx cause 1 ∧
    RecordNames (t.ctxSt w.glade w.ctx).drainRec 1 cause (if cause = 0x0A then 0 else o.pc) addr 0 o.active) ∧
  (∀ (s : State) (o : Op) (cause : Nat) (b : Block), s.blk? o.blk = some b →
    let t := terminateBlock s o cause
    (b.terminated = true → t = s) ∧
    (b.terminated = false → t.waves = s.waves ∧ t.ops = s.ops ∧ t.blk? o.blk = some { b with terminated := true, since := s.now } ∧
      (∀ k, s.cmd? b.cmd = some k → t.cmd? b.cmd = some { k with firstTerm := some (k.firstTerm.getD cause) }) ∧
      let g := (s.cmdD b.cmd).glade
      let c := (s.waveD (b.waves.headD 0)).ctx
      (ctxRuns s g c = false → t.mem = s.mem ∧ t.msix = s.msix ∧ t.regs = s.regs) ∧
      (ctxRuns s g c = true → ∃ ws, RecordNames ws 2 cause (if cause = 0x0A ∨ cause = 0x15 then 0 else o.pc) 0 0 o.active ∧
        t.mem = (writeFaultRecord s g c ws).mem ∧ t.regs = (writeFaultRecord s g c ws).regs ∧ t.msix = (writeFaultRecord s g c ws).msix))) ∧
  (∀ (s : State) (o : Op), ((∃ it, (s.waveD o.wid).intr = some it ∧ it.cause = 0x18) → o.wait = none → blockTrap s o 0x15 = opTrap s o 0x15 0) ∧
    ((∀ it, (s.waveD o.wid).intr = some it → it.cause ≠ 0x18) ∨ o.wait ≠ none → blockTrap s o 0x15 = terminateBlock s o 0x15)) ∧
  (∀ (s : State) (w : Wave) (f : Frag), w.control = false → (s.blkD w.blk).terminated = true → blocked s w f ≠ none) ∧
  (∀ (s : State) (bid : Nat) (b : Block), s.blk? bid = some b → b.terminated = true → b.st ≠ .done →
    (blockBusy s bid = true → s.now < b.since + 4000 → exec (.blockDone bid) s = .refused (.notEnabled "BLOCK_DONE")) ∧
    (blockBusy s bid = false ∨ b.since + 4000 ≤ s.now → Tab.wf s.waves = true → Tab.wf s.blocks = true →
      ∃ t b', exec (.blockDone bid) s = .next t ∧ t.mem = s.mem ∧ t.blk? bid = some b' ∧ b'.st = .done ∧ b'.cores = [] ∧ b'.slots = [] ∧
        (∀ e ∈ t.ops, e.2.blk = bid → e.2.lasting = true) ∧ (∀ n, t.wave? n = if n ∈ b.waves then none else s.wave? n) ∧
        ∀ k c, s.cmd? b.cmd = some k → k.isPass = false → k.st = .active → k.firstTerm = some c →
          (∀ x ∈ cmdBlocks s b.cmd, x.1 = bid ∨ x.2.st = .done) →
          ∃ k', t.cmd? b.cmd = some k' ∧ k'.st = .ending ∧ k'.status = 7 ∧ k'.detail = c)) ∧
  (∀ (s : State) (g c : Nat) (ws : List Word), c < 64 → ws.length = 16 → Tab.wf s.regs = true → Memory.wf s.mem = true →
    let o := 0x3000 + 64 * c
    let size := (reg s (.gld g) (o + 0x28)).toNat
    let head := reg s (.gld g) (o + 0x2C)
    let tail := reg s (.gld g) (o + 0x30)
    let slot := reg64 s (.gld g) (o + 0x20) + 64 * (tail.toNat % size)
    let t := writeFaultRecord s g c ws
    let lost := reg t (.gld g) (o + 0x34) = reg s (.gld g) (o + 0x34) + 1 ∧ reg t (.gld g) (o + 0x30) = tail ∧ t.mem = s.mem ∧ t.msix = s.msix
    ((tail - head).toNat = size → lost) ∧ (writableHome s g c slot = none → lost) ∧
    ((s.ctxSt g c).recordLost = true → lost ∧ (t.ctxSt g c).recordLost = false) ∧
    (∀ h, (s.ctxSt g c).recordLost = false → (tail - head).toNat ≠ size → writableHome s g c slot = some h →
      reg t (.gld g) (o + 0x30) = tail + 1 ∧ reg t (.gld g) (o + 0x34) = reg s (.gld g) (o + 0x34) ∧
      t.msix = ((s.ctxSt g c).vf, 0) :: s.msix ∧ (∀ n, n < 16 → getMem t.mem (h + 4 * n) 4 = (ws.getD n 0).toNat) ∧
      ∀ a, a < h ∨ h + 64 ≤ a → getByte t.mem a = getByte s.mem a)) ∧
  (∀ (s : State) (wid eid : Nat) (w : Wave) (f : Frag) (h : Held), s.wave? wid = some w → w.frag? eid = some f → f.held = some h →
    h.due s.now = true → f.halt = none → waitMet s wid w h = false →
    w.control = true ∨ w.intr ≠ none ∨ (s.blkD w.blk).st = .running →
    let went := fun s' : State => exec (.waitTimeout wid eid) s =
      .next (stepTrap f wid eid (takeTrap s' wid eid 0x0F (BitVec.ofNat 32 h.tcount) 0 0))
    (h.kind ≤ 5 ∨ 9 ≤ h.kind ∨ h.stage ≠ 0 → went s) ∧ (h.kind = 8 → h.stage = 0 → went (leaveQueue s wid h.op)) ∧
    (h.kind = 6 ∨ h.kind = 7 → h.stage = 0 → went (leavePhase s wid f.memb h.op)))

/-- R62, R153 to R155, R250, R265, R369 to R373, R385: taking a trap by its cause, user handlers and their return. -/
def Obligations.TrapsAndHandlers : Prop := UserHandler ∧ TakingATrap

namespace Sys2Proof.Claims

open Sys2Proof Sys2Proof.Machine

/-! ## Errors, slices, cores, power and clearing (R210, R315, R353, R361 to R367, R390, R393, R394, R437, R438) -/

/-- The times of the events of a source in the last LEN ms, the present one among them. -/
def countedNow (s : State) (src : Nat) (ts : List Nat) : List Nat := ts.filter fun t => decide (s.now < t + errLen s src * 1000000)

/-- An event of the fabric that leaves memory, waves and operations as they were. -/
def FabricStep (i : Instr) (s : State) (k : State → Prop) : Prop := ∃ t, exec i s = .next t ∧ Quietly s t ∧ k t

/-- What becomes of a source that turns lasting, and of one that does not (R362, R363). -/
def LastingNow (s t : State) (src : Nat) (yes : Prop) : Prop :=
  (yes → src ∉ s.lasting → src ∉ s.acted → regFld t .erw (0x1000 + 8 * src) 31 31 = 1 ∧
    (src < 0x190 → t.lasting = s.lasting ++ [src]) ∧ (0x190 ≤ src → src ∈ t.acted ∧ t.lasting = s.lasting)) ∧
  (¬ yes ∨ src ∈ s.lasting ∨ src ∈ s.acted → t.lasting = s.lasting ∧ t.acted = s.acted)

/-- The slice that takes a bucket of `n`: enabled, of the same cache chiplet where one is, with the fewest buckets, the
lowest number of equals (R365). -/
def TakesBucket (s : State) (n m : Nat) : Prop :=
  let ok := fun k => k < 192 ∧ sliceEn s k = true ∧ k ≠ n
  let same := fun k => slicePhys s k / 50 = slicePhys s n / 50
  ok m ∧ ((∃ k, ok k ∧ same k) → same m) ∧
  ∀ k, ok k → (same m → same k) → (bucketsOf s m).length < (bucketsOf s k).length ∨
    ((bucketsOf s m).length = (bucketsOf s k).length ∧ m ≤ k)

/-- A core's clock after a step down of 25 MHz: at the floor its issue is gated instead (R438). -/
def steppedDown (now : Nat) (c : CoreSt) : CoreSt :=
  if 500 < c.mhz then { c with mhz := c.mhz - 25, ticks := c.ticks + c.mhz * (now - c.clkFrom), clkFrom := now }
  else { c with gated := true }

/-- The other blocks that stand with a block of a cooperative grid or of a team group, and must leave with it (R47, R61). -/
def Mates (s : State) (k : Cmd) (bid : Nat) (b : Block) : List (Nat × Block) :=
  (cmdBlocks s b.cmd).filter fun e => vacatable e.2 && e.1 != bid && !k.isPass && (k.coop || (groupOf k b.lin).contains e.2.lin)

/-- Save slots suffice for the blocks that must leave. -/
def MatesFit (s : State) (k : Cmd) (bid : Nat) (b : Block) : Prop :=
  (Mates s k bid b).length ≤ (freeSlots s k.glade k.ctx).length ∧
  ∀ e ∈ Mates s k bid b, imageBytes s e.2 ≤ slotBytes s k.glade k.ctx

/-- An IDEMP block goes back to PENDING; the blocks that stand with it are pre-empted, and their grid is SUSPENDED (R47, R61). -/
def Restarted (s t : State) (k : Cmd) (bid : Nat) (b : Block) : Prop :=
  (∃ x, t.blk? bid = some x ∧ x.st = .pending ∧ x.waves = [] ∧ x.cores = [] ∧ x.lin = b.lin ∧ x.cmd = b.cmd) ∧
  (∀ e ∈ Mates s k bid b, ∃ x, t.blk? e.1 = some x ∧ x.st = .quiescing ∧ x.slotNo ≠ none) ∧
  (Mates s k bid b = [] → t.mem = s.mem) ∧
  (k.isPass = false → k.coop = true ∨ 1 < (groupOf k b.lin).length → ∀ k', s.cmd? b.cmd = some k' → (t.cmdD b.cmd).st = .suspended)

/-- A die is at 100 °C or more, or has been and not every die is below 95 °C since (R438). -/
def Hot (s : State) : Prop := s.hot = true ∨ ∃ e ∈ s.temps, 100 ≤ e.2

/-- Every die is below 95 °C. -/
def Cool (s : State) : Prop := regFld s .mgt 0x20 15 8 < 95 ∧ ∀ e ∈ s.temps, e.2 < 95

/-- No report of its kind has come in the present ms (R427, R437, R438). -/
def FirstInMs (s : State) (k : Nat) : Prop := Tab.val? s.msAt k ≠ some (s.now / 1000000)

end Sys2Proof.Claims

open Sys2Proof Sys2Proof.Machine Sys2Proof.Claims

/-- R361 to R363, R66, R225, R262, R348, R373: errors and what becomes lasting. -/
def Sys2Proof.Claims.ErrorEvents : Prop :=
  (∀ (s : State) (src loc : Nat), src < 0x19D → loc < 2 ^ 32 → Tab.wf s.regs = true →
    let e := errSt s src
    let ts := s.now :: e.times.take 65535
    let runs := if loc ∈ e.seen then Tab.valD e.runs loc 0 else Tab.valD e.runs loc 0 + 1
    FabricStep (.correctableError src loc) s fun t => reg t .erw (0x1000 + 8 * src + 4) = BitVec.ofNat 32 loc ∧
      fld (errWord t src) 15 0 = min 65535 (countedNow s src ts).length ∧ fld (errWord t src) 29 28 = min 3 runs ∧
      (errSt t src).times = ts ∧ LastingNow s t src (errThresh s src < (countedNow s src ts).length ∨ 3 ≤ runs)) ∧
  (∀ (s : State) (src : Nat), src < 0x19D → Tab.wf (Tab.valD s.errors src {}).runs = true →
    let e := Tab.valD s.errors src {}
    let p := (s.now - s.boot.since) / (1000000 * errLen s src)
    let same := e.since = s.boot.since ∧ e.len = errLen s src
    ¬ (same ∧ e.period = p) → FabricStep (.errorPeriodEnd src) s fun t => (errSt t src).seen = [] ∧ (errSt t src).times = e.times ∧
      (errSt t src).period = p ∧ (errSt t src).since = s.boot.since ∧ (errSt t src).len = errLen s src ∧
      (∀ k, Tab.valD (errSt t src).runs k 0 = if same ∧ e.period + 1 = p ∧ k ∈ e.seen then Tab.valD e.runs k 0 else 0) ∧
      fld (errWord t src) 15 0 = min 65535 (countedNow s src e.times).length ∧ t.lasting = s.lasting ∧ t.regs = s.regs) ∧
  (∀ (s : State) (src loc : Nat), src < 0x19D → Tab.wf s.regs = true →
    (FabricStep (.uncorrectableError src loc 0) s fun t => regFld t .erw (0x1000 + 8 * src) 30 30 = 1 ∧ LastingNow s t src True) ∧
    (∀ c g, g < 48 → c < 64 → FabricStep (.uncorrectableError src loc (2 ^ 40 + 64 * g + c)) s fun t =>
      (t.ctxSt g c).recordLost = true) ∧
    (∀ v w, v < 2 ^ 40 → (v < 512 ∨ 560 ≤ v) → v ≠ 0 → s.op? v = none → s.cmd? v = none → s.wave? v = some w → w.control = false →
      let k := s.cmdD w.cmd
      let b := s.blkD w.blk
      (k.idemp = false ∨ b.published = true → w.intr = none → ctxRuns s w.glade w.ctx = true →
        ∃ t, exec (.uncorrectableError src loc v) s = .next t ∧ t.mem = s.mem ∧ t.waves = s.waves ∧
          FaultsContext s t w.glade w.ctx 0x0A 1) ∧
      (k.idemp = true → b.published = false → w.intr = none → s.blk? w.blk = some b → b.cmd = w.cmd → Tab.wf s.blocks = true →
        (MatesFit s k w.blk b → ∃ t, exec (.uncorrectableError src loc v) s = .next t ∧ Restarted s t k w.blk b) ∧
        (¬ MatesFit s k w.blk b → ctxRuns s w.glade w.ctx = true → ∃ t, exec (.uncorrectableError src loc v) s = .next t ∧
          t.mem = s.mem ∧ t.waves = s.waves ∧ FaultsContext s t w.glade w.ctx 0x0A 1))) ∧
    (∀ g w, g < 48 → s.wave? g = some w → w.control = true → w.glade = g →
      ∃ t, exec (.uncorrectableError src loc (512 + g)) s = .next t ∧ t.wave? g = some { w with haltCc := true }) ∧
    (∀ v o, s.op? v = some o → v ≠ 0 → v < 2 ^ 40 → (v < 512 ∨ 560 ≤ v) → o.done = false → o.kind ≠ .tile → o.lasting = false →
      Tab.wf s.ops = true →
      let w := s.waveD o.wid
      let b := s.blkD o.blk
      let k := s.cmdD b.cmd
      let ends := o.kind = .copy ∨ o.kind = .wload ∨ o.kind = .trace
      (ends → b.terminated = false → w.intr = none → ∃ t, exec (.uncorrectableError src loc v) s = .next t ∧ t.op? v = none ∧ t.waves = s.waves ∧
        (∀ b', s.blk? o.blk = some b' → t.blk? o.blk = some { b' with terminated := true, since := s.now }) ∧
        ∀ k', s.cmd? b.cmd = some k' → t.cmd? b.cmd = some { k' with firstTerm := some (k'.firstTerm.getD 0x15) }) ∧
      (¬ ends → w.control = true → w.glade = o.wid → s.wave? o.wid = some w → ∃ t, exec (.uncorrectableError src loc v) s = .next t ∧
        t.op? v = none ∧ t.wave? o.wid = some { w with haltCc := true }) ∧
      (¬ ends → w.control = false → k.idemp = false ∨ b.published = true → w.intr = none → ctxRuns s w.glade w.ctx = true →
        ∃ t, exec (.uncorrectableError src loc v) s = .next t ∧ t.op? v = none ∧ t.waves = s.waves ∧ t.mem = s.mem ∧
          FaultsContext s t w.glade w.ctx 0x0A 1) ∧
      (¬ ends → w.control = false → k.idemp = true → b.published = false → w.intr = none → s.blk? o.blk = some b → Tab.wf s.blocks = true →
        (MatesFit s k o.blk b → ∃ t, exec (.uncorrectableError src loc v) s = .next t ∧ t.op? v = none ∧ Restarted s t k o.blk b) ∧
        (¬ MatesFit s k o.blk b → ctxRuns s w.glade w.ctx = true → ∃ t, exec (.uncorrectableError src loc v) s = .next t ∧ t.op? v = none ∧
          t.mem = s.mem ∧ t.waves = s.waves ∧ FaultsContext s t w.glade w.ctx 0x0A 1))) ∧
    (∀ v k, s.op? v = none → s.cmd? v = some k → v ≠ 0 → v < 2 ^ 40 → (v < 512 ∨ 560 ≤ v) →
      (k.st = .reading ∨ k.st = .queued → FabricStep (.uncorrectableError src loc v) s fun t => t.cmd? v = some { k with readFail := true, faultEnt := none }) ∧
      (k.st = .active → k.isPass = true → EndsNow (.uncorrectableError src loc v) s v 7 0x0A))) ∧
  (∀ (s : State) (src : Nat), src ∈ s.lasting → 0xC8 ≤ src → src < 0xE0 →
    FabricStep (.rowSparing src) s fun t => src ∉ t.lasting ∧ src ∈ t.acted)

/-- R210, R315, R364 to R367: windthrow, its bucket moves, and way drains. -/
def Sys2Proof.Claims.Windthrow : Prop :=
  (∀ (s : State) (n p : Nat) (rest : List Nat), s.lasting.filter (fun x => decide (x < 0xC8)) = p :: rest → s.wind = none →
    sliceEn s n = true → slicePhys s n = p → n < 256 → Tab.wf s.regs = true →
    FabricStep (.windthrow n) s fun t => t.wind = some { slice := n, phys := p } ∧ p ∉ t.lasting ∧ p ∈ t.failedSlices ∧
      regFld t .slc 0 31 31 = 1 ∧ regFld t .slc 0 30 28 = 1 ∧ regFld t .slc 0 23 16 = n ∧
      regFld t .slc 0 4 0 = min 31 (bucketsOf s n).length) ∧
  (∀ (s : State) (w : WindSt), s.wind = some w → w.step ≤ 6 → 1 ≤ w.step → Tab.wf s.regs = true →
    (∀ src loc l, src < 0x19D → w.step = 2 → lineOfSlice s w.phys l = true →
      FabricStep (.uncorrectableError src loc (2 ^ 41 + l)) s fun t => ∀ k, k ∈ t.marked ↔ k ∈ s.marked ∨ k = l) ∧
    (w.step < 6 → (w.step = 5 → bucketsOf s w.slice = []) →
      ∃ t, exec .windthrowStepDone s = .next t ∧ t.waves = s.waves ∧ t.mem = s.mem ∧ t.marked = s.marked ∧
      t.sync = s.sync.map (fun e => if w.step = 3 ∧ e.phys = w.phys then { e with phys := homeSlice (movedMap s w.slice) e.home } else e) ∧
      t.wind = some { w with step := w.step + 1 } ∧ regFld t .slc 0 31 31 = 1 ∧ regFld t .slc 0 30 28 = w.step + 1 ∧
      (w.step = 4 → Tab.wf s.canopy = true → ∀ e, e / 16 / 2048 = w.phys → (cnpEnt t e).st = 0)) ∧
    (w.step = 6 → 1 ≤ slicesOn s → slicesOn s ≤ 192 → w.slice < slicesOn s →
      let h := slicesOn s - 1
      FabricStep .windthrowStepDone s fun t => t.wind = none ∧ regFld t .slc 0 31 31 = 0 ∧ regFld t .slc 0 30 28 = 0 ∧
        slicesOn t = h ∧ sliceEn t h = false ∧ (w.slice ≠ h → slicePhys t w.slice = slicePhys s h) ∧
        (∀ b, b < 4096 → bucketOwner t b = if w.slice ≠ h ∧ bucketOwner s b = h then w.slice else bucketOwner s b) ∧
        regFld t .slc 0 15 8 = min 255 (regFld s .slc 0 15 8 + 1))) ∧
  (∀ (s : State) (w : WindSt) (b : Nat) (rest : List Nat), s.wind = some w → w.step = 5 → bucketsOf s w.slice = b :: rest →
    Tab.wf s.regs = true →
    (∀ m, moveTarget s w.slice = some m → m < 192 → ∃ t, exec .bucketMove s = .next t ∧ t.mem = s.mem ∧ t.waves = s.waves ∧
      bucketOwner t b = m ∧ ∀ c, c < 4096 → c ≠ b → bucketOwner t c = bucketOwner s c)) ∧
  (∀ (s : State) (n m : Nat), moveTarget s n = some m → TakesBucket s n m) ∧
  (∀ (s : State) (g n : Nat), regFld s (.gld g) 0x1104 31 31 = 1 → sliceEn s n = true →
    slicePhys s n ∉ (s.gladeSt g).drained → Tab.wf s.regs = true →
    FabricStep (.wayDrainSliceDone g n) s fun t =>
      (t.gladeSt g).drained = slicePhys s n :: (s.gladeSt g).drained ∧
      regFld t (.gld g) 0x1104 23 16 = min 192 ((s.gladeSt g).drained.length + 1) ∧
      ((∀ k, k < 192 → sliceEn s k = true → slicePhys s k = slicePhys s n ∨ slicePhys s k ∈ (s.gladeSt g).drained) →
        regFld t (.gld g) 0x1104 31 31 = 0 ∧ regFld t (.gld g) 0x1104 15 0 = 0) ∧
      ((∃ k, k < 192 ∧ sliceEn s k = true ∧ slicePhys s k ≠ slicePhys s n ∧ slicePhys s k ∉ (s.gladeSt g).drained) →
        regFld t (.gld g) 0x1104 31 31 = 1))

/-- R66, R210, R225, R262, R315, R348, R361 to R367, R373: errors, and slices that retire. -/
def Obligations.ErrorsAndWindthrow : Prop := ErrorEvents ∧ Windthrow

/-- R37, R390, R437, R438: removal of a core, power and temperature. -/
def Obligations.CoresAndPower : Prop :=
  (∀ (s : State) (core : Nat), core ∈ s.boot.cores → Tab.wf s.regs = true → Tab.wf s.glades = true →
    let src := 0xE0 + physCore s core
    let drops := fun t : State => core ∉ t.boot.cores ∧ physCore s core ∈ t.failedCores ∧
      regFld t .mgt 0x10 15 8 = regFld s .mgt 0x10 15 8 - 1 ∧ regFld t .mgt 0x10 31 31 = 1 ∧ t.waves = s.waves
    (src ∈ s.lasting → (∀ g, core ∉ (s.gladeSt g).cores) → ∃ t, exec (.coreRemoval core) s = .next t ∧ src ∉ t.lasting ∧
      src ∈ t.acted ∧ drops t) ∧
    (∀ g, src ∈ s.lasting → gladeOf s core = some g → (∀ e ∈ s.cmds, e.2.glade = g → vacated s e.1 e.2 [core] = []) →
      coreEmpty s core = false →
      FabricStep (.coreRemoval core) s fun t => src ∉ t.lasting ∧ src ∈ t.acted ∧ core ∈ (t.gladeSt g).removing ∧
        core ∈ t.boot.cores) ∧
    (∀ g, src ∈ s.lasting ∨ src ∈ s.acted → gladeOf s core = some g →
      (∀ e ∈ s.cmds, e.2.glade = g → vacated s e.1 e.2 [core] = []) → coreEmpty s core = true →
      ∃ t, exec (.coreRemoval core) s = .next t ∧ drops t ∧ core ∉ (t.gladeSt g).cores ∧ core ∉ (t.gladeSt g).removing)) ∧
  (∀ (s : State) (watts : Nat) (ws : List Nat), FirstInMs s 64 →
    let limit := regFld s .mgt 0x20 27 16
    let on := s.boot.cores ++ s.glades.map fun e => 256 + e.1
    (limit < watts → exceeding s ws = [] → on.Nodup → FabricStep (.powerWindow watts ws) s fun t =>
      (∀ c ∈ on, t.coreSt c = steppedDown s.now (s.coreSt c)) ∧ ∀ c, c ∉ on → t.coreSt c = s.coreSt c) ∧
    (∀ g, limit < watts → exceeding s ws = [g] → ((s.gladeSt g).cores ++ [256 + g]).Nodup → FabricStep (.powerWindow watts ws) s fun t =>
      ∀ c, t.coreSt c = if c ∈ (s.gladeSt g).cores ++ [256 + g] then steppedDown s.now (s.coreSt c) else s.coreSt c) ∧
    (100 * watts < 98 * limit → Hot s → FabricStep (.powerWindow watts ws) s fun t => t.cores = s.cores) ∧
    (100 * watts < 98 * limit → ¬ Hot s → (∀ c ∈ on, (s.coreSt c).gated = false) → on.Nodup →
      FabricStep (.powerWindow watts ws) s fun t => ∀ c ∈ on, t.coreSt c = { s.coreSt c with
        mhz := min 1100 ((s.coreSt c).mhz + 25), ticks := (s.coreSt c).ticks + (s.coreSt c).mhz * (s.now - (s.coreSt c).clkFrom),
        clkFrom := s.now }) ∧
    (100 * watts < 98 * limit → (∃ c ∈ on, (s.coreSt c).gated = true) → ¬ Cool s → FabricStep (.powerWindow watts ws) s fun t => t.cores = s.cores) ∧
    (100 * watts < 98 * limit → ¬ Hot s → (∃ c ∈ on, (s.coreSt c).gated = true) → Cool s →
      FabricStep (.powerWindow watts ws) s fun t => ∀ c ∈ on, (t.coreSt c).gated = false ∧ (t.coreSt c).mhz = (s.coreSt c).mhz) ∧
    (watts ≤ limit → 98 * limit ≤ 100 * watts → FabricStep (.powerWindow watts ws) s fun t => t.cores = s.cores ∧ t.regs = s.regs)) ∧
  (∀ (s : State) (c : Nat), Tab.wf s.regs = true → FirstInMs s 65 →
    let on := s.boot.cores ++ s.glades.map fun e => 256 + e.1
    (c < 115 → 100 ≤ c ∨ (95 ≤ c ∧ s.hot = true) → on.Nodup → FabricStep (.thermalStep c) s fun t => t.hot = true ∧
      regFld t .mgt 0x20 15 8 = c ∧ ∀ n ∈ on, t.coreSt n = steppedDown s.now (s.coreSt n)) ∧
    (c < 95 → s.hot = true → FabricStep (.thermalStep c) s fun t => t.hot = false ∧ t.cores = s.cores))

/-- R380, R393, R394: the units of a teardown and its end. -/
def Obligations.Clearing : Prop :=
  ∀ (s : State) (g : Nat), s.clear.cur = some g → 2 ≤ regFld s .boot 0 31 28 → Tab.wf s.regs = true →
    let phase := regFld s .clr 4 30 28
    let done := (reg s .clr 0).toNat
    (∀ u, s.clear.units[done]? = some u → done + 1 < 2 ^ 32 → phase ≤ 5 → (phase = 3 → u < 1024) → ∃ t, exec .clearingUnitDone s = .next t ∧ t.waves = s.waves ∧ (phase ≠ 3 → t.ops = s.ops) ∧
      (done + 1 < s.clear.units.length → reg t .clr 0 = BitVec.ofNat 32 (done + 1) ∧ t.clear = s.clear ∧ regFld t .clr 4 30 28 = phase) ∧
      (done + 1 = s.clear.units.length → reg t .clr 0 = 0 ∧ t.clear.cur = some g ∧ phase < regFld t .clr 4 30 28) ∧
      (phase = 1 → t.coreSt u = (s.coreSt u).bare ∧ t.mem = s.mem) ∧
      (phase = 2 → ∀ e ∈ t.sync, ¬ (e.glade = g ∧ e.phys = slicePhys s u)) ∧
      (phase = 3 → Tab.wf s.canopy = true →
        let ns := regFld s .cnp (nsOff u) 15 0
        regFld t .cnp (nsOff u) 31 31 = 0 ∧
        (∀ e, (cnpEnt s e).st ≠ 0 → (cnpEnt s e).ns = ns → (cnpEnt t e).st = 0) ∧
        ∀ e, (cnpEnt s e).st = 0 ∨ (cnpEnt s e).ns ≠ ns → cnpEnt t e = cnpEnt s e) ∧
      (phase = 4 → Tab.wf s.keys = true → Tab.val? t.keys u = none ∧ t.mem = s.mem) ∧
      (phase = 5 → Tab.wf s.frames = true → Memory.wf s.mem = true → frameOf t u = {} ∧
        (∀ a, a < 65536 → getByte t.mem (65536 * u + a) = 0) ∧
        ∀ a, a < 65536 * u ∨ 65536 * u + 65536 ≤ a → getByte t.mem a = getByte s.mem a) ∧
      (phase = 2 ∨ phase = 3 → t.mem = s.mem)) ∧
    (s.clear.units[done]? = none → s.clear.queue = [] → g < 48 → Tab.wf s.glades = true → Tab.wf s.cmds = true → Tab.wf s.ops = true →
      ∃ t, exec .clearingUnitDone s = .next t ∧ t.mem = s.mem ∧ t.clear.cur = none ∧ Tab.val? t.glades g = none ∧
        regFld t (.gld g) 0 31 29 = 0 ∧ regFld t .clr 4 31 31 = 0 ∧ (∀ n k, t.cmd? n = some k → k.glade ≠ g) ∧
        (∀ n o, t.op? n = some o → o.glade ≠ g) ∧
        ∀ v, v < 128 → regFld t .rlk (0x400 + 4 * v) 31 31 = 1 → regFld t .rlk (0x400 + 4 * v) 5 0 ≠ g)

namespace Sys2Proof.Claims

open Sys2Proof Sys2Proof.Machine

/-! ## Links, registers, start-up and the mailbox (R6, R13, R37, R210, R223, R297, R392 to R396, R426 to R437, R443) -/

/-- A request from outside is answered with a status (0 done, 1 an error completion) and bytes; all else is `s'`. -/
def AnswersBus (i : Instr) (s s' : State) (status : Nat) (data : List Word) : Prop :=
  exec i s = .next { s' with replies := (BitVec.ofNat 32 status :: data) :: s.replies }

/-- A range of HBM touches a frame of a protected glade (R392). -/
def TouchesProtected (s : State) (pa n : Nat) : Prop :=
  ∃ a, pa ≤ a ∧ a < pa + n ∧ (frameOf s (a / 65536)).valid = true ∧ (frameOf s (a / 65536)).key.isSome = true

/-- A request over RolcyLink or Pyura, where `mk op` is its event and `reaches n` that the initiator may reach the `n` bytes: what
it reads, writes and answers (R223, R392, R396). -/
def ServesOutside (s : State) (pa : Nat) (reaches : Nat → Prop) (mk : BusOp → Instr) : Prop :=
  (∀ n, 1 ≤ n → let bad := 768 * 2 ^ 30 < pa + n ∨ TouchesProtected s pa n ∨ ¬ reaches n
    (bad → AnswersBus (mk (.read n)) s s 1 (List.replicate n 0xFF#32)) ∧
    (¬ bad → ∃ ws, AnswersBus (mk (.read n)) s s 0 ws ∧ ws.length = n ∧
      ∀ j, j < n → ws[j]? = some ((getByte s.mem (pa + j)).setWidth 32))) ∧
  (∀ bs : List Byte, bs ≠ [] → let bad := 768 * 2 ^ 30 < pa + bs.length ∨ TouchesProtected s pa bs.length ∨ ¬ reaches bs.length
    (bad → AnswersBus (mk (.write bs)) s s 1 []) ∧
    (¬ bad → Memory.wf s.mem = true → ∃ m, AnswersBus (mk (.write bs)) s { s with mem := m } 0 [] ∧
      (∀ j b, bs[j]? = some b → getByte m (pa + j) = b) ∧
      ∀ a, a < pa ∨ pa + bs.length ≤ a → getByte m a = getByte s.mem a)) ∧
  (∀ (aop : Nat) (au : Bool) (rnd x : Nat), let n := if aop = 11 then 8 else 4
    let bad := 768 * 2 ^ 30 < pa + n ∨ TouchesProtected s pa n ∨ ¬ reaches n
    (bad → AnswersBus (mk (.atomic aop au rnd x)) s s 1 (List.replicate n 0xFF#32)) ∧
    (¬ bad → Memory.wf s.mem = true → ∃ m ws, AnswersBus (mk (.atomic aop au rnd x)) s { s with mem := m } 0 ws ∧
      getMem m pa n = atomNew s 64 aop au rnd (getMem s.mem pa n) x % 2 ^ (8 * n) ∧
      (∀ j, j < n → ws[j]? = some ((getByte s.mem (pa + j)).setWidth 32)) ∧
      ∀ a, a < pa ∨ pa + n ≤ a → getByte m a = getByte s.mem a))

/-- Where the window of a virtual function holds FQHEAD of a context of its glade (R381, R395; the place is the model's choice,
notes/assumptions 138). -/
def fqWindow (vf c : Nat) : Nat := regAddr .vf (4096 * vf + 0x100 + 4 * c)

/-- Bit `i` lies in one of the ranges. -/
def InBits (l : List (Nat × Nat)) (i : Nat) : Prop := ∃ r ∈ l, r.2 ≤ i ∧ i ≤ r.1

/-- The merged value of a register word: RW bits from the write, W1C bits cleared by ones, every other bit kept (R6). -/
def Merged (f : Fields) (old v w : Word) : Prop :=
  ∀ i, i < 32 → (InBits f.w1c i ∧ v.getLsbD i = true → w.getLsbD i = false) ∧
    (¬ (InBits f.w1c i ∧ v.getLsbD i = true) → InBits f.rw i → w.getLsbD i = v.getLsbD i) ∧
    (¬ (InBits f.w1c i ∧ v.getLsbD i = true) → ¬ InBits f.rw i → w.getLsbD i = old.getLsbD i)

/-- A 1 is written to a reserved bit. -/
def WritesReserved (f : Fields) (v : Word) : Prop :=
  ∃ i, i < 32 ∧ v.getLsbD i = true ∧ ¬ InBits (f.rw ++ f.ro ++ f.w1c ++ f.wo) i

/-- What a reset of the device leaves of a run: nothing stands, runs or is cached, and stage 0 begins with cause `c`. -/
def StartsAgain (s t : State) (c : Nat) : Prop :=
  t.waves = [] ∧ t.blocks = [] ∧ t.cmds = [] ∧ t.ops = [] ∧ t.cores = [] ∧ t.probes = [] ∧ t.clusterTlb = [] ∧ t.canopy = [] ∧
  t.changes = [] ∧ t.meas = [] ∧ t.kemKey = none ∧ t.keys = [] ∧ t.svn = s.svn ∧ t.boot.since = s.now ∧
  reg t .boot 0 = BitVec.ofNat 32 (s.svn % 256 * 2 ^ 8 + c) ∧
  regFld t .mgt 0x10 27 24 = 1 ∧ regFld t .mgt 0x10 23 16 = 0 ∧ regFld t .mgt 0x10 15 8 = 4

/-- HBM after a reset without loss of power: every line of a protected frame stands as it was encrypted, and all else is as it was
(R392). -/
def HbmKept (s t : State) : Prop :=
  (∀ a, ¬ ((frameOf s (a / 65536)).valid = true ∧ (frameOf s (a / 65536)).key.isSome = true) → getByte t.mem a = getByte s.mem a) ∧
  ∀ n i k, (frameOf s n).valid = true → (frameOf s n).key = some k → i < 512 →
    let pa := 65536 * n + 128 * i
    getMem t.mem pa 128 = (Config.xts (Tab.valD s.keys k 0) pa (BitVec.ofNat 1024 (getMem s.mem pa 128))).toNat

/-- A reset that the always-on domain outlives: a clearing keeps its state, and frames of glades that wait for it stay theirs. -/
def KeepsClearing (s t : State) : Prop :=
  t.clear = s.clear ∧ (∀ o, o = 0 ∨ o = 4 ∨ o = 8 → reg t .clr o = reg s .clr o) ∧
  ∀ n, frameOf t n = if leaving s (frameOf s n).glade then frameOf s n else {}

/-- HBM after a reset: kept, or lost and then as memory that nothing has written. -/
def HbmLost (s t : State) : Prop :=
  (∀ a, a < 2 ^ 56 → getByte t.mem a = emptyByte) ∧ ∀ a, 2 ^ 56 ≤ a → getByte t.mem a = getByte s.mem a

/-- A glade has been formed, in CONFIG until it has a core and then ACTIVE (the model's choice, notes/assumptions 128): epoch 1, its
control core halted, its functions bound (R32, R215, R380, R395). -/
def FormsGlade (s t : State) (g : Nat) (vfs : List Nat) : Prop :=
  t.mem = s.mem ∧ t.ops = s.ops ∧ regFld t (.gld g) 0 31 29 = (if (t.gladeSt g).cores = [] then 1 else 2) ∧ (t.gladeSt g).epoch = 1 ∧ (t.gladeSt g).vfs = vfs ∧
  (∃ w, t.wave? g = some w ∧ w.control = true ∧ w.haltCc = true ∧ w.glade = g) ∧
  (∀ x, x ≠ g → t.wave? x = s.wave? x) ∧ t.coreSt (256 + g) = { (s.coreSt (256 + g)).bare with view := 1 } ∧
  ∀ n, n ∈ vfs → n < 128 → vfGlade t n = some g

/-- A measurement register after a digest has extended it (R430). -/
def Extended (s t : State) (n : Nat) (d : BitVec 512) : Prop :=
  Tab.valD t.meas n 0 = Config.sha3 (toBytes 64 (Tab.valD s.meas n 0).toNat ++ toBytes 64 d.toNat) ∧
  ∀ k, k ≠ n → Tab.valD t.meas k 0 = Tab.valD s.meas k 0

/-- Measurement registers from `n` on after digests have extended them, one each (R430). -/
def ExtendedBy (s t : State) (n : Nat) (ds : List (BitVec 512)) : Prop :=
  (∀ i d, ds[i]? = some d → Tab.valD t.meas (n + i) 0 = Config.sha3 (toBytes 64 (Tab.valD s.meas (n + i) 0).toNat ++ toBytes 64 d.toNat)) ∧
  ∀ k, k < n ∨ n + ds.length ≤ k → Tab.valD t.meas k 0 = Tab.valD s.meas k 0

/-- The bytes of one key slot's frames after a new key: what the old key's ciphertext decrypts to under it (R392). -/
def Rekeyed (s : State) (m : List Host.Cell) (slot : Nat) (key : BitVec 512) : Prop :=
  (∀ a, ¬ ((frameOf s (a / 65536)).valid = true ∧ (frameOf s (a / 65536)).key = some slot) → getByte m a = getByte s.mem a) ∧
  ∀ n i, (frameOf s n).valid = true → (frameOf s n).key = some slot → i < 512 →
    let pa := 65536 * n + 128 * i
    getMem m pa 128 = (Config.unxts key pa (Config.xts (Tab.valD s.keys slot 0) pa (BitVec.ofNat 1024 (getMem s.mem pa 128)))).toNat

/-- A request of the mailbox has been started (R435). -/
def Asked (s : State) (op : Nat) : Prop :=
  regFld s .mgt 0x48 31 31 = 1 ∧ regFld s .mgt 0x1000 7 0 = op ∧ s.boot.powered = true

/-- A request has been started with this payload, word by word from offset 0x10 of its record (R435; what each request holds there
is the model's choice, notes/assumptions 103). -/
def AskedWith (s : State) (op : Nat) (args : List Nat) : Prop :=
  Asked s op ∧ ∀ i x, args[i]? = some x → (reg s .mgt (0x1010 + 4 * i)).toNat = x

/-- The request is served: BUSY clears with its opcode and status, its response stands in the mailbox (where it
lies there is the model's choice, notes/assumptions 92), and a message signal goes to the physical function (R435). -/
def Served (i : Instr) (s s' : State) (op st : Nat) (ws : List Word) : Prop :=
  ∃ t, exec i s = .next t ∧ { t with regs := s'.regs, replies := s'.replies, msix := s'.msix } = s' ∧
    t.replies = (BitVec.ofNat 32 op :: BitVec.ofNat 32 st :: ws) :: s'.replies ∧ t.msix = (128, 0) :: s'.msix ∧
    reg t .mgt 0x48 = BitVec.ofNat 32 (op * 2 ^ 8 + st) ∧
    (∀ k, k < 4 → reg t .mgt (0x1000 + 4 * k) = 0) ∧ (∀ k, k < 2044 → reg t .mgt (0x1010 + 4 * k) = ws.getD k 0) ∧
    ∀ k, k ≠ 0x12 → (k < 0x400 ∨ 0xC00 ≤ k) → Tab.val? t.regs k = Tab.val? s'.regs k

/-- Stage 3 has been reached without an error. -/
def Ready (s : State) : Prop := regFld s .boot 0 31 28 = 3 ∧ regFld s .boot 0 27 24 = 0

/-- A glade that may be granted to, configured or torn down. -/
def ActiveGlade (s : State) (g : Nat) : Prop :=
  g < 48 ∧ (regFld s (.gld g) 0 31 29 = 1 ∨ regFld s (.gld g) 0 31 29 = 2) ∧ leaving s g = false

/-- A glade that is neither CONFIG nor ACTIVE. -/
def NotFormed (s : State) (g : Nat) : Prop := regFld s (.gld g) 0 31 29 ≠ 1 ∧ regFld s (.gld g) 0 31 29 ≠ 2

end Sys2Proof.Claims

open Sys2Proof Sys2Proof.Machine Sys2Proof.Claims

/-- R223, R392, R396, R427: requests of the host and of peers, and links that go down and come up. -/
def Sys2Proof.Claims.LinksAndPeers : Prop :=
  (∀ (s : State) (pa : Nat), s.hostUp = true → ServesOutside s pa (fun _ => True) (.hostRead pa) ∧
    (∀ bs : List Byte, bs ≠ [] → exec (.hostStore pa bs) s = exec (.hostRead pa (.write bs)) s) ∧
    (∀ n, (n ≠ 4 ∧ n ≠ 8) ∨ pa % n ≠ 0 → AnswersBus (.hostRead pa (.register n)) s s 1 (List.replicate n 0xFF#32)) ∧
    (pa % 4 = 0 → ∃ ws : List Byte, AnswersBus (.hostRead pa (.register 4)) s s 0 (ws.map fun b => b.setWidth 32) ∧ ws.length = 4 ∧
      (∀ b off f, regPlace pa = some (b, off) → regFields b off = some f → b ∉ [.tmb, .erw, .boot] → (∀ g, b = .gld g → off ≠ 0x4040) →
        behind s b off = (b, off) → barShut s b off = false → ofBytes ws = (reg s b off).toNat) ∧
      (∀ vf g c, pa = fqWindow vf c → c < 64 → vfGlade s vf = some g → ofBytes ws = (reg s (.gld g) (ctxOff c + 0x2C)).toNat) ∧
      (∀ vf o, pa = regAddr .vf (4096 * vf + o) → vf < 128 → o < 4096 → vfGlade s vf = none → ofBytes ws = 2 ^ 32 - 1) ∧
      (regPlace pa = none ∨ (∃ b off, regPlace pa = some (b, off) ∧ regFields b off = none ∧ barShut s b off = false) → ofBytes ws = 0))) ∧
  (∀ (s : State) (port pa : Nat), port < 12 → regFld s .pyl (0x100 + 8 * port) 0 0 = 1 →
    ServesOutside s pa (fun n => ∃ e ∈ s.glades, (∃ r ∈ e.2.peerRanges, r.1 = port) ∧
      ∀ a, pa ≤ a → a < pa + n → (frameOf s (a / 65536)).valid = true ∧ (frameOf s (a / 65536)).glade = e.1) (.peerRequest port pa)) ∧
  (∀ (s : State) (port : Nat), port < 12 → regFld s .pyl (0x100 + 8 * port) 0 0 = 1 → Tab.wf s.regs = true →
    let lost := s.ops.filter fun e => !e.2.done && !e.2.scr && e.2.accs.any fun a => a.home / 2 ^ 56 == 2 + port || a.home2 / 2 ^ 56 == 2 + port
    let down := fun t : State => regFld t .pyl (0x100 + 8 * port) 0 0 = 0 ∧ regFld t .pyl (0x100 + 8 * port) 1 1 = 1 ∧
      regFld t .tmb (0x10C + 16 * (13 + port)) 31 31 = 0
    (lost = [] → FabricStep (.pyuraPortDown port) s down) ∧
    (∀ v o, lost = [(v, o)] → o.kind = .store → Tab.wf s.ops = true → ∃ t, exec (.pyuraPortDown port) s = .next t ∧ down t ∧
      t.op? v = none ∧ t.mem = s.mem ∧ t.waves = s.waves)) ∧
  (∀ (s : State) (port : Nat), port < 12 → regFld s .pyl (0x100 + 8 * port) 0 0 = 0 → Tab.wf s.regs = true →
    FabricStep (.pyuraPortUp port) s fun t => regFld t .pyl (0x100 + 8 * port) 0 0 = 1) ∧
  (∀ s : State, s.hostUp = true → Tab.wf s.regs = true →
    FabricStep .rolcylinkDown s fun t => t.hostUp = false ∧ regFld t .tmb 0x1CC 31 31 = 0) ∧
  (∀ s : State, s.hostUp = false → exec .rolcylinkUp s = .next { s with hostUp := true })

/-- R6, R7, R210, R297, R379, R395, R426, R435, R443: writes of memory-mapped registers. -/
def Sys2Proof.Claims.RegisterWrites : Prop :=
  (∀ (s : State) (addr size : Nat) (value : BitVec 64), (size ≠ 4 ∧ size ≠ 8) ∨ addr % size ≠ 0 →
    AnswersBus (.registerWrite addr size value) s s 1 []) ∧
  (∀ (s : State) (addr : Nat) (value : BitVec 64) (b : RegBlk) (off : Nat) (f : Fields), addr % 4 = 0 →
    regPlace addr = some (b, off) → regFields b off = some f →
    (∀ i, i < 32 → InBits f.wo i → value.getLsbD i = false) →
    ownRow s addr (value.setWidth 32) = false → barShut s b off = false → behind s b off = (b, off) →
    (b = .rpl → off % 256 = 0 → value.getLsbD 31 = false) →
    let v : Word := value.setWidth 32
    (WritesReserved f v → AnswersBus (.registerWrite addr 4 value) s s 1 []) ∧
    (¬ WritesReserved f v → ∀ w, Merged f (reg s b off) v w →
      (regBad s (setReg s b off w) b off = true → AnswersBus (.registerWrite addr 4 value) s s 1 []) ∧
      (regBad s (setReg s b off w) b off = false → AnswersBus (.registerWrite addr 4 value) s (setReg s b off w) 0 []))) ∧
  (∀ (s : State) (vf g c : Nat) (value : BitVec 64), vfGlade s vf = some g → c < 64 →
    (ctxState s g c = 1 → AnswersBus (.registerWrite (fqWindow vf c) 4 value) s (setReg s (.gld g) (ctxOff c + 0x2C) (value.setWidth 32)) 0 []) ∧
    (ctxState s g c ≠ 1 → AnswersBus (.registerWrite (fqWindow vf c) 4 value) s s 1 [])) ∧
  (∀ (s : State) (g : Nat) (value : BitVec 64), g < 48 → value.getLsbD 30 = false → value.getLsbD 31 = true →
    let i := Instr.registerWrite (regAddr .rpl (256 * g)) 4 value
    (regFld s .rpl (256 * g + 12) 31 31 = 1 → AnswersBus i s s 1 []) ∧
    (regFld s .rpl (256 * g + 12) 31 31 = 0 →
      AnswersBus i s ((setReg s .rpl (256 * g) (value.setWidth 32)).updGlade g fun x => { x with armAt := s.nextId }) 0 [])) ∧
  (∀ f, (regFields .mgt 0x20 = some f ∨ ∃ g, regFields (.gld g) 0x38 = some f) → f.rw = [] ∧ f.w1c = []) ∧
  (∀ (s : State) (addr : Nat) (value : BitVec 64), addr % 4 = 0 →
    (regPlace addr = none ∨ ∃ b off, regPlace addr = some (b, off) ∧ regFields b off = none ∧ barShut s b off = false) →
    ownRow s addr (value.setWidth 32) = false →
    AnswersBus (.registerWrite addr 4 value) s s (if value.setWidth 32 = 0#32 then 0 else 1) []) ∧
  (∀ (s : State) (vf o : Nat) (value : BitVec 64), vf < 128 → o < 4096 → o % 4 = 0 → vfGlade s vf = none →
    AnswersBus (.registerWrite (regAddr .vf (4096 * vf + o)) 4 value) s s 0 []) ∧
  (∀ (s : State) (vf g : Nat), vfGlade s vf = some g → (∀ c ∈ s.changes, c.vf ≠ vf) → Tab.wf s.regs = true →
    let op := regFld s .vf (4096 * vf) 7 0
    FabricStep (.registerWrite (regAddr .vf (4096 * vf + 0x40)) 4 1) s fun t =>
      (∀ k, 1 ≤ k → k < 16 → reg t .vf (4096 * vf + 4 * k) = reg s .vf (4096 * vf + 4 * k)) ∧
      reg t .vf (4096 * vf) = if 1 ≤ op ∧ op ≤ 11 then reg s .vf (4096 * vf) else 7) ∧
  (∀ s : State, Tab.wf s.regs = true → let bell := Instr.registerWrite 0x40 4 1
    (regFld s .mgt 0x48 31 31 = 1 → AnswersBus bell s s 1 []) ∧
    let op := regFld s .mgt 0x1000 7 0
    let known := op ∈ [1, 2, 3, 4, 5, 0x10, 0x11, 0x12, 0x13, 0x14, 0x20]
    (regFld s .mgt 0x48 31 31 = 0 → known → FabricStep bell s fun t => regFld t .mgt 0x48 31 31 = 1) ∧
    (regFld s .mgt 0x48 31 31 = 0 → ¬ known → FabricStep bell s fun t => reg t .mgt 0x48 = BitVec.ofNat 32 (op * 2 ^ 8 + 7))) ∧
  (∀ s s' : State, (∀ o, o < 16 → (regBad s s' .erw o = true ↔ regFld s' .erw o 31 16 = 0 ∨ regFld s' .erw o 15 0 = 0)) ∧
    (∀ g, g < 48 → (regBad s s' .smp (32 * g) = true ↔
      10 < regFld s' .smp (32 * g) 3 0 ∨ regFld s' .smp (32 * g) 8 4 < 6 ∨ 20 < regFld s' .smp (32 * g) 8 4))) ∧
  (∀ (s : State) (g : Nat) (value : BitVec 32) (i : Instr), g < 48 → Tab.wf s.regs = true →
    i = .l2waysWrite g value ∨ i = .registerWrite (regAddr (.gld g) 0x1100) 8 (value.setWidth 64) →
    let old := reg s (.gld g) 0x1100
    let new := fun w => value.getLsbD w
    let gone := fun w => w < 16 ∧ old.getLsbD w = true ∧ new w = false
    let drain := fun w => w < 16 ∧ new w = false ∧ (gone w ∨ (reg s (.gld g) 0x1104).getLsbD w = true)
    ((∃ w, w < 16 ∧ value.getLsbD (16 + w) = true ∧ new w = false) → AnswersBus i s s 1 []) ∧
    ((∀ w, w < 16 → value.getLsbD (16 + w) = true → new w = true) → FabricStep i s fun t =>
      reg t (.gld g) 0x1100 = value ∧ (∀ w, w < 16 → ((reg t (.gld g) 0x1104).getLsbD w = true ↔ drain w)) ∧
      (regFld t (.gld g) 0x1104 31 31 = 1 ↔ ∃ w, drain w) ∧
      ((∃ w, gone w) → (t.gladeSt g).drained = [] ∧ regFld t (.gld g) 0x1104 23 16 = 0) ∧
      ((∀ w, ¬ gone w) → (t.gladeSt g).drained = (s.gladeSt g).drained ∧
        regFld t (.gld g) 0x1104 23 16 = regFld s (.gld g) 0x1104 23 16))) ∧
  (∀ (s : State) (n : Nat) (value : BitVec 32), n < 1024 → Tab.wf s.regs = true →
    let r := 0x10000 + 64 * n
    let ns := value.extractLsb' 0 16
    let reserved := value.getLsbD 30 = true ∨ value.extractLsb' 16 8 ≠ 0#8
    let wide := Instr.registerWrite (regAddr .cnp r) 8 (reg s .cnp (r + 4) ++ value)
    (∀ i, i = .namespaceCreate n value ∨ i = wide → regFld s .cnp r 31 31 = 0 → value.getLsbD 31 = true →
      let bad := reserved ∨ ns = 0#16 ∨ regFld s .cnp (r + 0x10) 15 0 = 0 ∨
        ∃ m, m < 1024 ∧ m ≠ n ∧ regFld s .cnp (0x10000 + 64 * m) 31 31 = 1 ∧ regFld s .cnp (0x10000 + 64 * m) 15 0 = ns.toNat
      (bad → AnswersBus i s s 1 []) ∧
      (¬ bad → FabricStep i s fun t => regFld t .cnp r 31 31 = 1 ∧ regFld t .cnp r 15 0 = ns.toNat ∧
        regFld t .cnp r 29 24 = (value.extractLsb' 24 6).toNat ∧ regFld t .cnp (r + 0x10) 31 31 = 0 ∧
        regFld t .cnp (r + 0x10) 15 0 = regFld s .cnp (r + 0x10) 15 0 ∧
        (∀ o ∈ [0x14, 0x18, 0x1C, 0x20, 0x24], reg t .cnp (r + o) = 0) ∧ (∀ o ∈ [4, 8, 0xC], reg t .cnp (r + o) = reg s .cnp (r + o)) ∧
        (∀ k, k / 32 = n → Tab.valD t.lastSweep k 0 = 0) ∧ t.canopy = s.canopy)) ∧
    (∀ i, i = .namespaceDelete n value ∨ i = wide → regFld s .cnp r 31 31 = 1 → value.getLsbD 31 = false →
      let bad := reserved ∨ ns.toNat ≠ regFld s .cnp r 15 0 ∨ (value.extractLsb' 24 6).toNat ≠ regFld s .cnp r 29 24
      (bad → AnswersBus i s s 1 []) ∧
      (¬ bad → Tab.wf s.canopy = true → ∃ t, exec i s = .next t ∧ t.mem = s.mem ∧ t.waves = s.waves ∧
        regFld t .cnp r 31 31 = 0 ∧ regFld t .cnp r 15 0 = regFld s .cnp r 15 0 ∧
        ∀ e, (cnpEnt t e).st = if (cnpEnt s e).ns = ns.toNat then 0 else (cnpEnt s e).st))) ∧
  (∀ (s : State) (m : Nat) (value : BitVec 32) (i : Instr), m < 16 → value.getLsbD 30 = true → Tab.wf s.regs = true →
    i = .histogramClear m value ∨ i = .registerWrite (regAddr .hmn (256 * m)) 8 (value.setWidth 64) →
    let bad := value.extractLsb' 18 5 ≠ 0#5 ∨ value.extractLsb' 0 8 ≠ 0#8 ∨ 4#3 < value.extractLsb' 27 3 ∨ 12#4 < value.extractLsb' 8 4
    (bad → AnswersBus i s s 1 []) ∧
    (¬ bad → FabricStep i s fun t => reg t .hmn (256 * m + 8) = 0xFFFFFFFF#32 ∧ reg t .hmn (256 * m + 12) = 0 ∧
      (∀ b, b < 16 → reg t .hmn (256 * m + 0x40 + 4 * b) = 0) ∧ regFld t .hmn (256 * m) 31 31 = fld value 31 31 ∧
      regFld t .hmn (256 * m) 29 23 = fld value 29 23 ∧ regFld t .hmn (256 * m) 17 8 = fld value 17 8))

/-- R6, R7, R210, R223, R297, R392, R396, R426, R427, R435, R443: requests over the links, and writes of registers. -/
def Obligations.OutsideRequestsAndRegisterWrites : Prop := LinksAndPeers ∧ RegisterWrites

/-- R394, R428, R429, R438: resets. -/
def Sys2Proof.Claims.Resets : Prop :=
  ∀ s : State, Tab.wf s.regs = true → Tab.wf s.frames = true → Memory.wf s.mem = true →
    (∃ t, exec .powerOnReset s = .next t ∧ StartsAgain s t 0 ∧ HbmLost s t ∧ t.clear = {} ∧ t.frames = [] ∧ t.glades = [] ∧
      t.boot.powered = true ∧ t.boot.stage = some 0 ∧ ∀ d, d < 13 → timebase t d = 0) ∧
    (s.boot.powered = true → ∃ t, exec .deviceReset s = .next t ∧ StartsAgain s t 1 ∧ KeepsClearing s t ∧ HbmKept s t ∧
      t.boot.stage = some 0 ∧ t.lasting = [] ∧ t.errors = [] ∧ (∀ o, o < 2 ^ 20 → reg t .erw o = regReset (regAddr .erw o)) ∧ t.tbOff = s.tbOff) ∧
    (s.boot.powered = true → ∃ t, exec .warmReset s = .next t ∧ StartsAgain s t 2 ∧ KeepsClearing s t ∧ HbmKept s t ∧
      t.boot.stage = some 0 ∧ t.lasting = s.lasting ∧ t.errors = s.errors ∧ (∀ o, o < 2 ^ 20 → reg t .erw o = reg s .erw o) ∧
      (∀ o, o < 2 ^ 20 → reg t .fab o = reg s .fab o) ∧ regFld t .mgt 0x20 0 0 = 0 ∧ regFld t .slc 0 15 8 = regFld s .slc 0 15 8 ∧ (∀ o, o < 2 ^ 20 → reg t .smp o = regReset (regAddr .smp o)) ∧ t.tbOff = s.tbOff) ∧
    (∀ c, 115 ≤ c → s.boot.powered = true → ∃ t, exec (.thermalTrip c) s = .next t ∧ StartsAgain s t 3 ∧ KeepsClearing s t ∧
      HbmLost s t ∧ t.boot.stage = some 0 ∧ ∀ d, d < 13 → timebase t d = 0) ∧
    (∃ t, exec .standbyPowerLoss s = .next t ∧ StartsAgain s t 0 ∧ HbmLost s t ∧ t.clear = {} ∧ t.frames = [] ∧ t.glades = [] ∧
      t.boot.powered = false ∧ t.boot.stage = none)

/-- R13, R37, R353, R428, R430, R431: the stages of start-up. How spares join and which cores stage 0 starts on are the model's choices
(notes/assumptions 94), and so is what a missed bound has measured (notes/assumptions 137). -/
def Sys2Proof.Claims.StartUp : Prop :=
  (∀ (s : State) (n : Nat), s.boot.stage = some n → Tab.wf s.regs = true →
    (n = 0 → s.boot.since + 50000000 < s.now) → (n = 1 → s.boot.since + 2000000000 < s.now) →
    (2 ≤ n → s.boot.asked + 100000000 < s.now) →
    FabricStep .startupBoundMissed s fun t => t.boot.stage = none ∧ regFld t .boot 0 27 24 = 4 ∧
      (∀ k, 2 < k ∨ 2 ≤ n → Tab.valD t.meas k 0 = Tab.valD s.meas k 0)) ∧
  (∀ (s : State) (st e n : Nat) (images : List BootImage), s.boot.stage = some st → st ≤ 1 → images.length ≤ st + 1 → Tab.wf s.regs = true →
    (e = 3 → ∀ x ∈ images, s.svn ≤ x.version) →
    (e ≠ 3 → ∃ pre x, images = pre ++ [x] ∧ (∀ y ∈ pre, s.svn ≤ y.version) ∧ n = st + pre.length ∧ (e = 1 ∨ (e = 2 ∧ x.version < s.svn))) →
    FabricStep (.startupCheckFailed e n images) s fun t => t.boot.stage = none ∧ regFld t .boot 0 27 24 = e ∧
      ExtendedBy s t st (images.map (·.digest))) ∧
  (∀ (s : State) (d : BitVec 512) (v : Nat), s.boot.stage = some 0 → v < s.svn → exec (.stage0Complete d v) s = .refused (.notEnabled "STAGE0_COMPLETE")) ∧
  (∀ (s : State) (d : BitVec 512) (v : Nat), s.boot.stage = some 0 → s.now ≤ s.boot.since + 50000000 → s.svn ≤ v → Tab.wf s.regs = true →
    ∃ t, exec (.stage0Complete d v) s = .next t ∧ t.mem = s.mem ∧ t.ops = s.ops ∧ t.boot.stage = some 1 ∧ t.boot.version = v ∧
      regFld t .boot 0 31 28 = 1 ∧ Extended s t 0 d ∧ t.boot.cores = [0, 1, 2, 3] ∧ (∀ c, c < 4 → physCore t c = c) ∧
      (regFld s .clr 4 31 31 = 0 → leaving s 0 = false → FormsGlade s t 0 [0] ∧ (t.gladeSt 0).cores = [0, 1, 2, 3] ∧
        (∀ c, c < 4 → (t.coreSt c).view = 1) ∧ reg t (.gld 0) 0x10 = 0xF#32) ∧
      (regFld s .clr 4 31 31 = 1 ∨ leaving s 0 = true → t.glades = s.glades ∧ t.waves = s.waves)) ∧
  (∀ (s : State) (fc fs : List Nat) (x y : BootImage), x.version < s.svn ∨ y.version < s.svn →
    exec (.stage1Complete fc fs x y) s = .refused (.notEnabled "STAGE1_COMPLETE")) ∧
  (∀ (s : State) (fc fs : List Nat) (x y : BootImage), s.boot.stage = some 1 → s.now ≤ s.boot.since + 2000000000 →
    s.svn ≤ x.version → s.svn ≤ y.version → Tab.wf s.regs = true →
    let bad := fun c => c ∈ fc ∨ c ∈ s.failedCores
    let badSlice := fun p => p ∈ fs ∨ p ∈ s.failedSlices
    ∃ t, exec (.stage1Complete fc fs x y) s = .next t ∧ t.mem = s.mem ∧
      ((∀ e ∈ s.cmds, e.2.glade ≠ 0) → s.clear.cur ≠ none ∨ s.clear.queue = [] → Quietly s t) ∧
      (t.gladeSt 0).cores = (s.gladeSt 0).cores.filter (fun c => t.boot.cores.contains c) ∧
      t.boot.stage = none ∧ regFld t .boot 0 31 28 = 2 ∧
      ExtendedBy s t 1 [x.digest, y.digest] ∧ regFld t .slc 0 15 8 = 0 ∧
      (∀ c, c ∈ t.failedCores ↔ bad c) ∧ (∀ p, p ∈ t.failedSlices ↔ badSlice p) ∧
      (∀ k i, k < 8 → i < 20 → ¬ bad (22 * k + i) → 20 * k + i ∈ t.boot.cores ∧ physCore t (20 * k + i) = 22 * k + i) ∧
      (∀ k i, k < 8 → i < 20 → bad (22 * k + i) → 20 * k + i ∈ t.boot.cores →
        ¬ bad (physCore t (20 * k + i)) ∧ (physCore t (20 * k + i) = 22 * k + 20 ∨ physCore t (20 * k + i) = 22 * k + 21)) ∧
      (∀ c ∈ t.boot.cores, ∀ c' ∈ t.boot.cores, physCore t c = physCore t c' → c = c') ∧ (∀ c ∈ t.boot.cores, c < 160) ∧
      regFld t .mgt 0x10 15 8 = t.boot.cores.length ∧ regFld t .mgt 0x10 27 24 = 12 ∧ slicesOn t ≤ 192 ∧
      (t.boot.cores.length < 160 ∨ slicesOn t < 192 → regFld t .mgt 0x10 31 31 = 1) ∧
      (∀ n, n < 192 → (sliceEn t n = true ↔ n < slicesOn t)) ∧
      (∀ n, n < slicesOn t → ¬ badSlice (slicePhys t n) ∧ slicePhys t n < 200) ∧
      (∀ p, p < 200 → p % 50 < 48 → ¬ badSlice p → ∃ n, n < slicesOn t ∧ slicePhys t n = p) ∧
      ∀ b, b < 4096 → 0 < slicesOn t → bucketOwner t b = b % slicesOn t) ∧
  (∀ s : State, s.boot.stage = some 2 → s.now ≤ s.boot.asked + 100000000 → Tab.wf s.regs = true →
    FabricStep .stage2Complete s fun t => t.boot.stage = none ∧ regFld t .boot 0 31 28 = 3)

/-- R13, R37, R353, R394, R428 to R431, R438: resets and the stages of start-up. How spares join and which cores stage 0 starts on are the
model's choices (notes/assumptions 94), and so is what a missed bound has measured (notes/assumptions 137). -/
def Obligations.ResetsAndStartUp : Prop := Resets ∧ StartUp

/-- R430 to R437: requests of the mailbox about the device. Where a request's payload and a response lie, and the statuses the table
leaves open, are the model's choices (notes/assumptions 92, 103). -/
def Sys2Proof.Claims.MailboxDevice : Prop :=
  (∀ (s : State) (n op : Nat) (i : Instr) (d : BitVec 512) (g what v : Nat) (vfs : List Nat) (gr : Grant) (ct w : List Byte) (args : List Nat),
    d = recordDigest s ∨ op ≠ 0x10 → (ct.length = 1568 ∧ w.length = 72) ∨ op ≠ 0x14 →
    (op, n, i, args) ∈ [(2, 1, Instr.attest d, words512 d), (3, 1, .getcert, []), (4, 2, .measure g d, g :: words512 d), (5, 2, .svnCommit, []),
      (0x10, 2, .stage2 d, []), (0x11, 3, .gladeConfig g vfs, g :: vfs.length :: vfs), (0x12, 3, .grant g gr, g :: grantWords gr),
      (0x13, 3, .teardown g, [g]), (0x14, 3, .keyLoad g ct w, g :: (byteWords (ct ++ w)).map (·.toNat)), (0x20, 1, .powerSet what v, [what, v])] →
    ((∃ k x, args[k]? = some x ∧ (reg s .mgt (0x1010 + 4 * k)).toNat ≠ x) → ∀ t, exec i s ≠ .next t) ∧
    (AskedWith s op args → (regFld s .boot 0 31 28 < n → Served i s s op 8 []) ∧
      (op ∉ [2, 3, 0x20] → regFld s .boot 0 27 24 ≠ 0 → Served i s s op 8 []))) ∧
  (∀ (s : State) (d : BitVec 512), d ≠ recordDigest s → ∀ t, exec (.stage2 d) s ≠ .next t) ∧
  (∀ s : State, Asked s 1 → Served .status s s 1 0 [reg s .boot 0, reg s .mgt 0x10, reg s .clr 0, reg s .clr 4]) ∧
  (∀ (s : State) (nonce : BitVec 512), AskedWith s 2 (words512 nonce) → 1 ≤ regFld s .boot 0 31 28 →
    ∃ ws, Served (.attest nonce) s { s with nextId := s.nextId + 1, kemKey := some s.nextId } 2 0 ws ∧ ws.length = 1701 ∧
      ws.take 4 = [0x54415841#32, 0x00010000#32, 6803#32, 0#32] ∧
      (∀ k, k < 16 → ws[4 + k]? = some (nonce.extractLsb' (32 * k) 32)) ∧ ws[20]? = some (reg s .boot 0) ∧ ws[21]? = some (reg s .mgt 0x10) ∧
      ws[22]? = some ((timebase s 12).extractLsb' 0 32) ∧ ws[23]? = some ((timebase s 12).extractLsb' 32 32) ∧
      ∀ n k, n < 8 → k < 16 → ws[24 + 16 * n + k]? = some ((Tab.valD s.meas n 0).extractLsb' (32 * k) 32)) ∧
  (∀ s : State, Asked s 3 → 1 ≤ regFld s .boot 0 31 28 → ∃ ws, Served .getcert s s 3 0 ws ∧ 648 ≤ ws.length) ∧
  (∀ (s : State) (n : Nat) (d : BitVec 512), AskedWith s 4 (n :: words512 d) → 2 ≤ regFld s .boot 0 31 28 → regFld s .boot 0 27 24 = 0 →
    (n < 4 ∨ 7 < n → Served (.measure n d) s s 4 1 []) ∧
    (4 ≤ n → n ≤ 7 → ∃ m, Served (.measure n d) s { s with meas := m } 4 0 [] ∧ Extended s { s with meas := m } n d)) ∧
  (∀ s : State, Asked s 5 → 2 ≤ regFld s .boot 0 31 28 → regFld s .boot 0 27 24 = 0 → Tab.wf s.regs = true →
    ∃ t, exec .svnCommit s = .next t ∧ Quietly s t ∧ t.svn = max s.svn s.boot.version ∧ regFld t .boot 0 15 8 = t.svn % 256 ∧
      reg t .mgt 0x48 = 0x500#32) ∧
  (∀ (s : State) (d : BitVec 512), Asked s 0x10 → d = recordDigest s → 2 ≤ regFld s .boot 0 31 28 → regFld s .boot 0 27 24 = 0 →
    (regFld s .boot 0 31 28 = 3 → Served (.stage2 d) s s 0x10 1 []) ∧
    (regFld s .boot 0 31 28 ≠ 3 → s.boot.stage = some 2 → Served (.stage2 d) s s 0x10 5 []) ∧
    (regFld s .boot 0 31 28 ≠ 3 → s.boot.stage ≠ some 2 → ∃ s', Served (.stage2 d) s s' 0x10 0 [] ∧ Extended s s' 3 d ∧
      s'.boot = { s.boot with stage := some 2, asked := s.now } ∧ Quietly s s' ∧ s'.regs = s.regs)) ∧
  (∀ (s : State) (what v : Nat), AskedWith s 0x20 [what, v] → 1 ≤ regFld s .boot 0 31 28 → Tab.wf s.regs = true → what = 0 →
    (v < 1200 ∨ 2400 < v → Served (.powerSet 0 v) s s 0x20 1 []) ∧
    (1200 ≤ v → v ≤ 2400 → FabricStep (.powerSet 0 v) s fun t => regFld t .mgt 0x20 27 16 = v ∧ reg t .mgt 0x48 = 0x2000#32)) ∧
  (∀ (s : State) (g v : Nat), AskedWith s 0x20 [g + 1, v] → 1 ≤ regFld s .boot 0 31 28 → 48 ≤ g ∨ 255 < v →
    Served (.powerSet (g + 1) v) s s 0x20 1 []) ∧
  (∀ (s : State) (g v : Nat), AskedWith s 0x20 [g + 1, v] → 1 ≤ regFld s .boot 0 31 28 → Tab.wf s.regs = true → g < 48 → v < 256 →
    let others := (((List.range 48).filter (· != g)).map fun h => regFld s (.gld h) 0x38 7 0).foldl (· + ·) 0
    (256 < others + v → Served (.powerSet (g + 1) v) s s 0x20 1 []) ∧
    (others + v ≤ 256 → FabricStep (.powerSet (g + 1) v) s fun t => regFld t (.gld g) 0x38 7 0 = v ∧ reg t .mgt 0x48 = 0x2000#32))

/-- R377, R393, R395, R433, R434, R436: requests of the mailbox about a glade. Where a request's payload lies, and the statuses of what
another glade holds, are the model's choices (notes/assumptions 92, 103); where the Canopy heap lies is free (notes/assumptions 90). -/
def Sys2Proof.Claims.MailboxGlades : Prop :=
  (∀ (s : State) (g : Nat) (vfs : List Nat), AskedWith s 0x11 (g :: vfs.length :: vfs) → Ready s → Tab.wf s.regs = true →
    let i := Instr.gladeConfig g vfs
    let slot := fun h => regFld s (.gld h) 0 28 28 = 1 ∧ regFld s (.gld h) 0 21 16 = regFld s (.gld g) 0 21 16
    (48 ≤ g ∨ (∃ n ∈ vfs, 128 ≤ n) → Served i s s 0x11 1 []) ∧
    (g < 48 → (∀ n ∈ vfs, n < 128) →
      (leaving s g = true → Served i s s 0x11 5 []) ∧
      (leaving s g = false → regFld s (.gld g) 0 31 29 ≠ 0 → Served i s s 0x11 1 []) ∧
      (leaving s g = false → regFld s (.gld g) 0 31 29 = 0 → (∀ n ∈ vfs, vfGlade s n = none ∧ ∀ e ∈ s.glades, n ∈ e.2.vfs → leaving s e.1 = false) →
        regFld s (.gld g) 0 28 28 = 0 ∨ (∀ h ∈ Tab.keys s.glades, h ≠ g → ¬ slot h) →
        ∃ t, exec i s = .next t ∧ FormsGlade s t g vfs ∧ reg t .mgt 0x48 = 0x1100#32) ∧
      (leaving s g = false → regFld s (.gld g) 0 31 29 = 0 → ∀ n h, vfs = [n] → vfGlade s n = some h →
        Served i s s 0x11 (if leaving s h then 5 else 2) []) ∧
      (leaving s g = false → regFld s (.gld g) 0 31 29 = 0 → ∀ n, vfs = [n] → vfGlade s n = none →
        (∃ e ∈ s.glades, n ∈ e.2.vfs ∧ leaving s e.1 = true) → Served i s s 0x11 5 []) ∧
      (leaving s g = false → regFld s (.gld g) 0 31 29 = 0 → vfs = [] → regFld s (.gld g) 0 28 28 = 1 →
        (∃ h ∈ Tab.keys s.glades, h ≠ g ∧ slot h ∧ leaving s h = false ∧ ∀ h' ∈ Tab.keys s.glades, h' ≠ g → slot h' → h' = h) →
        Served i s s 0x11 2 []))) ∧
  (∀ (s : State) (g : Nat) (gr : Grant), AskedWith s 0x12 (g :: grantWords gr) → Ready s →
    (leaving s g = true → Served (.grant g gr) s s 0x12 5 []) ∧
    (leaving s g = false → 48 ≤ g ∨ NotFormed s g → Served (.grant g gr) s s 0x12 1 [])) ∧
  (∀ (s : State) (g c : Nat), AskedWith s 0x12 [g, 0, c] → Ready s → ActiveGlade s g → Tab.wf s.glades = true →
    (c ∉ s.boot.cores → Served (.grant g (.core c)) s s 0x12 1 []) ∧
    (∀ h, c ∈ s.boot.cores → gladeOf s c = some h → Served (.grant g (.core c)) s s 0x12 (if leaving s h then 5 else if h = g then 1 else 2) []) ∧
    (c ∈ s.boot.cores → (∀ h, c ∉ (s.gladeSt h).cores) → 0xE0 + physCore s c ∈ s.acted →
      Served (.grant g (.core c)) s s 0x12 5 []) ∧
    (c ∈ s.boot.cores → (∀ h, c ∉ (s.gladeSt h).cores) → 0xE0 + physCore s c ∉ s.acted → Tab.wf s.regs = true →
      ∃ t, exec (.grant g (.core c)) s = .next t ∧ Quietly s t ∧ regFld t (.gld g) 0 31 29 = 2 ∧
      (t.gladeSt g).cores = (s.gladeSt g).cores ++ [c] ∧ (t.coreSt c).view = (s.gladeSt g).epoch ∧ (t.coreSt c).l1 = [] ∧
      (t.coreSt c).ic = [] ∧ (t.coreSt c).tlb = [] ∧ reg t .mgt 0x48 = 0x1200#32)) ∧
  (∀ (s : State) (g a n : Nat), AskedWith s 0x12 [g, 1, a, n] → Ready s → ActiveGlade s g → 1 ≤ n →
    let heap := a < heapStart + 49152 ∧ heapStart < a + n
    let prot := regFld s (.gld g) 0 28 28 = 1
    let slot := regFld s (.gld g) 0 21 16
    (12582912 < a + n ∨ heap → Served (.grant g (.frames a n)) s s 0x12 1 []) ∧
    (a + n ≤ 12582912 → ¬ heap → (∀ k, a ≤ k → k < a + n → (frameOf s k).valid = false) →
      ∃ t, exec (.grant g (.frames a n)) s = .next t ∧ t.waves = s.waves ∧ t.ops = s.ops ∧ reg t .mgt 0x48 = 0x1200#32 ∧
        (¬ prot → t.mem = s.mem) ∧
        (Memory.wf s.mem = true → (∀ b, b < 65536 * a ∨ 65536 * (a + n) ≤ b → getByte t.mem b = getByte s.mem b) ∧
          (prot → ∀ i, i < 512 * n → let pa := 65536 * a + 128 * i
            getMem t.mem pa 128 = (Config.unxts (Tab.valD s.keys slot 0) pa (BitVec.ofNat 1024 (getMem s.mem pa 128))).toNat)) ∧
        (∀ k, a ≤ k → k < a + n → (frameOf t k).valid = true ∧ (frameOf t k).glade = g ∧
          (frameOf t k).key = if regFld s (.gld g) 0 28 28 = 1 then some slot else none) ∧
        ∀ k, k < a ∨ a + n ≤ k → frameOf t k = frameOf s k) ∧
    (a + n ≤ 12582912 → ¬ heap → n = 1 → (frameOf s a).valid = true →
      Served (.grant g (.frames a 1)) s s 0x12 (if leaving s (frameOf s a).glade then 5 else if (frameOf s a).glade = g then 1 else 2) [])) ∧
  (heapStart + 49152 ≤ 12582912) ∧
  (∀ (s : State) (g pa len port n : Nat), Ready s → ActiveGlade s g →
    (AskedWith s 0x12 (g :: 2 :: words64 pa ++ words64 len) →
      Served (.grant g (.hostRange pa len)) s (s.updGlade g fun x => { x with hostRanges := (pa, len) :: x.hostRanges }) 0x12 0 []) ∧
    (AskedWith s 0x12 (g :: 3 :: port :: words64 pa ++ words64 len) → 12 ≤ port → Served (.grant g (.peerRange port pa len)) s s 0x12 1 []) ∧
    (AskedWith s 0x12 (g :: 3 :: port :: words64 pa ++ words64 len) → port < 12 → Served (.grant g (.peerRange port pa len)) s
      (s.updGlade g fun x => { x with peerRanges := (port, pa, len) :: x.peerRanges }) 0x12 0 []) ∧
    (AskedWith s 0x12 [g, 4, n] → n = 0 ∨ 65535 < n → Served (.grant g (.namespaceNo n)) s s 0x12 1 []) ∧
    (AskedWith s 0x12 [g, 4, n] → 1 ≤ n → n ≤ 65535 → (∀ e ∈ s.glades, n ∉ e.2.nsids) → Served (.grant g (.namespaceNo n)) s
      (s.updGlade g fun x => { x with nsids := n :: x.nsids }) 0x12 0 [])) ∧
  (∀ (s : State) (g : Nat), AskedWith s 0x13 [g] → Ready s → Tab.wf s.regs = true → Tab.wf s.cmds = true →
    let begins := s.clear.cur = none ∧ s.clear.queue = []
    let i := Instr.teardown g
    (leaving s g = true → Served i s s 0x13 5 []) ∧
    (leaving s g = false → 48 ≤ g ∨ NotFormed s g → Served i s s 0x13 1 []) ∧
    (ActiveGlade s g → ¬ begins → FabricStep i s fun t => reg t .mgt 0x48 = 0x1300#32 ∧ t.clear = { s.clear with queue := s.clear.queue ++ [g] } ∧
      t.cmds = s.cmds ∧ t.changes = s.changes ∧ t.glades = s.glades ∧ regFld t (.gld g) 0 31 29 = regFld s (.gld g) 0 31 29 ∧
      regFld t .clr 4 7 0 = min 255 (s.clear.queue.length + 1)) ∧
    (ActiveGlade s g → begins → ∃ t, exec i s = .next t ∧ t.mem = s.mem ∧ t.ops = s.ops ∧ reg t .mgt 0x48 = 0x1300#32 ∧
      (∀ w, s.wave? g = some w → (∃ w', t.wave? g = some w' ∧ w'.haltCc = true) ∧
        ((∀ e ∈ s.cmds, e.2.glade = g → e.2.desc ≠ []) → t.wave? g = some { w with haltCc := true }) ∧
        ∀ pre n k post, s.cmds = pre ++ (n, k) :: post → k.glade = g → k.desc = [] → k.isPass = false → w.ended ≠ 0xFFFFFFFF#32 →
          (∀ e, e ∈ pre ∨ e ∈ post → e.2.glade = g → e.2.desc ≠ []) →
          t.wave? g = some ((({ w with haltCc := true } : Wave).setS k.dst 1).markFullS (range k.dst 1))) ∧
      (∀ n k, t.cmd? n = some k → k.glade = g → k.desc ≠ []) ∧
      (∀ c, c < 64 → ctxState s g c ≠ 0 → ctxState t g c = 3 ∧ (t.ctxSt g c).drainFrom = some ((s.ctxSt g c).drainFrom.getD s.now) ∧
        { vf := 128 + 64 * g + c, glade := g, ctx := c, closing := true } ∈ t.changes) ∧
      ((∃ c, c < 64 ∧ ctxState s g c ≠ 0) → t.clear.queue = [g] ∧ regFld t (.gld g) 0 31 29 = regFld s (.gld g) 0 31 29 ∧
        regFld t .clr 4 7 0 = 1) ∧
      ((∀ c, c < 64 → ctxState s g c = 0) → (∀ c ∈ s.changes, c.glade ≠ g) →
        t.clear.cur = some g ∧ t.clear.queue = [] ∧ regFld t (.gld g) 0 31 29 = 4 ∧
          regFld t .clr 4 31 31 = 1 ∧ regFld t .clr 4 27 22 = g ∧ 1 ≤ regFld t .clr 4 30 28))) ∧
  (∀ (s : State) (g : Nat) (ct w : List Byte), AskedWith s 0x14 (g :: (byteWords (ct ++ w)).map (·.toNat)) → Ready s →
    ct.length = 1568 → w.length = 72 →
    let i := Instr.keyLoad g ct w
    let slot := regFld s (.gld g) 0 21 16
    (s.kemKey = none → Served i s s 0x14 0x0A []) ∧
    (∀ p, s.kemKey = some p → Config.kemAgainst p ct = false → Served i s s 0x14 0x0A []) ∧
    (∀ p, s.kemKey = some p → Config.kemAgainst p ct = true →
      let s' : State := { s with kemKey := none }
      (Config.keyUnwrap (Config.kemSecret p ct) w = none → Served i s s' 0x14 9 []) ∧
      ∀ key, Config.keyUnwrap (Config.kemSecret p ct) w = some key →
        (regFld s (.gld g) 0 28 28 = 0 → Served i s s' 0x14 1 []) ∧
        (regFld s (.gld g) 0 28 28 = 1 → (∀ h ∈ Tab.keys s.glades, h ≠ g → ¬ (regFld s (.gld h) 0 28 28 = 1 ∧ regFld s (.gld h) 0 21 16 = slot)) →
          ∃ m, Served i s { s' with keys := Tab.put s.keys slot key, mem := m } 0x14 0 [] ∧
            ((∀ n, (frameOf s n).valid = true → (frameOf s n).key ≠ some slot) → Tab.wf s.frames = true → m = s.mem) ∧
            (Memory.wf s.mem = true → Tab.wf s.frames = true → Rekeyed s m slot key)) ∧
        (regFld s (.gld g) 0 28 28 = 1 → (∃ h ∈ Tab.keys s.glades, h ≠ g ∧ regFld s (.gld h) 0 28 28 = 1 ∧ regFld s (.gld h) 0 21 16 = slot) →
          Served i s s' 0x14 1 [])))

/-- R377, R393, R395, R429 to R437: mailbox requests of the device and of glades. Payloads, responses and the statuses the table leaves
open are the model's choices (notes/assumptions 92, 103). -/
def Obligations.MailboxRequests : Prop := MailboxDevice ∧ MailboxGlades

namespace Sys2Proof.Claims

open Sys2Proof Sys2Proof.Machine

/-! ## Readiness, decoding, the step and its invariants (R99, R100, R102, R104 to R123) -/

/-- Three-operand instructions on scalar registers. -/
def scalar3s : List (BitVec 8 → BitVec 8 → BitVec 8 → Instr) :=
  [.sadd, .ssub, .smul, .smulh, .smulhu, .sand, .sor, .sxor, .sandn, .sshl, .sshr, .ssra, .srot, .smin, .smax, .sminu, .smaxu,
   .scmpEq, .scmpNe, .scmpLt, .scmpLe, .scmpLtu, .scmpLeu, .sbfe, .sbfi, .ssel]

/-- Three-operand instructions on vector registers. -/
def vector3s : List (BitVec 7 → BitVec 7 → BitVec 7 → Bool → Bool → Instr) :=
  [.vaddI32, .vsubI32, .vmulI32, .vmulhI32, .vmulhUi32, .vmadI32, .vaddsatI32, .vaddsatUi32, .vsubsatI32, .vsubsatUi32, .vminI32,
   .vminUi32, .vmaxI32, .vmaxUi32, .vand, .vor, .vxor, .vandn, .vshl, .vrot, .vshr, .vsra, .vbfeUi32, .vbfeI32, .vbfi]

/-- Tables of a wave: split entries, registers, accumulator tiles and the items of its lanes. -/
def waveTables (w : Wave) : List Bool := [Tab.wf w.ents, Tab.wf w.sregs, Tab.wf w.vregs, Tab.wf w.tiles, Tab.wf w.items]

/-- What a delivery has set aside is listed in rising order too, and of vector registers 0 and 1 it holds 64 lanes. -/
def IntrTabled (it : Intr) : Prop :=
  Tab.wf it.ents ∧ Tab.wf it.sregs ∧ Tab.wf it.v01 ∧ ∀ e ∈ it.v01, e.1 < 64

/-- The registers and tables of a wave are listed in rising order, those it has set aside too. -/
def WaveTabled (w : Wave) : Prop := (waveTables w).all id = true ∧ ∀ it, w.intr = some it → IntrTabled it

/-- A block's scratchpad and the waves of its image are listed in rising order, and it names no wave twice. -/
def BlockTabled (b : Block) : Prop :=
  Tab.wf b.scr = true ∧ b.waves.Nodup ∧ ∀ im, b.image = some im → Tab.wf im.waves = true ∧ ∀ e ∈ im.waves, WaveTabled e.2

/-- Tables of what runs: waves, blocks, commands, operations, cores and probes. -/
def runTables (s : State) : List Bool :=
  [Tab.wf s.waves, Tab.wf s.blocks, Tab.wf s.cmds, Tab.wf s.ops, Tab.wf s.cores, Tab.wf s.probes]

/-- Tables of glades, memory management, registers and Canopy. -/
def storeTables (s : State) : List Bool :=
  [Tab.wf s.glades, Tab.wf s.frames, Tab.wf s.regs, Tab.wf s.canopy, Tab.wf s.lastSweep]

/-- Tables of firmware: keys, measurements, request records, replay sessions and error sources. -/
def firmwareTables (s : State) : List Bool :=
  [Tab.wf s.keys, Tab.wf s.meas, Tab.wf s.replaySes, Tab.wf s.errors]

/-- Tables of the dies: temperatures, what is done once in a ms, voltage domains and timebases. -/
def dieTables (s : State) : List Bool := [Tab.wf s.temps, Tab.wf s.msAt, Tab.wf s.droop, Tab.wf s.tbOff]

/-- Every table of the device lists each key once, in rising order. -/
def Tabled (s : State) : Prop :=
  (runTables s ++ storeTables s ++ firmwareTables s ++ dieTables s).all id = true ∧
  (∀ e ∈ s.waves, WaveTabled e.2) ∧ (∀ e ∈ s.blocks, BlockTabled e.2) ∧ (∀ e ∈ s.cmds, Tab.wf e.2.phases = true) ∧
  ∀ e ∈ s.errors, Tab.wf e.2.runs = true

/-- Nothing in use makes the device note anything of a step that ends in `t`: no counter, monitor or replay session is on, no
glade is over its bandwidth share, and of no pass does the mesh stage close, or the last store land, with this step. -/
def Unobserved (t : State) : Prop :=
  countingCores t = [] ∧ monitoring t = false ∧ t.replaySes = [] ∧ (∀ e ∈ t.glades, bwOver t e.1 = false) ∧
  ∀ e ∈ t.cmds, ∀ p, e.2.pass = some p →
    (p.closed = true ∨ meshOver t e.1 e.2 p = false) ∧ p.pending = !passQuiet t e.1 e.2

/-- The state after a step that is noted nowhere: the lines its requests filled are counted once, and then forgotten. -/
def noteless (t : State) : State := { t with fills := [] }

/-- A ready fragment of a quadrant: its wave, entry, class and itself. -/
abbrev ReadyFrag := Nat × Nat × Nat × Frag

/-- The ready fragments that may issue: one that has yielded only where it is the only one (R151). -/
def MayIssue (rs : List ReadyFrag) (x : ReadyFrag) : Prop := x ∈ rs ∧ (rs.length ≤ 1 ∨ x.2.2.2.yieldLeft = 0)

/-- A class below the highest ready class that has had a ready fragment for 64 opportunities without issuing (R60). -/
def Starves (starve : Tab Nat) (quad : Nat) (rs : List ReadyFrag) (c : Nat) : Prop :=
  64 ≤ Tab.valD starve (8 * quad + c) 0 ∧ (∃ x, MayIssue rs x ∧ x.2.2.1 = c) ∧ ∃ x, MayIssue rs x ∧ c < x.2.2.1

/-- The first fragment of its class, in age order, that may issue. -/
def OldestOf (rs : List ReadyFrag) (r : ReadyFrag) : Prop :=
  ∃ pre post, rs = pre ++ r :: post ∧ ∀ x ∈ pre, MayIssue rs x → x.2.2.1 ≠ r.2.2.1

/-- The current fragment of a device without turns, marked as the one that issues, at its core's present clk. -/
def Served1 (s : State) (wid eid : Nat) : State :=
  s.updFrag wid eid fun f => { f with stall := .issued, served := coreClk s ((s.waveD wid).coreNo wid) }

/-- Fragment `f` of wave `w` is served at its PC: nothing holds it back, and a control core has context 0 open. -/
def Serving (s : State) (wid eid : Nat) (w : Wave) (f : Frag) : Prop :=
  s.agenda = [] ∧ Issuing s wid eid w f ∧ blocked (Served1 s wid eid) w f = none ∧ (f.decoding = true ∨ f.watchDue = none) ∧ f.pc.toNat < 2 ^ 52 ∧
  (w.control = true → ctxState s w.glade 0 = 1)

/-- And its core's lines hold the bytes `bs` there. -/
def Fetches (s : State) (wid eid : Nat) (w : Wave) (f : Frag) (bs : List Byte) : Prop :=
  Serving s wid eid w f ∧ fetchUnit unitLen (liveLines s (w.coreNo wid)) w.glade w.fetchCtx f.pc.toNat = .ok bs

end Sys2Proof.Claims

open Sys2Proof Sys2Proof.Machine Sys2Proof.Claims

/-- R99, R100, R102, R123: operands that keep a unit from issuing, and operands that trap. -/
def Obligations.EmptyRegisters : Prop :=
  (∀ i ∈ scalar3s, ∀ (s : State) (wid eid : Nat) (w : Wave) (f : Frag) (d a b : BitVec 8), Issuing s wid eid w f →
    (216 ≤ a.toNat ∨ 216 ≤ b.toNat ∨ 192 ≤ d.toNat → Traps (i d a b) s wid eid f illegalOp 0 0) ∧
    (a.toNat < 216 → b.toNat < 216 → d.toNat < 192 →
      d.toNat ∈ w.sEmpty ∨ (a.toNat < 192 ∧ a.toNat ∈ w.sEmpty) ∨ (b.toNat < 192 ∧ b.toNat ∈ w.sEmpty) →
      NotReady (i d a b) s wid eid .emptySrc)) ∧
  (∀ i ∈ vector3s, ∀ (s : State) (wid eid : Nat) (w : Wave) (f : Frag) (d a b : BitVec 7) (fa fb : Bool), Issuing s wid eid w f →
    w.control = false → saveRefuses w = false →
    let u := i d a b fa fb
    let A := vecNo f a.toNat
    let B := vecNo f b.toNat
    let D := vecNo f d.toNat
    (w.nvreg ≤ A ∨ w.nvreg ≤ B ∨ w.nvreg ≤ D → Traps u s wid eid f regBound 0 0) ∧
    (A < w.nvreg → B < w.nvreg → D < w.nvreg →
      (D ∈ w.vEmpty ∨ (fa = false ∧ A ∈ w.vEmpty) ∨ (fb = false ∧ B ∈ w.vEmpty) → NotReady u s wid eid .emptySrc) ∧
      (D ∉ w.vEmpty → fa = true → A ∈ w.vEmpty → fb = true ∨ B ∉ w.vEmpty →
        Traps u s wid eid f emptyRead (BitVec.ofNat 32 A) 0) ∧
      (D ∉ w.vEmpty → A ∉ w.vEmpty → fb = true → B ∈ w.vEmpty → Traps u s wid eid f emptyRead (BitVec.ofNat 32 B) 0))) ∧
  (∀ i ∈ vector3s, ∀ (s : State) (wid eid : Nat) (w : Wave) (f : Frag) (d a b : BitVec 7) (fa fb : Bool), Issuing s wid eid w f →
    w.control = true → Traps (i d a b fa fb) s wid eid f illegalOp 0 0)

/-- R5 to R8, R19, R207, R361, R380, R419, R426, R428, R437: the device after power-on reset. -/
def Obligations.AfterReset : Prop :=
  let s := State.reset
  s.waves = [] ∧ s.blocks = [] ∧ s.cmds = [] ∧ s.ops = [] ∧ s.agenda = [] ∧ s.cur = none ∧ s.frames = [] ∧ s.canopy = [] ∧
  s.boot.stage = some 0 ∧ reg s .boot 0 = 0 ∧ reg s .mgt 0x10 = 0x01000400#32 ∧ regFld s .mgt 0x20 27 16 = 2400 ∧
  (∀ d, d < 13 → timebase s d = 0) ∧ (∀ a, getByte s.mem a = emptyByte) ∧ (∀ g, gladeState s g = 0) ∧
  (∀ c, c < 4 → regFld s .erw (4 * c) 31 16 = 1000 ∧ regFld s .erw (4 * c) 15 0 = 16) ∧
  (∀ n, n < 192 → sliceEn s n = false) ∧ (∀ g, g < 48 → reg s (.gld g) 0x1100 = 0x0000FFFF#32) ∧
  (∀ m, m < 16 → reg s .hmn (256 * m + 8) = 0xFFFFFFFF#32 ∧ reg s .hmn (256 * m + 12) = 0) ∧
  (∀ n, n < 8 → Tab.valD s.meas n 0 = 0) ∧ (∀ g, g < 64 → leaving s g = false) ∧ ∀ n, n < 1024 → reg s .cnp (0x10000 + 64 * n) = 0

/-- R4, R59, R105, R439: a step serves the current fragment: it runs the instruction that the bytes at its PC decode to, or
waits for its line, or takes the trap of its address, or stays as it is with the reason why it cannot issue. -/
def Obligations.StepRunsDecoded : Prop :=
  ∀ (s : State) (wid eid : Nat) (w : Wave) (f : Frag),
    (∀ bs i n, Fetches s wid eid w f bs → decodeUnit bs = .ok (i, n) →
      let s₁ : State := Served1 s wid eid
      step s = noted i s₁ (exec i s₁) ∧
      (∀ t, exec i s₁ = .next t → Unobserved t → step s = .next (noteless t)) ∧
      (∀ r, exec i s₁ = .fault r → step s = .fault r) ∧ (∀ r, exec i s₁ = .refused r → step s = .refused r)) ∧
    (∀ bs e, Fetches s wid eid w f bs → decodeUnit bs = .error e →
      let t : State := takeTrap (Served1 s wid eid) wid eid illegalOp 0 0 aFetch
      Unobserved t → step s = .next (noteless t)) ∧
    (∀ a, Serving s wid eid w f → fetchUnit unitLen (liveLines s (w.coreNo wid)) w.glade w.fetchCtx f.pc.toNat = .error a →
      step s = .next ((Served1 s wid eid).updFrag wid eid fun f => { f with stall := .icacheMiss })) ∧
    (s.agenda = [] → Issuing s wid eid w f →
      (∀ why, blocked (Served1 s wid eid) w f = some why → step s = .next ((Served1 s wid eid).updFrag wid eid fun f => { f with stall := why })) ∧
      (∀ a trig, blocked (Served1 s wid eid) w f = none → f.decoding = false → f.watchDue = some (a, trig) →
        step s = .next (takeWatch (Served1 s wid eid) wid eid a trig)) ∧
      (blocked (Served1 s wid eid) w f = none → f.decoding = true ∨ f.watchDue = none →
        (2 ^ 52 ≤ f.pc.toNat →
          let t : State := takeTrap (Served1 s wid eid) wid eid addrNoncanon 0 f.pc.toNat aFetch
          Unobserved t → step s = .next (noteless t)) ∧
        (f.pc.toNat < 2 ^ 52 → w.control = true → ctxState s w.glade 0 ≠ 1 →
          let t : State := takeTrap (Served1 s wid eid) wid eid perm 0 f.pc.toNat aFetch
          Unobserved t → step s = .next (noteless t))))

/-- R3, R4, R60, R151, R438: a turn of the agenda runs its event, or serves the fragment that the scheduler chooses, and time passes
by as much as it says; between turns none passes. -/
def Obligations.TurnsRun : Prop :=
  (∀ (s : State) (t : Turn) (rest : List Turn), s.agenda = t :: rest → countingCores s = [] →
    let s₁ : State := { s with agenda := rest, now := s.now + t.ns }
    (∀ i, t.act = .event i → i.isEvent = true → step s = noted i s₁ (exec i s₁)) ∧
    (∀ i, t.act = .event i → i.isEvent = false → step s = .refused .noAgent) ∧
    (t.act = .pass → step s = .next s₁) ∧
    (∀ wid eid, t.act = .issue wid eid → rest = [] →
      let core := (s.waveD wid).coreNo wid
      let quad := (s.waveD wid).quad
      ((s.coreSt core).gated = false → step s = step { s₁ with cur := some (wid, eid) }) ∧
      ((s.coreSt core).gated = true → (s.coreSt core).skips.getD quad false = true → ∃ t', step s = .next t' ∧ t'.mem = s.mem ∧ t'.ops = s.ops ∧
        ∀ w f f', s.wave? wid = some w → w.frag? eid = some f → t'.frag? wid eid = some f' → f' = { f with stall := f'.stall })) ∧
    (∀ core quad, t.act = .opportunity core quad → (s.coreSt core).gated = false →
      let rs := readyFrags s₁ core quad
      (∀ k e c f, choose (s.coreSt core).starve quad rs = some (k, e, c, f) →
        step s = serve k e (countWaiting (countYield core quad s₁) core quad rs (k, e, c))) ∧
      (choose (s.coreSt core).starve quad rs = none → ∃ t', step s = .next t' ∧ t'.mem = s.mem ∧ t'.ops = s.ops ∧
        ∀ wid eid f, s.frag? wid eid = some f → ∃ n, t'.frag? wid eid = some { f with yieldLeft := n }))) ∧
  (∀ (starve : Tab Nat) (quad : Nat) (rs : List ReadyFrag) (r : ReadyFrag), choose starve quad rs = some r →
    MayIssue rs r ∧ ((∃ c, Starves starve quad rs c) → Starves starve quad rs r.2.2.1 ∧ (∀ c, Starves starve quad rs c → r.2.2.1 ≤ c) ∧ OldestOf rs r) ∧
    ((∀ c, ¬ Starves starve quad rs c) → (∀ x, MayIssue rs x → x.2.2.1 ≤ r.2.2.1) ∧
      ((∃ x, MayIssue rs x ∧ x.2.2.1 = r.2.2.1 ∧ x.2.2.2.overdue ≠ none) → ∃ n, r.2.2.2.overdue = some n ∧
        ∀ x m, MayIssue rs x → x.2.2.1 = r.2.2.1 → x.2.2.2.overdue = some m → n ≤ m) ∧
      ((∀ x, MayIssue rs x → x.2.2.1 = r.2.2.1 → x.2.2.2.overdue = none) → OldestOf rs r))) ∧
  (∀ (starve : Tab Nat) (quad : Nat) (rs : List ReadyFrag),
    (choose starve quad rs = none ↔ ∀ x, ¬ MayIssue rs x)) ∧
  (∀ s : State, s.agenda = [] → s.cur = none → step s = .next s)

/-- R105 to R122: words written out from the encodings of each layout decode to the instructions they stand for. -/
def Obligations.DecodeWords : Prop :=
  decodeTableWord 16 0x2E02 = some (.vaddI32Short 0x30#6 0x05#5) ∧
  decodeTableWord 32 0x02010301 = some (.sadd 3#8 1#8 2#8) ∧
  decodeTableWord 32 0x12340541 = some (.sli .none 5#8 0x1234#16) ∧
  decodeTableWord 64 0x123405410ABCD0FF = some (.sli (.imm 0xABCD#16) 5#8 0x1234#16) ∧
  decodeTableWord 32 0xFFFFFE45 = some (.jmp 0xFFFFFE#24) ∧
  decodeTableWord 32 0xFFF8074D = some (.bnz 7#8 0xFFF8#16) ∧
  decodeTableWord 32 0x10411455 = some (.sysrd 20#8 0x41#8) ∧
  decodeTableWord 32 0x08000263 = some (.waitcnt 2#3 0#6) ∧
  decodeTableWord 32 0x06151E69 = some (.drdv 30#8 21#8) ∧
  decodeTableWord 32 0x21018571 = some (.vaddI32 5#7 3#7 4#7 true false) ∧
  decodeTableWord 64 0x028808D1FFFFC1FF = some (.vldW (.ofs 0xFFFFC#20) 8#7 16#7 10#8 false) ∧
  decodeTableWord 32 0x0A0514E7 = some (.vcopy16G2s .none 20#7 10#7 40#8 false) ∧
  decodeTableWord 32 0x0A1002F5 = some (.mma 2#4 32#7 40#8 false) ∧
  decodeTableWord 32 0x051028F9 = some (.sclook 40#7 32#7 20#8 false) ∧
  decodeTableWord 32 0x008028FD = some (.rsget 40#7) ∧
  decodeTableWord 32 0x0000006F = none

/-- R105 to R122: decoding the encoding of an instruction gives it back, whatever bytes follow. -/
def Obligations.DecodeOfEncode : Prop :=
  ∀ (i : Instr) (rest : List Byte), i.wf = true → decodeUnit (encode i ++ rest) = .ok (i, (encode i).length)

/-- R105 to R123: bytes that decode are the encoding of a well-formed instruction: no field is ignored. -/
def Obligations.EncodeOfDecode : Prop :=
  ∀ (bs : List Byte) (i : Instr) (n : Nat), decodeUnit bs = .ok (i, n) → i.wf = true ∧ bs.take n = encode i

/-- Every step keeps memory in its canonical form. -/
def Obligations.MemoryStaysCanonical : Prop := ∀ s t : State, s.Inv → step s = .next t → t.Inv

/-- Every step keeps the tables of the device in order. -/
def Obligations.TablesStayOrdered : Prop := ∀ s t : State, Tabled s → step s = .next t → Tabled t

/-- Both hold after reset. -/
def Obligations.ResetIsWellFormed : Prop := State.Inv State.reset ∧ Tabled State.reset

namespace Sys2Proof.Claims

open Sys2Proof Sys2Proof.Machine

/-- The fragment goes on alone at its next unit: no deferral, no rejoin address and no step of a debugger. -/
def Plain (f : Frag) : Prop := f.stack = [] ∧ f.rejoin = none ∧ f.stepping = 0 ∧ f.pending = none

/-- Fragment `f` of wave `w` is past its unit in `t`, and memory is as it was. -/
def Passed (s t : State) (wid eid : Nat) (f : Frag) : Prop :=
  t.mem = s.mem ∧ ∃ g, t.frag? wid eid = some g ∧ g.pc = f.pc + 4 ∧ g.memb = f.memb ∧ g.emask = f.emask ∧ g.held = none

end Sys2Proof.Claims

open Sys2Proof Sys2Proof.Machine Sys2Proof.Claims

/-- R153 to R155, R250, R328, R334, R335: `trap` enters the user handler and `rett` leaves it; `primemit`, `meshend`, `rsget`,
`rtwrite` and `rtread` complete where their operands are ready and their wave is of the stage that may issue them; a wait past
its limit ends in WAIT_TIMEOUT, here in a wave with a user handler. Each conclusion is a next state. -/
def Obligations.HandlersPipeUnitsAndTimeoutsComplete : Prop :=
  (∀ (s : State) (wid eid : Nat) (w : Wave) (f : Frag) (a : BitVec 8), Issuing s wid eid w f → Plain f → SrcS w a →
    w.control = false → w.intr = none → w.uhandler ≠ 0 → f.trap.inHandler = false →
    ∃ t g, exec (.trap a) s = .next t ∧ t.mem = s.mem ∧ t.frag? wid eid = some g ∧ g.pc = w.uhandler ∧ g.trap.inHandler = true ∧
      g.trap.rpc = f.pc + 4 ∧ g.trap.cause = 0x16#8 ∧ g.trap.tpc = f.pc ∧ g.trap.targ = opS s wid w f a) ∧
  (∀ (s : State) (wid eid : Nat) (w : Wave) (f : Frag), Issuing s wid eid w f → Plain f → f.trap.inHandler = true →
    ∃ t g, exec .rett s = .next t ∧ t.mem = s.mem ∧ t.frag? wid eid = some g ∧ g.pc = f.trap.rpc ∧ g.trap.inHandler = false ∧
      g.pending = f.trap.savedRj) ∧
  (∀ (s : State) (wid eid : Nat) (w : Wave) (f : Frag) (a : BitVec 7) (fa : Bool), Issuing s wid eid w f → Plain f →
    w.control = false → w.stage = 2 →
    (w.meshend = false → (∃ h, f.held = some h ∧ h.stage = 1) ∨
        (f.held = none ∧ f.active = 0#32 ∧ VSrc.Ready w f { fd := a.toNat, cnt := 14, tie := fa }) →
      ∃ t, exec (.primemit a fa) s = .next t ∧ Passed s t wid eid f) ∧
    ∃ t w', exec .meshend s = .next t ∧ Passed s t wid eid f ∧ t.wave? wid = some w' ∧ w'.meshend = true) ∧
  (∀ (s : State) (wid eid : Nat) (w : Wave) (f : Frag) (k : Cmd) (p : PassSt) (r : BitVec 7) (fa : Bool) (n : BitVec 3),
    Resolving s wid eid w f k p → Plain f →
    (Unwatched s w → DstVReady w f (r.toNat, 8, false) → f.active = 0#32 ∨ (oldestTile p w.blk = none ∧ roundOver p = true) ∨
        (∃ tile x, oldestTile p w.blk = some (tile, x) ∧ x.st ≠ 1) →
      ∃ t, exec (.rsget r) s = .next t ∧ Passed s t wid eid f) ∧
    (n.toNat < k.ncolor →
      let c := k.colourBytes n.toNat / 4
      (VSrc.Ready w f { fd := r.toNat, cnt := c, tie := fa } → ∃ t, exec (.rtwrite r fa n) s = .next t ∧ Passed s t wid eid f) ∧
      (Unwatched s w → DstVReady w f (r.toNat, c, false) → ∃ t, exec (.rtread r n) s = .next t ∧ Passed s t wid eid f))) ∧
  (∀ (s : State) (wid eid : Nat) (w : Wave) (f : Frag) (h : Held), s.wave? wid = some w → w.frag? eid = some f → Plain f →
    f.held = some h → h.kind ≤ 5 → h.due s.now = true → f.halt = none → waitMet s wid w h = false →
    w.control = false → w.intr = none → (s.blkD w.blk).st = .running → w.uhandler ≠ 0 → f.trap.inHandler = false →
    ∃ t g, exec (.waitTimeout wid eid) s = .next t ∧ t.mem = s.mem ∧ t.frag? wid eid = some g ∧ g.pc = w.uhandler ∧
      g.held = none ∧ g.trap.inHandler = true ∧ g.trap.rpc = f.pc ∧ g.trap.cause = 0x0F#8 ∧ g.trap.tpc = f.pc ∧
      g.trap.targ = BitVec.ofNat 32 h.tcount)
end

