-- ==== Sys2Proof/Laws/Canopy.lean ====
section
/-! SUPPORT. Fill handles: what makes a handle from an entry and its GEN can be undone. -/

namespace Sys2Proof.Machine

/-- The upper and the lower half of two halves put together. -/
theorem append_halves (a b : BitVec 16) : (a ++ b).extractLsb' 16 16 = a ∧ (a ++ b).extractLsb' 0 16 = b := by
  constructor <;> ext i hi <;> rw [BitVec.getElem_extractLsb', BitVec.getLsbD_append]
  · simp [BitVec.getLsbD_eq_getElem, hi]
  · simp [BitVec.getLsbD_eq_getElem, hi]

/-- A round is undone by its inverse, whatever the model's round function is. -/
@[simp] theorem unmixWord_mixWord (i : Nat) (x : Word) : unmixWord i (mixWord i x) = x := by
  simp only [unmixWord, mixWord, append_halves, BitVec.xor_assoc, BitVec.xor_self, BitVec.xor_zero]
  ext j hj
  simp only [BitVec.getElem_append, BitVec.getElem_extractLsb']
  split
  · simp [BitVec.getLsbD_eq_getElem, hj]
  · rw [show 16 + (j - 16) = j by omega]; simp [BitVec.getLsbD_eq_getElem, hj]

/-- A handle names the entry and the GEN it was made for. -/
theorem handleOf_fillHandle (e gen : Nat) : handleOf (fillHandle e gen) =
    ((512 * e + gen) % 2 ^ 32 / 512, (512 * e + gen) % 2 ^ 32 % 512) := by
  simp [handleOf, fillHandle]

end Sys2Proof.Machine
end

