-- ==== Sys2Proof/Laws/Memory.lean ====
section
/-! SUPPORT. Memory: reading after writing, and that every memory operation keeps the canonical form. -/

namespace Sys2Proof.Machine

open Sys2Proof

/-- Every cell lies above address `k`. -/
def cellsAbove (k : Nat) (m : List Host.Cell) : Prop := ∀ c ∈ m, k < c.1

theorem memory_wf_cons (k : Nat) (b : Byte) (m : List Host.Cell) :
    Memory.wf ((k, b) :: m) = true ↔ b ≠ emptyByte ∧ cellsAbove k m ∧ Memory.wf m = true := by
  induction m generalizing k b with
  | nil => simp [Memory.wf, cellsAbove]
  | cons c m ih =>
    obtain ⟨j, x⟩ := c
    have ih := ih j x
    simp only [Memory.wf, Bool.and_eq_true, decide_eq_true_eq, bne_iff_ne, cellsAbove, List.mem_cons, forall_eq_or_imp]
    simp only [cellsAbove] at ih
    constructor
    · rintro ⟨⟨hb, h⟩, h'⟩; exact ⟨hb, ⟨h, fun e he => h.trans ((ih.mp h').2.1 e he)⟩, h'⟩
    · rintro ⟨hb, ⟨h, _⟩, h'⟩; exact ⟨⟨hb, h⟩, h'⟩

theorem cellsAbove_setByte {k a : Nat} {m : List Host.Cell} (b : Byte) (h : cellsAbove k m) (ha : k < a) :
    cellsAbove k (setByte m a b) := by
  induction m with
  | nil => unfold setByte; split <;> simp [cellsAbove, ha]
  | cons c m ih =>
    obtain ⟨j, x⟩ := c
    have hm : cellsAbove k m := fun e he => h e (List.mem_cons_of_mem _ he)
    have hj : k < j := h (j, x) (by simp)
    unfold setByte
    split_ifs <;> intro e he
    · exact hm e he
    · rcases List.mem_cons.mp he with rfl | he
      exacts [ha, hm e he]
    · exact h e he
    · rcases List.mem_cons.mp he with rfl | he
      exacts [ha, h e he]
    · rcases List.mem_cons.mp he with rfl | he
      exacts [hj, ih hm e he]

theorem setByte_wf {m : List Host.Cell} (a : Nat) (b : Byte) (h : Memory.wf m = true) :
    Memory.wf (setByte m a b) = true := by
  induction m with
  | nil => unfold setByte; split <;> simp_all [Memory.wf]
  | cons c m ih =>
    obtain ⟨j, x⟩ := c
    obtain ⟨hx, ha, hm⟩ := (memory_wf_cons j x m).mp h
    unfold setByte
    split_ifs with h1 h2 h3 h4
    · exact hm
    · simp only [beq_iff_eq] at h1 h2; subst h1
      exact (memory_wf_cons _ _ _).mpr ⟨h2, ha, hm⟩
    · exact h
    · simp only [beq_iff_eq] at h4
      refine (memory_wf_cons _ _ _).mpr ⟨h4, fun e he => ?_, h⟩
      rcases List.mem_cons.mp he with rfl | he
      exacts [h3, h3.trans (ha e he)]
    · simp only [beq_iff_eq] at h1
      exact (memory_wf_cons _ _ _).mpr ⟨hx, cellsAbove_setByte b ha (by omega), ih hm⟩

theorem getByte_of_cellsAbove {k a : Nat} {m : List Host.Cell} (h : cellsAbove k m) (ha : a ≤ k) :
    getByte m a = emptyByte := by
  cases m with
  | nil => rfl
  | cons c m =>
    obtain ⟨j, x⟩ := c
    have hj : k < j := h (j, x) (by simp)
    simp only [getByte, beq_iff_eq]
    split_ifs <;> first | rfl | omega

/-- Reading one byte after writing one. -/
theorem getByte_setByte {m : List Host.Cell} (a a' : Nat) (b : Byte) (h : Memory.wf m = true) :
    getByte (setByte m a b) a' = if a' = a then b else getByte m a' := by
  induction m with
  | nil =>
    unfold setByte
    split_ifs with h1 h2 <;> simp_all [getByte]
    omega
  | cons c m ih =>
    obtain ⟨j, x⟩ := c
    obtain ⟨hx, ha, hm⟩ := (memory_wf_cons j x m).mp h
    unfold setByte
    by_cases h1 : j = a
    · subst h1
      by_cases h2 : a' = j
      · subst h2
        by_cases hb : b = emptyByte
        · simp [hb, getByte_of_cellsAbove ha]
        · simp [hb, getByte]
      · by_cases hb : b = emptyByte
        · simp only [beq_self_eq_true, if_true, hb, h2, if_false, getByte, beq_iff_eq, Ne.symm h2]
          split_ifs with h3
          · exact getByte_of_cellsAbove ha h3.le
          · rfl
        · simp [hb, getByte, h2, Ne.symm h2]
    · by_cases h2 : a < j
      · by_cases h3 : a' = a
        · subst h3
          by_cases hb : b = emptyByte
          · simp [h1, h2, hb, getByte]
          · simp [h1, h2, hb, getByte]
        · by_cases hb : b = emptyByte
          · simp [h1, h2, hb, h3]
          · simp only [beq_iff_eq, h1, if_false, h2, if_true, hb, h3, getByte, Ne.symm h3]
            split_ifs <;> first | rfl | omega
      · simp only [beq_iff_eq, h1, if_false, h2, getByte]
        by_cases h3 : j = a'
        · subst h3; simp [h1]
        · simp only [h3, if_false]
          by_cases h4 : a' < j
          · rw [if_pos h4, if_pos h4, if_neg (by omega)]
          · rw [if_neg h4, if_neg h4, ih hm]

theorem setMem_wf {m : List Host.Cell} (a n x : Nat) (h : Memory.wf m = true) : Memory.wf (setMem m a n x) = true := by
  induction n generalizing m a x with
  | zero => exact h
  | succ n ih => exact ih _ _ (setByte_wf _ _ h)

/-- Reading one byte after writing a number: the bytes written are those of the number, low first, and no other changes. -/
theorem getByte_setMem {m : List Host.Cell} (a n x a' : Nat) (h : Memory.wf m = true) :
    getByte (setMem m a n x) a' =
      if a ≤ a' ∧ a' < a + n then BitVec.ofNat 8 (x / 256 ^ (a' - a)) else getByte m a' := by
  induction n generalizing m a x with
  | zero => simp [setMem]
  | succ n ih =>
    rw [setMem, ih _ _ (setByte_wf _ _ h), getByte_setByte _ _ _ h]
    by_cases h1 : a' = a
    · subst h1; simp
    · by_cases h2 : a + 1 ≤ a' ∧ a' < a + 1 + n
      · rw [if_pos h2, if_pos (by omega), Nat.div_div_eq_div_mul]
        congr 2
        rw [show a' - a = (a' - (a + 1)) + 1 by omega, pow_succ, mul_comm]
      · rw [if_neg h2, if_neg h1, if_neg (by omega)]

theorem getByte_setMem_outside {m : List Host.Cell} {a n a' : Nat} (x : Nat) (h : Memory.wf m = true)
    (ha : a' < a ∨ a + n ≤ a') : getByte (setMem m a n x) a' = getByte m a' := by
  rw [getByte_setMem a n x a' h, if_neg (by omega)]

theorem setMasked_wf {m : List Host.Cell} (a : Nat) (data : BitVec 1024) (mask : BitVec 128) (h : Memory.wf m = true) :
    Memory.wf (setMasked m a data mask) = true := by
  unfold setMasked
  generalize List.range 128 = l
  induction l generalizing m with
  | nil => exact h
  | cons i l ih =>
    rw [List.foldl_cons]
    split_ifs
    exacts [ih (setByte_wf _ _ h), ih h]

theorem filter_cells_wf {m : List Host.Cell} (p : Host.Cell → Bool) (h : Memory.wf m = true) :
    Memory.wf (m.filter p) = true := by
  induction m with
  | nil => exact h
  | cons c m ih =>
    obtain ⟨j, x⟩ := c
    obtain ⟨hx, ha, hm⟩ := (memory_wf_cons j x m).mp h
    rw [List.filter_cons]
    split_ifs
    · exact (memory_wf_cons _ _ _).mpr ⟨hx, fun e he => ha e (List.mem_of_mem_filter he), ih hm⟩
    · exact ih hm

theorem clearMem_wf {m : List Host.Cell} (a n : Nat) (h : Memory.wf m = true) : Memory.wf (clearMem m a n) = true :=
  filter_cells_wf _ h

/-- Reading one byte after clearing a range. -/
theorem getByte_clearMem {m : List Host.Cell} (a n a' : Nat) (h : Memory.wf m = true) :
    getByte (clearMem m a n) a' = if a ≤ a' ∧ a' < a + n then emptyByte else getByte m a' := by
  induction m with
  | nil => simp [clearMem, getByte]
  | cons c m ih =>
    obtain ⟨j, x⟩ := c
    obtain ⟨hx, ha, hm⟩ := (memory_wf_cons j x m).mp h
    have ih := ih hm
    simp only [clearMem, List.filter_cons, Bool.or_eq_true, decide_eq_true_eq] at ih ⊢
    by_cases hj : j < a ∨ a + n ≤ j
    · simp only [hj, if_true, getByte, beq_iff_eq, ih]
      by_cases h1 : j = a'
      · subst h1; rw [if_pos rfl, if_neg (by omega)]; simp
      · by_cases h2 : a' < j
        · simp [h1, h2]
        · simp [h1, h2]
    · simp only [hj, if_false, ih, getByte, beq_iff_eq]
      by_cases h1 : a ≤ a' ∧ a' < a + n
      · simp [h1]
      · rw [if_neg h1, if_neg h1, if_neg (by omega)]
        split_ifs with h2
        · exact getByte_of_cellsAbove ha h2.le
        · rfl

end Sys2Proof.Machine
end

