-- ==== Sys2Proof/Laws/Operands.lean ====
section
/-! SUPPORT. Operands: where every operand of a unit is legal and full, reading them answers their values and traps on
nothing. -/

namespace Sys2Proof.Machine

open Sys2Proof

@[simp] theorem ok_bind {α β : Type} (a : α) (f : α → Eff β) : (Except.ok a >>= f) = f a := rfl
@[simp] theorem error_bind {α β : Type} (e : Stop) (f : α → Eff β) : ((Except.error e : Eff α) >>= f) = .error e := rfl
@[simp] theorem trapIf_false (c : Nat) : trapIf false c = .ok () := rfl
@[simp] theorem trapIf_true (c : Nat) : trapIf true c = trap c := rfl
@[simp] theorem require_true (n : String) : require true n = .ok () := rfl
@[simp] theorem need_some {α : Type} (a : α) (n : String) : need (some a) n = .ok a := rfl
@[simp] theorem runEvent_ok (s t : State) : runEvent s (.ok t) = .next t := rfl

theorem trapIf_of_false {b : Bool} (h : b = false) (c : Nat) : trapIf b c = .ok () := by subst h; rfl

theorem mem_range_iff (r n k : Nat) : k ∈ range r n ↔ r ≤ k ∧ k < r + n := by
  simp only [range, List.mem_map, List.mem_range]
  constructor
  · rintro ⟨a, ha, rfl⟩; omega
  · rintro ⟨h1, h2⟩; exact ⟨k - r, by omega, by omega⟩

theorem vecReg_ok {w : Wave} {f : Frag} {fd : Nat} (h : vecNo f fd < w.nvreg) : vecReg w f fd = .ok (vecNo f fd) := by
  unfold vecReg
  simp only [← vecNo.eq_1]
  rw [if_neg (by omega)]

theorem vecRange_ok {w : Wave} {f : Frag} {fd cnt : Nat} {pair : Bool} (h : VecIn w (vecNo f fd) cnt pair) :
    vecRange w f fd cnt pair = .ok (vecNo f fd) := by
  obtain ⟨h1, h2, h3⟩ := h
  have hp : (pair && vecNo f fd % 2 == 1) = false := by
    cases pair
    · rfl
    · simp [h1 rfl]
  have hr : decide (w.nvreg < vecNo f fd + cnt) = false := by simp; omega
  simp [vecRange, vecReg_ok h2, hp, hr]

theorem vecSrcs_ok {w : Wave} {f : Frag} {xs : List VSrc} (h : ∀ x ∈ xs, x.Ready w f) :
    vecSrcs w f xs = .ok (xs.map fun x => vecNo f x.fd) := by
  induction xs with
  | nil => rfl
  | cons x xs ih =>
    rw [List.forall_mem_cons] at h
    simp [vecSrcs, vecRange_ok h.1.1, ih h.2]

theorem vecDst_ok {w : Wave} {f : Frag} {fd cnt : Nat} {pair : Bool} (h : DstVReady w f (fd, cnt, pair)) :
    vecDst w f fd cnt pair = .ok (vecNo f fd) := by
  have hs : (saveRefuses w && decide (2 < vecNo f fd + cnt)) = false := by
    cases hw : saveRefuses w
    · rfl
    · have := h.2.2 hw; simp; omega
  simp [vecDst, vecRange_ok h.1, hs]

theorem scalarCheck_ok {w : Wave} {x : SSrc} (h : x.Ready w) : scalarCheck x = .ok () := by
  unfold scalarCheck
  rcases h with ⟨h1, h2, h3, _⟩ | ⟨h1, h2, h3⟩ | ⟨h1, h2, h3, h4⟩
  · have hp : (x.pair && x.fd % 2 == 1) = false := by
      cases hx : x.pair
      · rfl
      · simp [h3 hx]
    rw [if_pos h1, hp]; simp [Nat.not_lt.mpr h2]
  · rw [if_neg (by omega), if_neg (by omega), if_neg (by omega)]
    rcases h3 with h3 | ⟨h3, h4⟩ <;> simp [*]
  · rw [if_neg (by omega), if_neg (by omega), if_pos h1]; simp [h3, h4]

theorem scalarChecks_ok {w : Wave} {xs : List SSrc} (h : ∀ x ∈ xs, x.Ready w) : scalarChecks xs = .ok () := by
  induction xs with
  | nil => rfl
  | cons x xs ih =>
    rw [List.forall_mem_cons] at h
    simp [scalarChecks, scalarCheck_ok h.1, ih h.2]

theorem scalarDst_ok {w : Wave} {fd cnt : Nat} {pair : Bool} (h : DstSReady w (fd, cnt, pair)) :
    scalarDst fd cnt pair = .ok () := by
  have hp : (pair && fd % 2 == 1) = false := by
    cases hx : pair
    · rfl
    · subst hx; have := h.2.1 rfl; simp at this; simp [this]
  have := h.1
  unfold scalarDst
  rw [hp]; simp only [Bool.or_false, decide_eq_true_eq]
  rw [if_neg (by simp at this; omega)]

theorem fullS_ok (s : State) {w : Wave} {rs : List Nat} (h : ∀ r ∈ rs, r ∉ w.sEmpty) : fullS s w rs = .ok () := by
  unfold fullS; rw [if_neg]; simpa using h

theorem fullV_ok (s : State) {w : Wave} {rs : List Nat} (h : ∀ r ∈ rs, r ∉ w.vEmpty) : fullV s w rs = .ok () := by
  unfold fullV; rw [if_neg]; simpa using h

@[simp] theorem fullS_nil (s : State) (w : Wave) : fullS s w [] = .ok () := rfl
@[simp] theorem fullV_nil (s : State) (w : Wave) : fullV s w [] = .ok () := rfl

theorem regs_full {w : Wave} {x : SSrc} (h : x.Ready w) : ∀ r ∈ x.regs, r ∉ w.sEmpty := by
  intro r hr
  unfold SSrc.regs at hr
  split_ifs at hr with hx
  · rcases h with h | h | h
    · rw [mem_range_iff] at hr; exact h.2.2.2 r hr.1 hr.2
    · omega
    · omega
  · simp at hr

theorem zip_map_mem {xs : List VSrc} {g : VSrc → Nat} {p : VSrc × Nat} (h : p ∈ xs.zip (xs.map g)) :
    p.1 ∈ xs ∧ p.2 = g p.1 := by
  induction xs with
  | nil => simp at h
  | cons x xs ih =>
    simp only [List.map_cons, List.zip_cons_cons, List.mem_cons] at h
    rcases h with rfl | h
    · simp
    · exact ⟨List.mem_cons_of_mem _ (ih h).1, (ih h).2⟩

theorem tieCheck_ok {w : Wave} {xs : List (VSrc × Nat)} (h : ∀ p ∈ xs, FullV w p.2 p.1.cnt) :
    tieCheck w xs = .ok () := by
  induction xs with
  | nil => rfl
  | cons p xs ih =>
    obtain ⟨x, n⟩ := p
    rw [List.forall_mem_cons] at h
    have hn : (range n x.cnt).find? (fun r => w.vEmpty.contains r) = none := by
      rw [List.find?_eq_none]
      intro r hr
      rw [mem_range_iff] at hr
      simpa using h.1 r hr.1 hr.2
    unfold tieCheck; rw [hn, ih h.2]; simp

/-- Ready operands are read without a trap or a wait. -/
theorem getOpnds_ok (s : State) (wid : Nat) {w : Wave} {f : Frag} {o : Opnds} (h : o.Ready w f) :
    getOpnds s wid w f o = .ok (o.got s wid w f) := by
  obtain ⟨hv, hs, hvd, hsd⟩ := h
  obtain ⟨v, ss, vd, sd⟩ := o
  have hb : ∀ r ∈ blockingV v (v.map fun x => vecNo f x.fd), r ∉ w.vEmpty := by
    intro r hr
    simp only [blockingV, List.mem_flatMap] at hr
    obtain ⟨⟨x, n⟩, hp, hr⟩ := hr
    obtain ⟨hx, he⟩ := zip_map_mem hp
    simp only at hx he hr
    subst he
    split_ifs at hr
    · simp at hr
    · rw [mem_range_iff] at hr; exact (hv x hx).2 r hr.1 hr.2
  have ht : tieCheck w (v.zip (v.map fun x => vecNo f x.fd)) = .ok () := by
    refine tieCheck_ok fun p hp => ?_
    obtain ⟨hx, he⟩ := zip_map_mem hp
    rw [he]; exact (hv _ hx).2
  have hf : fullS s w (ss.flatMap SSrc.regs) = .ok () := by
    refine fullS_ok s fun r hr => ?_
    rw [List.mem_flatMap] at hr
    obtain ⟨x, hx, hr⟩ := hr
    exact regs_full (hs x hx) r hr
  unfold getOpnds getOpndsFor readyOpnds Opnds.got
  rw [vecSrcs_ok hv, scalarChecks_ok hs, hf]
  cases vd with
  | none =>
    cases sd with
    | none => simp [fullV_ok s hb, ht]
    | some d =>
      obtain ⟨d, c, p⟩ := d
      have hd := hsd _ rfl
      have : fullS s w (range d c) = .ok () := fullS_ok s fun r hr => by
        rw [mem_range_iff] at hr; exact hd.2.2 r hr.1 hr.2
      simp [scalarDst_ok hd, this, fullV_ok s hb, ht]
  | some e =>
    obtain ⟨e, c, p⟩ := e
    have he := hvd _ rfl
    have h1 : fullV s w (range (vecNo f e) c) = .ok () := fullV_ok s fun r hr => by
      rw [mem_range_iff] at hr; exact he.2.1 r hr.1 hr.2
    cases sd with
    | none => simp [vecDst_ok he, h1, fullV_ok s hb, ht]
    | some d =>
      obtain ⟨d, c', p'⟩ := d
      have hd := hsd _ rfl
      have : fullS s w (range d c') = .ok () := fullS_ok s fun r hr => by
        rw [mem_range_iff] at hr; exact hd.2.2 r hr.1 hr.2
      simp [vecDst_ok he, h1, scalarDst_ok hd, this, fullV_ok s hb, ht]

end Sys2Proof.Machine
end

