-- ==== Sys2Proof/Laws/Tab.lean ====
section
/-! SUPPORT. Tables: reading after writing, and that writing keeps the keys rising. -/

namespace Sys2Proof.Tab

variable {α : Type}

@[simp] theorem val?_put_self (t : Tab α) (k : Nat) (v : α) : val? (put t k v) k = some v := by
  induction t with
  | nil => simp [put, val?]
  | cons e t ih => obtain ⟨j, x⟩ := e; unfold put; split_ifs <;> simp_all [val?]

theorem val?_put_ne (t : Tab α) {k j : Nat} (v : α) (h : j ≠ k) : val? (put t k v) j = val? t j := by
  induction t with
  | nil => simp [put, val?]; omega
  | cons e t ih =>
    obtain ⟨i, x⟩ := e
    unfold put
    split_ifs with h1 h2
    · simp only [beq_iff_eq] at h1; subst h1; simp [val?, Ne.symm h]
    · simp only [beq_iff_eq] at h1
      simp only [val?, beq_iff_eq]
      split_ifs <;> first | rfl | omega
    · simp only [val?, ih]

theorem val?_put (t : Tab α) (k j : Nat) (v : α) : val? (put t k v) j = if j = k then some v else val? t j := by
  split_ifs with h
  · subst h; simp
  · exact val?_put_ne t v h

@[simp] theorem del_put (t : Tab α) (k : Nat) (v : α) : del (put t k v) k = del t k := by
  induction t with
  | nil => simp [put, del]
  | cons e t ih =>
    obtain ⟨i, x⟩ := e
    by_cases h1 : i = k
    · subst h1; simp [put, del]
    · by_cases h2 : k < i
      · simp [put, del, h1, h2]
      · simp [put, del, h1, h2, ih]

@[simp] theorem put_put (t : Tab α) (k : Nat) (v v' : α) : put (put t k v) k v' = put t k v' := by
  induction t with
  | nil => simp [put]
  | cons e t ih =>
    obtain ⟨i, x⟩ := e
    by_cases h1 : i = k
    · subst h1; simp [put]
    · by_cases h2 : k < i
      · simp [put, h1, h2]
      · simp [put, h1, h2, ih]

theorem upd_of_val? {t : Tab α} {k : Nat} {v : α} (f : α → α) (h : val? t k = some v) : upd t k f = put t k (f v) := by
  simp [upd, h]

theorem upd_of_none {t : Tab α} {k : Nat} (f : α → α) (h : val? t k = none) : upd t k f = t := by
  simp [upd, h]

theorem val?_upd_ne (t : Tab α) {k j : Nat} (f : α → α) (h : j ≠ k) : val? (upd t k f) j = val? t j := by
  unfold upd; split
  · exact val?_put_ne t _ h
  · rfl

@[simp] theorem val?_upd_self (t : Tab α) (k : Nat) (f : α → α) : val? (upd t k f) k = (val? t k).map f := by
  unfold upd; split <;> simp_all

@[simp] theorem del_upd (t : Tab α) (k : Nat) (f : α → α) : del (upd t k f) k = del t k := by
  unfold upd; split <;> simp

@[simp] theorem valD_put_self (t : Tab α) (k : Nat) (v d : α) : valD (put t k v) k d = v := by simp [valD]

theorem valD_put_ne (t : Tab α) {k j : Nat} (v d : α) (h : j ≠ k) : valD (put t k v) j d = valD t j d := by
  simp [valD, val?_put_ne t v h]

theorem valD_of_val? {t : Tab α} {k : Nat} {v : α} (d : α) (h : val? t k = some v) : valD t k d = v := by simp [valD, h]

/-! ## Rising keys -/

/-- Every key of a table lies above `k`. -/
def above (k : Nat) (t : Tab α) : Prop := ∀ e ∈ t, k < e.1

theorem wf_cons (k : Nat) (v : α) (t : Tab α) : wf ((k, v) :: t) = true ↔ above k t ∧ wf t = true := by
  induction t generalizing k v with
  | nil => simp [wf, above]
  | cons e t ih =>
    obtain ⟨j, x⟩ := e
    have ih := ih j x
    simp only [wf, Bool.and_eq_true, decide_eq_true_eq, above, List.mem_cons, forall_eq_or_imp]
    simp only [above] at ih
    constructor
    · rintro ⟨h, h'⟩; exact ⟨⟨h, fun e he => h.trans ((ih.mp h').1 e he)⟩, h'⟩
    · rintro ⟨⟨h, _⟩, h'⟩; exact ⟨h, h'⟩

theorem above_put {k j : Nat} {t : Tab α} {v : α} (h : above k t) (hj : k < j) : above k (put t j v) := by
  induction t with
  | nil => simpa [put, above] using hj
  | cons e t ih =>
    obtain ⟨i, x⟩ := e
    simp only [above, List.mem_cons, forall_eq_or_imp] at h ih ⊢
    unfold put
    split_ifs <;> simp only [List.mem_cons, forall_eq_or_imp]
    · exact ⟨hj, h.2⟩
    · exact ⟨hj, h⟩
    · exact ⟨h.1, ih h.2⟩

theorem wf_put {t : Tab α} (k : Nat) (v : α) (h : wf t = true) : wf (put t k v) = true := by
  induction t with
  | nil => simp [put, wf]
  | cons e t ih =>
    obtain ⟨i, x⟩ := e
    obtain ⟨ha, ht⟩ := (wf_cons i x t).mp h
    unfold put
    split_ifs with h1 h2
    · simp only [beq_iff_eq] at h1; subst h1; exact (wf_cons _ _ _).mpr ⟨ha, ht⟩
    · exact (wf_cons _ _ _).mpr ⟨by
        intro e he
        rcases List.mem_cons.mp he with rfl | he
        · exact h2
        · exact h2.trans (ha e he), h⟩
    · simp only [beq_iff_eq] at h1
      exact (wf_cons _ _ _).mpr ⟨above_put ha (by omega), ih ht⟩

theorem above_del {k j : Nat} {t : Tab α} (h : above k t) : above k (del t j) := by
  induction t with
  | nil => simpa [del] using h
  | cons e t ih =>
    obtain ⟨i, x⟩ := e
    have ht : above k t := fun e he => h e (List.mem_cons_of_mem _ he)
    unfold del
    split_ifs
    · exact ht
    · exact h
    · intro e he
      rcases List.mem_cons.mp he with rfl | he
      · exact h _ (by simp)
      · exact ih ht e he

theorem wf_del {t : Tab α} (k : Nat) (h : wf t = true) : wf (del t k) = true := by
  induction t with
  | nil => simp [del, wf]
  | cons e t ih =>
    obtain ⟨i, x⟩ := e
    obtain ⟨ha, ht⟩ := (wf_cons i x t).mp h
    unfold del
    split_ifs
    · exact ht
    · exact h
    · exact (wf_cons _ _ _).mpr ⟨above_del ha, ih ht⟩

theorem val?_of_above {k j : Nat} {t : Tab α} (h : above k t) (hj : j ≤ k) : val? t j = none := by
  cases t with
  | nil => rfl
  | cons e t =>
    obtain ⟨i, x⟩ := e
    have hi : k < i := h (i, x) (by simp)
    simp only [val?, beq_iff_eq]
    split_ifs <;> first | rfl | omega

theorem val?_del {t : Tab α} (k j : Nat) (h : wf t = true) : val? (del t k) j = if j = k then none else val? t j := by
  induction t with
  | nil => simp [del, val?]
  | cons e t ih =>
    obtain ⟨i, x⟩ := e
    obtain ⟨ha, ht⟩ := (wf_cons i x t).mp h
    unfold del
    by_cases h1 : i = k
    · subst h1
      by_cases h2 : j = i
      · subst h2; simp [val?_of_above ha]
      · simp only [beq_self_eq_true, if_true, h2, if_false, val?, beq_iff_eq, Ne.symm h2]
        split_ifs with h3
        · exact val?_of_above ha h3.le
        · rfl
    · by_cases h2 : k < i
      · simp only [beq_iff_eq, h1, if_false, h2, if_true]
        split_ifs with h3
        · subst h3; simp [val?, h1, h2]
        · rfl
      · simp only [beq_iff_eq, h1, if_false, h2]
        simp only [val?, beq_iff_eq]
        split_ifs with h3 h4 h5 h6 <;> first | omega | rfl | skip
        · rw [ih ht, if_pos ‹j = k›]
        · rw [ih ht]; simp [*]

theorem wf_putD [DecidableEq α] {t : Tab α} (k : Nat) (v d : α) (h : wf t = true) : wf (putD t k v d) = true := by
  unfold putD; split
  · exact wf_del k h
  · exact wf_put k v h

/-- Reading a sparse table after a write. -/
theorem valD_putD [DecidableEq α] {t : Tab α} (k j : Nat) (v d : α) (h : wf t = true) :
    valD (putD t k v d) j d = if j = k then v else valD t j d := by
  unfold putD valD
  split_ifs with hv hj hj
  · subst hj; simp [val?_del j j h, hv]
  · simp [val?_del k j h, hj]
  · simp [hj]
  · simp [val?_put_ne t v hj]

end Sys2Proof.Tab
end

