-- ==== Sys2Proof/Laws/State.lean ====
section
/-! SUPPORT. The parts of the state after each update of one part, true by definition, and reading a part back. -/

namespace Sys2Proof.Machine

open Sys2Proof

/-! ## Updates

Each update of one part carries `@[simps]` where it is defined: one lemma per field, true by `rfl`, says what it leaves
(`State.setWave_mem`, `State.updCmd_ops` and so on). What follows reads the changed part back. -/

section setWave
variable (s : State) (wid : Nat) (w : Wave)
@[simp] theorem setWave_rest : (s.setWave wid w).rest wid = s.rest wid := by simp [State.setWave, State.rest]
@[simp] theorem setWave_wave : (s.setWave wid w).wave? wid = some w := by simp [State.setWave, State.wave?]
theorem setWave_wave_ne {k : Nat} (h : k ≠ wid) : (s.setWave wid w).wave? k = s.wave? k := Tab.val?_put_ne _ _ h
end setWave

section updWave
variable (s : State) (wid : Nat) (g : Wave → Wave)
@[simp] theorem updWave_rest : (s.updWave wid g).rest wid = s.rest wid := by simp [State.updWave, State.rest]
@[simp] theorem updWave_wave : (s.updWave wid g).wave? wid = (s.wave? wid).map g := by simp [State.updWave, State.wave?]
theorem updWave_wave_ne {k : Nat} (h : k ≠ wid) : (s.updWave wid g).wave? k = s.wave? k := Tab.val?_upd_ne _ _ h
end updWave

@[simp] theorem setGlade_self (s : State) (g : Nat) (x : Glade) : (s.setGlade g x).gladeSt g = x := by
  simp [State.setGlade, State.gladeSt]
theorem setGlade_ne (s : State) (g : Nat) (x : Glade) {k : Nat} (h : k ≠ g) : (s.setGlade g x).gladeSt k = s.gladeSt k :=
  Tab.valD_put_ne _ _ _ h

@[simp] theorem setCore_self (s : State) (c : Nat) (x : CoreSt) : (s.setCore c x).coreSt c = x := by
  simp [State.setCore, State.coreSt]
theorem setCore_ne (s : State) (c : Nat) (x : CoreSt) {k : Nat} (h : k ≠ c) : (s.setCore c x).coreSt k = s.coreSt k :=
  Tab.valD_put_ne _ _ _ h

/-- A register reads as what was set, and the table of registers stays canonical. -/
theorem reg_setReg_self (s : State) (b : RegBlk) (off : Nat) (v : Word) (h : Tab.wf s.regs = true) :
    reg (setReg s b off v) b off = v := by
  simp [reg, setReg, Tab.valD_putD _ _ _ _ h]
theorem setReg_regs_wf (s : State) (b : RegBlk) (off : Nat) (v : Word) (h : Tab.wf s.regs = true) :
    Tab.wf (setReg s b off v).regs = true := Tab.wf_putD _ _ _ h

/-- Setting a register changes the table of registers alone. -/
theorem setReg_eq (s : State) (b : RegBlk) (off : Nat) (v : Word) :
    setReg s b off v = { s with regs := (setReg s b off v).regs } := rfl

/-- A fresh name only moves the counter on. -/
theorem fresh_eq (s : State) : s.fresh = (s.nextId, { s with nextId := s.nextId + 1 }) := rfl

section withEv
variable (s : State) (evs : List WatchEv) (wid : Nat)
@[simp] theorem withEv_wave : (s.withEv evs).wave? wid = s.wave? wid := rfl
@[simp] theorem withEv_rest : (s.withEv evs).rest wid = s.rest wid := rfl
@[simp] theorem withEv_withEv (l : List WatchEv) : (s.withEv evs).withEv l = s.withEv l := rfl
/-- Setting a wave and the record of watch events commute. -/
theorem withEv_setWave (w : Wave) : (s.withEv evs).setWave wid w = (s.setWave wid w).withEv evs := rfl
end withEv

/-! ## Fragments of a wave -/

@[simp] theorem setFrag_rest (w : Wave) (eid : Nat) (f : Frag) : (w.setFrag eid f).rest = w.rest := rfl
@[simp] theorem setFrag_retired (w : Wave) (eid : Nat) (f : Frag) : (w.setFrag eid f).retired = w.retired := rfl
@[simp] theorem setFrag_frag (w : Wave) (eid : Nat) (f : Frag) : (w.setFrag eid f).frag? eid = some f := by
  simp [Wave.setFrag, Wave.frag?]

theorem updFrag_of_frag {s : State} {wid eid : Nat} {w : Wave} {f : Frag} (g : Frag → Frag) (hw : s.wave? wid = some w)
    (hf : w.frag? eid = some f) : s.updFrag wid eid g = s.setWave wid (w.setFrag eid (g f)) := by
  simp only [State.wave?] at hw
  simp [State.updFrag, State.updWave, State.setWave, Tab.upd_of_val? _ hw, hf]

theorem updWave_of_wave {s : State} {wid : Nat} {w : Wave} (g : Wave → Wave) (hw : s.wave? wid = some w) :
    s.updWave wid g = s.setWave wid (g w) := by
  simp only [State.wave?] at hw
  simp [State.updWave, State.setWave, Tab.upd_of_val? _ hw]

@[simp] theorem setWave_setWave (s : State) (wid : Nat) (w w' : Wave) :
    (s.setWave wid w).setWave wid w' = s.setWave wid w' := by simp [State.setWave]

theorem setFrag_of_wave {s : State} {wid : Nat} {w : Wave} (eid : Nat) (f : Frag) (hw : s.wave? wid = some w) :
    s.setFrag wid eid f = s.setWave wid (w.setFrag eid f) := updWave_of_wave _ hw

theorem waveD_of_wave {s : State} {wid : Nat} {w : Wave} (hw : s.wave? wid = some w) : s.waveD wid = w :=
  Tab.valD_of_val? _ hw

theorem put_of_val? {α : Type} {t : Tab α} {k : Nat} {v : α} (h : Tab.val? t k = some v) : Tab.put t k v = t := by
  induction t with
  | nil => simp [Tab.val?] at h
  | cons e t ih =>
    obtain ⟨j, x⟩ := e
    unfold Tab.val? at h
    unfold Tab.put
    split_ifs at h ⊢ with h1 h2
    · simp only [beq_iff_eq] at h1; simp_all
    · rw [ih h]

/-- Writing back the wave that is there changes nothing. -/
theorem setWave_same {s : State} {wid : Nat} {w : Wave} (hw : s.wave? wid = some w) : s.setWave wid w = s := by
  unfold State.setWave; rw [put_of_val? hw]

/-! ## The branch hash (R424) -/

theorem withHash_frag (w : Wave) (h : Word) (eid : Nat) : ({ w with hash := h } : Wave).frag? eid = w.frag? eid := rfl
theorem withHash_retired (w : Wave) (h : Word) : ({ w with hash := h } : Wave).retired = w.retired := rfl
theorem withHash_setFrag (w : Wave) (h : Word) (eid : Nat) (f : Frag) :
    ({ w with hash := h } : Wave).setFrag eid f = { w.setFrag eid f with hash := h } := rfl
theorem withHash_rest (w v : Wave) (h : Word) (e : w.rest = v.rest) :
    ({ w with hash := h } : Wave).rest = ({ v with hash := h } : Wave).rest :=
  congrArg (fun x : Wave => { x with hash := h }) e

@[simp] theorem hashJump_frag (w : Wave) (pc tgt : DWord) (m : Word) (eid : Nat) :
    (w.hashJump pc tgt m).frag? eid = w.frag? eid := withHash_frag w _ eid
@[simp] theorem hashJump_retired (w : Wave) (pc tgt : DWord) (m : Word) : (w.hashJump pc tgt m).retired = w.retired :=
  withHash_retired w _
theorem setFrag_hashJump (w : Wave) (pc tgt : DWord) (m : Word) (eid : Nat) (f : Frag) :
    (w.setFrag eid f).hashJump pc tgt m = (w.hashJump pc tgt m).setFrag eid f := (withHash_setFrag w _ eid f).symm

/-! ## Settling changes only the split table -/

@[simp] theorem fuse_rest (w : Wave) (k : Nat) (j : JoinRec) : (fuse w k j).rest = w.rest := rfl
@[simp] theorem fuse_retired (w : Wave) (k : Nat) (j : JoinRec) : (fuse w k j).retired = w.retired := rfl

/-- What a settle leaves of a wave. -/
def SettleKeeps (v w : Wave) : Prop := v.rest = w.rest ∧ v.retired = w.retired

theorem settle_rest (n : Nat) (w : Wave) (eid : Nat) : SettleKeeps (settle n w eid) w := by
  have same : ∀ v : Wave, SettleKeeps v v := fun _ => ⟨rfl, rfl⟩
  induction n generalizing w eid with
  | zero => exact same w
  | succ n ih =>
    have go : ∀ (v : Wave) (k : Nat), SettleKeeps v w → SettleKeeps (settle n v k) w :=
      fun v k h => ⟨(ih v k).1.trans h.1, (ih v k).2.trans h.2⟩
    unfold settle
    repeat' split
    all_goals first | exact same w | exact go _ _ ⟨rfl, rfl⟩ | (simp only; split <;> first | exact go _ _ ⟨rfl, rfl⟩ | exact ⟨rfl, rfl⟩)

/-- A fragment without records and without a rejoin address stays as it is. -/
theorem settle_plain {w : Wave} {eid : Nat} {f : Frag} (n : Nat) (hf : w.frag? eid = some f) (hs : f.stack = [])
    (hr : f.rejoin = none) : settle n w eid = w := by
  cases n with
  | zero => rfl
  | succ n => simp [settle, hf, inspectTop, hs, hr]

end Sys2Proof.Machine
end

