-- ==== Sys2Proof/Laws/Unit.lean ====
section
/-! SUPPORT. Units: what issuing one amounts to where its fragment is resident, and what a unit that completes leaves. -/

namespace Sys2Proof.Machine

open Sys2Proof

/-- The issuing fragment's unit is its body and its end. -/
theorem issueUnit_of_issuing {s : State} {wid eid : Nat} {w : Wave} {f : Frag} (h : Issuing s wid eid w f) (size : Nat)
    (adv : Bool) (body : Body) :
    issueUnit size adv s body = finishUnit size adv s wid eid f (body (s.withEv []) wid eid w f) := by
  obtain ⟨h1, h2, h3⟩ := h
  simp [issueUnit, h1, h2, h3]

/-- A retired unit leaves memory, registers, operations and the other waves, and marks only its context. -/
theorem countRetired_same (s : State) (w : Wave) :
    (countRetired s w).rest = s.rest ∧ (countRetired s w).waves = s.waves ∧ (countRetired s w).mem = s.mem ∧
    SameGlades s (countRetired s w) := by
  refine ⟨rfl, rfl, rfl, fun g => ?_⟩
  unfold countRetired State.updCtx State.setCtx State.updGlade
  by_cases hg : g = w.glade
  · subst hg
    refine ⟨by simp, fun c => ?_⟩
    by_cases hc : c = w.ctx
    · subst hc; simp [State.ctxSt, CtxSt.rest]
    · simp [State.ctxSt, Tab.valD_put_ne _ _ _ hc]
  · simp [State.ctxSt, setGlade_ne _ _ _ hg]

theorem updLive_rest (w : Wave) (eid : Nat) (g : Frag → Frag) :
    (w.updLive eid g).rest = w.rest ∧ (w.updLive eid g).retired = w.retired := by
  unfold Wave.updLive; split <;> exact ⟨rfl, rfl⟩

theorem watched_countRetired (s : State) (w v : Wave) : watched (countRetired s v) w = watched s w := rfl

/-- The wave once a unit of it has retired, before any step halts it. -/
def retiredWave (w : Wave) (eid size : Nat) (adv : Bool) (f0 : Frag) : Wave :=
  let v := settle settleFuel (w.updLive eid (afterUnit size adv)) eid
  { v with retired := v.retired + 1, stepDue := if f0.stepping == 2 then some eid else v.stepDue }

theorem retiredWave_rest (w : Wave) (eid size : Nat) (adv : Bool) (f0 : Frag) :
    (retiredWave w eid size adv f0).rest = w.rest ∧ (retiredWave w eid size adv f0).retired = w.retired + 1 := by
  obtain ⟨h1, h2⟩ := settle_rest settleFuel (w.updLive eid (afterUnit size adv)) eid
  obtain ⟨h3, h4⟩ := updLive_rest w eid (afterUnit size adv)
  rw [h3] at h1; rw [h4] at h2
  exact ⟨by simpa [Wave.rest, retiredWave] using h1, by simp [retiredWave, h2]⟩

/-- Predicates look at no part of a wave that a unit changes. -/
theorem watched_of_rest {s : State} {w v : Wave} (h : w.rest = v.rest) : watched s w = watched s v := by
  have hc := congrArg Wave.control h
  have hg := congrArg Wave.glade h
  have hx := congrArg Wave.ctx h
  have hm := congrArg Wave.cmd h
  simp only [Wave.rest] at hc hg hx hm
  simp only [watched, isDebugWave, hc, hg, hx, hm]

/-- The device once a unit of the wave has retired, leaving `w`. -/
def retiredState (s : State) (wid : Nat) (w : Wave) : State := countRetired ((s.setWave wid w).withEv []) w

@[simp] theorem retiredState_wave (s : State) (wid : Nat) (w : Wave) : (retiredState s wid w).wave? wid = some w :=
  setWave_wave s wid w

/-- The end of a unit with no watch event that matters: the wave of `retiredWave`, halted where it is stepped. -/
theorem retireUnit_eq {s0 s : State} {wid : Nat} {w : Wave} {f0 : Frag} (eid size : Nat) (adv : Bool)
    (evs : List WatchEv) (hs : s = (s0.setWave wid w).withEv evs)
    (hq : evs = [] ∨ f0.skipPred = true ∨ watched s0 w = false) :
    retireUnit s wid eid size adv f0 =
      if f0.stepping == 0 then retiredState s0 wid (retiredWave w eid size adv f0)
      else endStep (retiredState s0 wid (retiredWave w eid size adv f0)) wid eid f0.pc := by
  set w2 := retiredWave w eid size adv f0 with hw2
  set s3 := retiredState s0 wid w2 with hs3
  have hw : s.wave? wid = some w := by subst hs; exact setWave_wave _ _ _
  have hsw : s.setWave wid w2 = (s0.setWave wid w2).withEv evs := by
    subst hs; exact congrArg (fun x : State => x.withEv evs) (setWave_setWave s0 wid w w2)
  have hwat : watched s3 w2 = watched s0 w := watched_of_rest (s := s0) (retiredWave_rest w eid size adv f0).1
  have e1 : (s.updWave wid fun w => w.updLive eid (afterUnit size adv)) =
      s.setWave wid (w.updLive eid (afterUnit size adv)) := updWave_of_wave _ hw
  have e2 : (if f0.skipPred then s3 else watchValues s3 wid (s3.coreSt (s3.waveD wid).core).preds false f0.pc evs) = s3 := by
    rcases hq with h | h | h
    · subst h; split
      · rfl
      · unfold watchValues; split <;> simp
    · simp [h]
    · split
      · rfl
      · have : s3.wave? wid = some w2 := setWave_wave _ _ _
        simp [watchValues, this, hwat, h]
  have e4 : ((s.setWave wid (w.updLive eid (afterUnit size adv))).updWave wid fun w =>
      let w := settle settleFuel w eid
      { w with retired := w.retired + 1, stepDue := if f0.stepping == 2 then some eid else w.stepDue }) =
      (s0.setWave wid w2).withEv evs := by
    rw [updWave_of_wave _ (setWave_wave _ _ _), setWave_setWave, ← hsw]; rfl
  unfold retireUnit
  simp only [e1]
  rw [e4]
  simp only [withEv_withEv]
  rw [show (((s0.setWave wid w2).withEv []) : State).waveD wid = w2 from waveD_of_wave (setWave_wave _ _ _)]
  change (if (f0.stepping == 0) = true then (if f0.skipPred then s3 else watchValues s3 wid (s3.coreSt (s3.waveD wid).core).preds false f0.pc evs) else
    endStep (if f0.skipPred then s3 else watchValues s3 wid (s3.coreSt (s3.waveD wid).core).preds false f0.pc evs) wid eid f0.pc) = _
  rw [e2]

/-- Fusion groups that become due change no wave and no glade. -/
@[simp] theorem dueGroups_wave (s : State) (b k : Nat) : (dueGroups s b).wave? k = s.wave? k := rfl

/-- They commute with a change of a wave. -/
theorem dueGroups_rest (s : State) (b wid : Nat) : (dueGroups s b).rest wid = dueGroups (s.rest wid) b := rfl

/-- What a unit whose body has changed nothing but the issuing wave leaves. -/
theorem retireUnit_leaves {s0 s : State} {wid : Nat} {w : Wave} {f0 : Frag} (eid size : Nat) (adv : Bool)
    (evs : List WatchEv) (hs : s = (s0.setWave wid w).withEv evs) (hst : f0.stepping ≠ 0 → Stepped s0 wid)
    (hq : evs = [] ∨ f0.skipPred = true ∨ watched s0 w = false) :
    UnitLeaves s0 (retireUnit s wid eid size adv f0) wid w := by
  rw [retireUnit_eq eid size adv evs hs hq]
  obtain ⟨hrest, hret⟩ := retiredWave_rest w eid size adv f0
  set w2 := retiredWave w eid size adv f0
  set s3 := retiredState s0 wid w2 with hs3
  have hbase : UnitLeaves s0 s3 wid w := {
    memory := fun _ => rfl
    others := fun k hk => setWave_wave_ne s0 wid w2 hk
    device := .inl (setWave_rest s0 wid w2)
    glades := (countRetired_same ((s0.setWave wid w2).withEv []) w2).2.2.2
    wave := ⟨w2, setWave_wave _ _ _, hrest, hret⟩ }
  by_cases h0 : f0.stepping = 0
  · simpa [h0] using hbase
  · simp only [beq_iff_eq, h0, if_false]
    have hw2 : s3.waveD wid = w2 := waveD_of_wave (retiredState_wave s0 wid w2)
    have hb : w2.blk = w.blk := (congrArg Wave.blk hrest : w2.rest.blk = w.rest.blk)
    have h3 := updLive_rest w2 eid (stepHalt (vdecOut s3 wid) s3.now f0.pc)
    unfold endStep
    simp only [hw2, hb]
    rw [updWave_of_wave _ (retiredState_wave s0 wid w2)]
    split
    · exact {
        memory := hbase.memory
        others := fun k hk => (setWave_wave_ne _ _ _ hk).trans (hbase.others k hk)
        device := .inr ⟨hst h0, by
          rw [dueGroups_rest, setWave_rest, dueGroups_rest]
          exact congrArg (fun x : State => dueGroups x w.blk) (setWave_rest s0 wid w2)⟩
        glades := hbase.glades
        wave := ⟨_, setWave_wave _ _ _, h3.1.trans hrest, h3.2.trans hret⟩ }
    · exact {
        memory := hbase.memory
        others := fun k hk => (setWave_wave_ne _ _ _ hk).trans (hbase.others k hk)
        device := .inl (by rw [setWave_rest]; exact setWave_rest s0 wid w2)
        glades := hbase.glades
        wave := ⟨_, setWave_wave _ _ _, h3.1.trans hrest, h3.2.trans hret⟩ }

/-- The same, and the fragment has moved past its unit. -/
theorem retireUnit_ends {s0 s : State} {wid eid : Nat} {w : Wave} {f f0 : Frag} (size : Nat) (adv : Bool)
    (evs : List WatchEv) (hs : s = (s0.setWave wid w).withEv evs) (hf : w.frag? eid = some f)
    (hst : f0.stepping = f.stepping) (hss : f0.stepping ≠ 0 → Stepped s0 wid)
    (hq : evs = [] ∨ f0.skipPred = true ∨ watched s0 w = false) :
    UnitEnds s0 (retireUnit s wid eid size adv f0) wid eid w (afterUnit size adv f) := by
  refine { retireUnit_leaves eid size adv evs hs hss hq with frag := fun h1 h2 h3 => ?_ }
  have h0 : f0.stepping = 0 := hst.trans h3
  rw [retireUnit_eq eid size adv evs hs hq]
  have hfr : (retiredWave w eid size adv f0).frag? eid = some (afterUnit size adv f) := by
    have hu : w.updLive eid (afterUnit size adv) = w.setFrag eid (afterUnit size adv f) := by simp [Wave.updLive, hf]
    have hp := settle_plain settleFuel (setFrag_frag w eid (afterUnit size adv f)) h1 h2
    simp only [retiredWave, hu, hp]
    exact setFrag_frag _ _ _
  simp only [h0, beq_self_eq_true, if_true]
  change ((s0.setWave wid (retiredWave w eid size adv f0)).wave? wid).bind _ = _
  rw [setWave_wave]
  exact hfr

theorem UnitLeaves.congr {s t : State} {wid : Nat} {w v : Wave} (h : UnitLeaves s t wid w) (e : w.rest = v.rest)
    (e' : w.retired = v.retired) : UnitLeaves s t wid v :=
  { h with
    device := by
      have hb : w.blk = v.blk := (congrArg Wave.blk e : w.rest.blk = v.rest.blk)
      exact hb ▸ h.device
    wave := by obtain ⟨x, h1, h2, h3⟩ := h.wave; exact ⟨x, h1, h2.trans e, h3.trans (by rw [e'])⟩ }

/-- Only a wave's registers and counts matter to what a unit leaves. -/
theorem UnitEnds.congr {s t : State} {wid eid : Nat} {w v : Wave} {f : Frag} (h : UnitEnds s t wid eid w f)
    (e : w.rest = v.rest) (e' : w.retired = v.retired) : UnitEnds s t wid eid v f :=
  { h.toUnitLeaves.congr e e' with frag := h.frag }

/-- The issuing fragment of a wave. -/
theorem Issuing.stepped {s : State} {wid eid : Nat} {w : Wave} {f : Frag} (h : Issuing s wid eid w f) :
    f.stepping ≠ 0 → Stepped s wid := fun h0 => ⟨eid, f, by simp [State.frag?, h.2.1, h.2.2], h0⟩

/-- A unit whose body answers `s` with another wave, and watch events only where no predicate evaluates them. -/
theorem issueUnit_ends {s : State} {wid eid : Nat} {w w' : Wave} {f f' : Frag} (size : Nat) (adv : Bool) {body : Body}
    (h : Issuing s wid eid w f) (evs : List WatchEv)
    (hb : body (s.withEv []) wid eid w f = .ok ((s.setWave wid w').withEv evs))
    (hf : w'.frag? eid = some f') (hst : f.stepping = f'.stepping)
    (hq : evs = [] ∨ f.skipPred = true ∨ watched s w' = false) :
    ∃ t, issueUnit size adv s body = .next t ∧ UnitEnds s t wid eid w' (afterUnit size adv f') := by
  refine ⟨_, ?_, retireUnit_ends (f0 := f) size adv evs rfl hf hst h.stepped hq⟩
  rw [issueUnit_of_issuing h, hb]
  rfl

/-- The same where the fragment of the entry may be gone. -/
theorem issueUnit_leaves {s : State} {wid eid : Nat} {w w' : Wave} {f : Frag} (size : Nat) (adv : Bool) {body : Body}
    (h : Issuing s wid eid w f) (evs : List WatchEv)
    (hb : body (s.withEv []) wid eid w f = .ok ((s.setWave wid w').withEv evs))
    (hq : evs = [] ∨ f.skipPred = true ∨ watched s w' = false) :
    ∃ t, issueUnit size adv s body = .next t ∧ UnitLeaves s t wid w' := by
  refine ⟨_, ?_, retireUnit_leaves (f0 := f) eid size adv evs rfl h.stepped hq⟩
  rw [issueUnit_of_issuing h, hb]
  rfl

/-- A unit whose body traps takes the trap. -/
theorem issueUnit_traps {s : State} {wid eid : Nat} {w : Wave} {f : Frag} (size : Nat) (adv : Bool) {body : Body}
    {cause : Nat} {arg : Word} {addr : Nat} (h : Issuing s wid eid w f)
    (hb : body (s.withEv []) wid eid w f = .error (.trap cause arg addr)) :
    issueUnit size adv s body = .next (stepTrap f wid eid (takeTrap s wid eid cause arg addr arg.toNat)) := by
  rw [issueUnit_of_issuing h, hb]
  rfl

/-- A unit that only changes its fragment. -/
theorem fragUnit_ends {s : State} {wid eid : Nat} {w : Wave} {f f' : Frag} {a : BitVec 8} {c : Bool}
    {k : Frag → Word → Eff Frag} (h : Issuing s wid eid w f) (ha : SSrc.Ready w { fd := a.toNat })
    (hc : c = true ∨ w.control = false) (hk : k f (opS s wid w f a) = .ok f') (hst : f.stepping = f'.stepping) :
    ∃ t, fragUnit a s c k = .next t ∧ UnitEnds s t wid eid w (afterUnit 4 true f') := by
  have ho : Opnds.Ready w f { s := [{ fd := a.toNat }] } := ⟨by simp, by simpa using ha, by simp, by simp⟩
  have hcc : (w.control && !c) = false := by rcases hc with h | h <;> simp [h]
  have key : ∃ t, fragUnit a s c k = .next t ∧ UnitEnds s t wid eid (w.setFrag eid f') (afterUnit 4 true f') := by
    refine issueUnit_ends 4 true h [] ?_ (setFrag_frag _ _ _) hst (.inl rfl)
    rw [hcc, trapIf_false, ok_bind, getOpnds_ok _ _ ho, ok_bind]
    change (do
      let f' ← k f (opS s wid w f a)
      Except.ok ((s.withEv []).setFrag wid eid f')) = _
    rw [hk, ok_bind, setFrag_of_wave (s := s.withEv []) _ _ h.2.1]
    rfl
  obtain ⟨t, ht, hu⟩ := key
  exact ⟨t, ht, hu.congr rfl rfl⟩

/-- A unit that writes a value of its fragment or wave to a scalar register. -/
theorem readUnit_ends {s : State} {wid eid : Nat} {w : Wave} {f : Frag} {d : BitVec 8} {c : Bool}
    {k : State → Nat → Wave → Frag → Word} (h : Issuing s wid eid w f) (hd : DstSReady w (d.toNat, 1, false))
    (hc : c = true ∨ w.control = false) :
    ∃ t, readUnit d s c k = .next t ∧
      UnitEnds s t wid eid (w.setS d.toNat (k (s.withEv []) wid w f)) (afterUnit 4 true f) := by
  have ho : Opnds.Ready w f { sd := some (d.toNat, 1, false) } :=
    ⟨by simp, by simp, by simp, by rintro _ ⟨⟩; exact hd⟩
  have hcc : (w.control && !c) = false := by rcases hc with h | h <;> simp [h]
  refine issueUnit_ends 4 true h [] ?_ h.2.2 rfl (.inl rfl)
  rw [hcc, trapIf_false, ok_bind, getOpnds_ok _ _ ho]
  rfl

/-- A unit that leaves its PC at an address. -/
theorem jumpUnit_ends {s : State} {wid eid : Nat} {w w' : Wave} {f : Frag} {tgt : DWord}
    {k : State → Nat → Nat → Wave → Frag → Eff (DWord × State)} (h : Issuing s wid eid w f)
    (hf : w'.frag? eid = some f)
    (hk : k (s.withEv []) wid eid w f = .ok (tgt, (s.withEv []).setWave wid w')) :
    ∃ t, jumpUnit s k = .next t ∧
      UnitEnds s t wid eid (wentTo w' f tgt f.memb) (afterUnit 4 false { f with pc := tgt }) := by
  let w2 := (wentTo w' f tgt f.memb).setFrag eid { f with pc := tgt }
  have key : ∃ t, jumpUnit s k = .next t ∧ UnitEnds s t wid eid w2 (afterUnit 4 false { f with pc := tgt }) := by
    refine issueUnit_ends 4 false h [] ?_ (setFrag_frag _ _ _) rfl (.inl rfl)
    rw [hk, ok_bind]
    simp only
    rw [updFrag_of_frag (w := w') (f := f) _ (setWave_wave _ _ _) hf, setWave_setWave]
    by_cases hp : tgt = f.pc + 4
    · have : w2 = w'.setFrag eid { f with pc := tgt } := by simp only [w2, wentTo, if_pos hp]
      rw [if_pos (by simpa using hp), this]
      rfl
    · have : w2 = (w'.setFrag eid { f with pc := tgt }).hashJump f.pc tgt f.memb := by
        simp only [w2, wentTo, if_neg hp, setFrag_hashJump]
      rw [if_neg (by simpa using hp), updWave_of_wave _ (setWave_wave _ _ _), setWave_setWave, this]
      rfl
  obtain ⟨t, ht, hu⟩ := key
  exact ⟨t, ht, hu.congr (setFrag_rest _ _ _) (setFrag_retired _ _ _)⟩

/-- The value of a scalar source does not depend on the record of watch events. -/
theorem opnds_got_watchEv (s : State) (evs : List WatchEv) (wid : Nat) (w : Wave) (f : Frag) (o : Opnds) :
    o.got (s.withEv evs) wid w f = o.got s wid w f := rfl

@[simp] theorem setS_frag (w : Wave) (n : Nat) (v : Word) (eid : Nat) : (w.setS n v).frag? eid = w.frag? eid := rfl
@[simp] theorem setV_frag (w : Wave) (n l : Nat) (v : Word) (eid : Nat) : (w.setV n l v).frag? eid = w.frag? eid := rfl

theorem foldl_frag {α : Type} (l : List α) (g : Wave → α → Wave) (eid : Nat) (hg : ∀ w x, (g w x).frag? eid = w.frag? eid)
    (w : Wave) : (l.foldl g w).frag? eid = w.frag? eid := by
  induction l generalizing w with
  | nil => rfl
  | cons x l ih => rw [List.foldl_cons, ih, hg]

@[simp] theorem setSs_frag (w : Wave) (n : Nat) (vs : List Word) (eid : Nat) : (w.setSs n vs).frag? eid = w.frag? eid := by
  unfold Wave.setSs; exact foldl_frag _ (fun w x => match x with | (v, i) => w.setS (n + i) v) _ (fun _ _ => rfl) _

/-- A scalar unit with ready operands completes with its result in d. -/
theorem scalarUnit_ends {s : State} {wid eid : Nat} {w : Wave} {f : Frag} (size : Nat) (srcs : List SSrc) (d cnt : Nat)
    (pair : Bool) (k : List Nat → Nat) (h : Issuing s wid eid w f) (hs : ∀ x ∈ srcs, x.Ready w)
    (hd : DstSReady w (d, cnt, pair)) :
    ∃ t, scalarUnit size srcs d cnt pair s k = .next t ∧
      UnitEnds s t wid eid (w.setSs d (wordsOf cnt (k (srcs.map (scalarVal s wid w f))))) (afterUnit size true f) := by
  have ho : Opnds.Ready w f { s := srcs, sd := some (d, cnt, pair) } :=
    ⟨by simp, hs, by simp, by rintro _ ⟨⟩; exact hd⟩
  refine issueUnit_ends (f' := f) size true h [] ?_ (by rw [setSs_frag]; exact h.2.2) rfl (.inl rfl)
  rw [getOpnds_ok _ _ ho]
  rfl

/-- A single scalar source is a word. -/
theorem scalarVal_single (s : State) (wid : Nat) (w : Wave) (f : Frag) (n : Nat) :
    scalarVal s wid w f { fd := n } < 2 ^ 32 := by
  unfold scalarVal
  split_ifs
  · simpa [range, ofWords] using (w.sreg n).isLt
  · simp only at *; omega
  · exact (specialSrc s wid w f n).isLt

theorem scalarVal_opS (s : State) (wid : Nat) (w : Wave) (f : Frag) (a : BitVec 8) :
    scalarVal s wid w f { fd := a.toNat } = (opS s wid w f a).toNat := by
  rw [opS, BitVec.toNat_ofNat, Nat.mod_eq_of_lt (scalarVal_single s wid w f a.toNat)]

/-- A pair is a 64-bit number. -/
theorem scalarVal_pair (s : State) (wid : Nat) (w : Wave) (f : Frag) (n : Nat) :
    scalarVal s wid w f { fd := n, cnt := 2, pair := true } < 2 ^ 64 := by
  unfold scalarVal
  split_ifs
  · have h1 := (w.sreg n).isLt
    have h2 := (w.sreg (n + 1)).isLt
    simp [range, ofWords, List.range_succ]
    omega
  · simp only at *; omega
  · have := (specialSrc s wid w f n).isLt
    simp only; omega

theorem scalarVal_opS64 (s : State) (wid : Nat) (w : Wave) (f : Frag) (a : BitVec 8) :
    scalarVal s wid w f { fd := a.toNat, cnt := 2, pair := true } = (opS64 s wid w f a).toNat := by
  rw [opS64, BitVec.toNat_ofNat, Nat.mod_eq_of_lt (scalarVal_pair s wid w f a.toNat)]

end Sys2Proof.Machine
end

