-- ==== Sys2Proof/Tests/Slice0.lean ====
section
/-! SUPPORT. Tests: what WellFormed refuses, words written out from the spec's encodings, single steps with results
worked out from the spec, and for every statement with hypotheses a state and operands that meet them. -/

namespace Sys2Proof.Tests

open Sys2Proof Sys2Proof.Machine Sys2Proof.Claims

set_option Elab.async false

/-! ## Helpers -/

/-- A state whose next step fetches and runs the word, in a wave of 256 vector registers changed by `k`. -/
def placed (nbits w : Nat) (k : Wave → Wave) : State := (State.reset.withFetchWord nbits w).updWave 902 k

/-- A fact of the state after one step; false where the step does not answer a next state. -/
noncomputable def stepTo (s : State) (k : State → Bool) : Bool := match step s with
  | .next t => k t
  | _ => false

/-- The wave of a placed word after the step. -/
noncomputable def waveAfter (nbits w : Nat) (k : Wave → Wave) (q : Wave → Bool) : Bool :=
  stepTo (placed nbits w k) fun t => match t.wave? 902 with
    | some w => q w
    | none => false

/-- Its fragment after the step. -/
noncomputable def fragAfter (nbits w : Nat) (k : Wave → Wave) (q : Frag → Bool) : Bool :=
  waveAfter nbits w k fun w => match w.frag? 0 with
    | some f => q f
    | none => false

/-- Scalar registers of a wave. -/
def withS (l : List (Nat × Word)) (w : Wave) : Wave := l.foldl (fun w e => w.setS e.1 e.2) w
/-- Vector registers of a wave in one lane. -/
def withV (lane : Nat) (l : List (Nat × Word)) (w : Wave) : Wave := l.foldl (fun w e => w.setV e.1 lane e.2) w

/-! ## Well-formedness (R111, R112) -/

theorem test_wf_accepts : Instr.wf (.sadd 1 2 3) = true ∧ Instr.wf (.vldW (.mem 0 0 1 2) 0 0 0 false) = true := by decide
theorem test_wf_refuses_event : Instr.wf (.storeLand 0 0 0) = false := by decide
theorem test_wf_refuses_scope3 : Instr.wf (.vldW (.mem 0 0 3 0xFF) 0 0 0 false) = false := by decide
theorem test_wf_refuses_odd_wit : Instr.wf (.vldW (.mem 0 0 1 3) 0 0 0 false) = false := by decide
theorem test_wf_refuses_high_wit : Instr.wf (.vldW (.mem 0 0 1 192) 0 0 0 false) = false := by decide
theorem test_wf_refuses_aop12 : Instr.wf (.vatom (.atom 12 false 0 0) 0 0 0 false) = false := by decide
theorem test_wf_refuses_au_on_add : Instr.wf (.vatom (.atom 0 true 0 0) 0 0 0 false) = false := by decide
theorem test_wf_refuses_atom_scope3 : Instr.wf (.vatom (.atom 0 false 3 0) 0 0 0 false) = false := by decide
theorem test_wf_refuses_imm_on_load : Instr.wf (.vldW (.imm 0) 0 0 0 false) = false := by decide
theorem test_wf_refuses_ofs_on_sli : Instr.wf (.sli (.ofs 0) 0 0) = false := by decide
theorem test_wf_refuses_store_wit : Instr.wf (.vstW (.mem 0 0 1 2) 0 0 0 false) = false := by decide
theorem test_wf_refuses_scratch_scope : Instr.wf (.vldsW (.mem 0 0 2 0xFF) 0 0 0 false) = false := by decide
theorem test_wf_refuses_copy_ofs : Instr.wf (.vcopy16G2s (.ofs 0) 0 0 0 false) = false := by decide
theorem test_wf_refuses_wait_imm : Instr.wf (.waitW (.imm 0) 0) = false := by decide

/-! ## Words of the spec's encodings (R105 to R122) -/

/-- The instruction of a word. -/
abbrev Reads (nbits w : Nat) (i : Instr) : Prop := decodeTableWord nbits w = some i

theorem test_decode_s : Reads 32 0x02010301 (.sadd 3 1 2) := by decide +kernel
theorem test_decode_sun : Reads 32 0x0207053F (.spopc 5 7) := by decide +kernel
theorem test_decode_si : Reads 32 0x12340541 (.sli .none 5 0x1234) := by decide +kernel
theorem test_decode_imm_prefix : Reads 64 0x123405410ABCD0FF (.sli (.imm 0xABCD) 5 0x1234) := by decide +kernel
theorem test_decode_j : Reads 32 0xFFFFFE45 (.jmp 0xFFFFFE) := by decide +kernel
theorem test_decode_br : Reads 32 0xFFF8074D (.bnz 7 0xFFF8) := by decide +kernel
theorem test_decode_sysrd : Reads 32 0x10411455 (.sysrd 20 0x41) := by decide +kernel
theorem test_decode_syswr : Reads 32 0x110A4455 (.syswr 0x44 10) := by decide +kernel
theorem test_decode_waitcnt : Reads 32 0x08000263 (.waitcnt 2 0) := by decide +kernel
theorem test_decode_dbg : Reads 32 0x06151E69 (.drdv 30 21) ∧ Reads 32 0x02140069 (.dhalt 20) ∧ Reads 32 0x05141869 (.dlist 24 20) := by decide +kernel
theorem test_decode_watch : Reads 32 0x00280369 (.wpset 3 40) ∧ Reads 32 0x01032869 (.wpget 40 3) := by decide +kernel
theorem test_decode_slots : Reads 32 0x000A3265 (.wdesc 50 10) ∧ Reads 32 0x01320065 (.wload 50) ∧ Reads 32 0x02320065 (.wfree 50) := by decide +kernel
theorem test_decode_canopy : Reads 32 0x00160067 (.scabort 22) ∧ Reads 32 0x01182867 (.scinval 40 24) ∧ Reads 32 0x02180067 (.scframe 24) ∧
    Reads 32 0x03333267 (.scstat 50 51) ∧ Reads 32 0x051028F9 (.sclook 40 32 20 false) ∧ Reads 32 0x05981EFB (.scfill 30 48 22 false) := by decide +kernel
theorem test_decode_v : Reads 32 0x21018571 (.vaddI32 5 3 4 true false) := by decide +kernel
theorem test_decode_ofs_prefix : Reads 64 0x028808D1FFFFC1FF (.vldW (.ofs 0xFFFFC) 8 16 10 false) := by decide +kernel
theorem test_decode_copy : Reads 32 0x0A0514E7 (.vcopy16G2s .none 20 10 40 false) := by decide +kernel
theorem test_decode_mma : Reads 32 0x0A1002F5 (.mma 2 32 40 false) := by decide +kernel
theorem test_decode_pipe : Reads 32 0x000800FD (.primemit 16 false) ∧ Reads 32 0x004000FD .meshend ∧ Reads 32 0x008028FD (.rsget 40) ∧
    Reads 32 0x01000CFD (.rtread 12 0) := by decide +kernel
theorem test_decode_trace : Reads 32 0x0510286D (.trace 40 32 20 false) := by decide +kernel
theorem test_decode_short : Reads 16 0x2E02 (.vaddI32Short 0x30 5) := by decide +kernel
theorem test_major_37_is_no_instruction : decodeTableWord 32 0x0000006F = none := by decide +kernel
theorem test_zero_field_is_checked : decodeTableWord 32 0x0207013F = some (.spopc 1 7) ∧ decodeTableWord 32 0x08010155 = none := by decide +kernel

/-! ## Single instructions: results worked out from the spec -/

/-- A fact of the wave and the fragment after an instruction that the placed wave, changed by `k`, issues. -/
noncomputable def runs (i : Instr) (k : Wave → Wave) (q : Wave → Frag → Bool) : Bool := match exec i (placed 32 0 k) with
  | .next t => match t.frag? 902 0 with
    | some f => q (t.waveD 902) f
    | none => false
  | _ => false

/-- The instruction completes: its PC is past `n` bytes, and the scalar register reads `v`. -/
noncomputable def givesS (i : Instr) (l : List (Nat × Word)) (r : Nat) (v : Word) : Bool :=
  runs i (withS l) fun w f => f.pc == 0x1004 && w.sreg r == v

/-- The same for a vector register in lane 5, every lane of which starts with the values of `l`. -/
noncomputable def givesV (i : Instr) (l : List (Nat × Word)) (r : Nat) (v : Word) : Bool :=
  runs i (withV 5 l) fun w f => f.pc == 0x1004 && w.vreg r 5 == v

theorem test_step_runs_placed_word : waveAfter 32 0x02010301 (withS [(1, 5), (2, 7)]) (fun w => w.sreg 3 == 12) = true := by decide +kernel
theorem test_step_moves_pc : fragAfter 32 0x02010301 id (fun f => f.pc == 0x1004) = true := by decide +kernel
theorem test_step_illegal_word_faults_context : stepTo (placed 32 0x6F id) (fun t => (t.ctxSt 0 0).drainFrom == some 0) = true := by decide +kernel

-- R135 to R140
theorem test_sadd_wraps : givesS (.sadd 3 1 2) [(1, 0xFFFFFFFF), (2, 2)] 3 1 = true := by decide +kernel
theorem test_ssub_wraps : givesS (.ssub 3 1 2) [(2, 1)] 3 0xFFFFFFFF = true := by decide +kernel
theorem test_smul_low : givesS (.smul 3 1 2) [(1, 0x10000), (2, 0x10001)] 3 0x10000 = true := by decide +kernel
theorem test_smulh_signed : givesS (.smulh 3 1 2) [(1, 0xFFFFFFFF), (2, 0xFFFFFFFF)] 3 0 = true := by decide +kernel
theorem test_smulhu_unsigned : givesS (.smulhu 3 1 2) [(1, 0xFFFFFFFF), (2, 0xFFFFFFFF)] 3 0xFFFFFFFE = true := by decide +kernel
theorem test_sandn : givesS (.sandn 3 1 2) [(1, 0xF0F0), (2, 0xFF)] 3 0xF000 = true := by decide +kernel
theorem test_sshl_count_mod_32 : givesS (.sshl 3 1 2) [(1, 1), (2, 33)] 3 2 = true := by decide +kernel
theorem test_ssra_fills_sign : givesS (.ssra 3 1 2) [(1, 0x80000000), (2, 31)] 3 0xFFFFFFFF = true := by decide +kernel
theorem test_srot_left : givesS (.srot 3 1 2) [(1, 0x80000001), (2, 4)] 3 0x18 = true := by decide +kernel
theorem test_smin_signed : givesS (.smin 3 1 2) [(1, 0xFFFFFFFF), (2, 1)] 3 0xFFFFFFFF = true := by decide +kernel
theorem test_smaxu_unsigned : givesS (.smaxu 3 1 2) [(1, 0xFFFFFFFF), (2, 1)] 3 0xFFFFFFFF = true := by decide +kernel
theorem test_scmp_lt_signed : givesS (.scmpLt 3 1 2) [(1, 0xFFFFFFFF), (2, 1)] 3 1 = true := by decide +kernel
theorem test_scmp_ltu_unsigned : givesS (.scmpLtu 3 1 2) [(1, 0xFFFFFFFF), (2, 1)] 3 0 = true := by decide +kernel
theorem test_ssel_reads_d : givesS (.ssel 3 1 2) [(1, 10), (2, 20), (3, 4)] 3 10 = true ∧ givesS (.ssel 3 1 2) [(1, 10), (2, 20)] 3 20 = true := by
  decide +kernel
theorem test_sbfe_sign : givesS (.sbfe 3 1 2) [(1, 0x80), (2, 0x10404)] 3 0xFFFFFFF8 = true := by decide +kernel
theorem test_sbfe_width_clips : givesS (.sbfe 3 1 2) [(1, 0xF0000000), (2, 0x3F1C)] 3 0xF = true := by decide +kernel
theorem test_sbfi_inserts : givesS (.sbfi 3 1 2) [(1, 0xFFFF), (2, 0x804), (3, 0xA000000A)] 3 0xA0000FFA = true := by decide +kernel
theorem test_sabs_most_negative : givesS (.sabs 3 1) [(1, 0x80000000)] 3 0x80000000 = true := by decide +kernel
theorem test_sclz_zero : givesS (.sclz 3 1) [] 3 32 = true := by decide +kernel
theorem test_sffs : givesS (.sffs 3 1) [(1, 0x10)] 3 5 = true ∧ givesS (.sffs 3 1) [] 3 0 = true := by decide +kernel
theorem test_sadd64_carries : givesS (.sadd64 4 2 6) [(2, 0xFFFFFFFF), (6, 1)] 5 1 = true := by decide +kernel
theorem test_sshr64_crosses_words : givesS (.sshr64 4 2 6) [(3, 1), (6, 32)] 4 1 = true := by decide +kernel
theorem test_sadd64_odd_pair_traps : runs (.sadd64 5 2 6) id (fun w f => f.pc == 0x1000 && w.sreg 5 == 0) = true := by decide +kernel
theorem test_sli_zero_extends : givesS (.sli .none 3 0x8000) [(3, 0xFFFFFFFF)] 3 0x8000 = true := by decide +kernel
theorem test_slih_keeps_low : givesS (.slih 3 0x1234) [(3, 0xABCD)] 3 0x1234ABCD = true := by decide +kernel
-- R102, R141 to R157
theorem test_inline_constant : givesS (.smov 3 207) [] 3 15 = true := by decide +kernel
theorem test_special_lane_count : givesS (.smov 3 211) [] 3 32 = true := by decide +kernel
theorem test_sxadd_wraps : runs (.sxadd 1 1) (withS [(1, 0x1FF)]) (fun _ f => f.x1 == 0xFF && f.x0 == 0) = true := by decide +kernel
theorem test_smwr_masks_members : runs (.smwr 1) (withS [(1, 0xF)]) (fun _ f => f.emask == 0xF && f.memb == 0xFFFFFFFF) = true := by decide +kernel
theorem test_sflags_clears : runs (.sflags 3) (fun w => { w with fflags := 0x15 }) (fun w _ => w.sreg 3 == 0x15 && w.fflags == 0) = true := by
  decide +kernel
theorem test_jmp_backwards : runs (.jmp 0xFFFFFE) id (fun _ f => f.pc == 0xFFC) = true := by decide +kernel
theorem test_call_links : runs (.call 0x10) id (fun w f => f.pc == 0x1020 && w.sreg 190 == 0x1004 && w.sreg 191 == 0) = true := by decide +kernel
theorem test_bz_taken : runs (.bz 1 4) id (fun _ f => f.pc == 0x1008) = true := by decide +kernel
theorem test_bz_falls : runs (.bz 1 4) (withS [(1, 1)]) (fun _ f => f.pc == 0x1004) = true := by decide +kernel
theorem test_jr_goes_to_pair : runs (.jr 2) (withS [(2, 0x2000)]) (fun _ f => f.pc == 0x2000) = true := by decide +kernel
theorem test_rjset_pends : runs (.rjset 8) id (fun _ f => f.pending == some 0x1010) = true := by decide +kernel
theorem test_vbr_splits : stepTo (placed 32 0 (withS [(1, 0xFF)])) (fun _ => true) = true ∧
    (match exec (.vbr 1 8) (placed 32 0 (withS [(1, 0xFF)])) with
     | .next t => (t.waveD 902).frags.map (fun e => (e.2.memb, e.2.pc)) | _ => []) =
      [(0xFF, 0x1010), (0xFFFFFF00, 0x1004)] := by decide +kernel
theorem test_vbrany_no_split : runs (.vbrany 1 8) (withS [(1, 1)]) (fun _ f => f.pc == 0x1010 && f.memb == 0xFFFFFFFF) = true := by decide +kernel
theorem test_yield_counts_eight : runs .yield id (fun _ f => f.yieldLeft == 8) = true := by decide +kernel
theorem test_sleep_caps_nothing_small : runs (.sleep 193) id (fun _ f => f.sleepEnd == some 1) = true := by decide +kernel
theorem test_trap_goes_to_handler : runs (.trap 194) (fun w => { w with uhandler := 0x8000 })
    (fun _ f => f.pc == 0x8000 && f.trap.inHandler && f.trap.rpc == 0x1004 && f.trap.targ == 2) = true := by decide +kernel
theorem test_wnull : givesS (.wnull 4) [(4, 7), (5, 7)] 5 0 = true := by decide +kernel
-- R163 to R185
theorem test_vadd_active_lanes_only : runs (.vaddI32 5 3 4 false false)
    (fun w => (withV 1 [(3, 2), (4, 3), (5, 9)] (withV 0 [(3, 1), (4, 1), (5, 9)] w)).setFrag 0
      { memb := 0xFFFFFFFF#32, emask := 2, pc := 0x1000 }) (fun w _ => w.vreg 5 1 == 5 && w.vreg 5 0 == 9) = true := by decide +kernel
theorem test_vmad_reads_d : givesV (.vmadI32 5 3 4 false false) [(3, 2), (4, 3), (5, 10)] 5 16 = true := by decide +kernel
theorem test_vaddsat_clamps : givesV (.vaddsatI32 5 3 4 false false) [(3, 0x7FFFFFFF), (4, 1)] 5 0x7FFFFFFF = true := by decide +kernel
theorem test_vsubsat_ui_clamps : givesV (.vsubsatUi32 5 3 4 false false) [(3, 1), (4, 2)] 5 0 = true := by decide +kernel
theorem test_vmulh_signed : givesV (.vmulhI32 5 3 4 false false) [(3, 0xFFFFFFFF), (4, 2)] 5 0xFFFFFFFF = true := by decide +kernel
theorem test_vsra : givesV (.vsra 5 3 4 false false) [(3, 0x80000000), (4, 4)] 5 0xF8000000 = true := by decide +kernel
theorem test_vbfe_i32_signs : givesV (.vbfeI32 5 3 4 false false) [(3, 0x8), (4, 0x400)] 5 0xFFFFFFF8 = true := by decide +kernel
theorem test_vadd_short : runs (.vaddI32Short 5 3) (withV 5 [(5, 4), (3, 6)]) (fun w f => w.vreg 5 5 == 10 && f.pc == 0x1002) = true := by decide +kernel
theorem test_vix_add_bytes : givesV (.vixVadd 5 3 false 0) [(5, 0x01FF7F01), (3, 0x01010101)] 5 0x02008002 = true := by decide +kernel
theorem test_vix_min_halves_signed : givesV (.vixVmin 5 3 false 2) [(5, 0xFFFF0001), (3, 0x00010002)] 5 0xFFFF0001 = true := by decide +kernel
theorem test_vsel_by_mask : runs (.vsel 5 3 1 false) (fun w => withS [(1, 0x20)] (withV 5 [(3, 7), (5, 1)] (withV 4 [(3, 7), (5, 1)] w)))
    (fun w _ => w.vreg 5 5 == 7 && w.vreg 5 4 == 1) = true := by decide +kernel
theorem test_vmovs_broadcasts : runs (.vmovs 5 1) (withS [(1, 77)]) (fun w _ => w.vreg 5 0 == 77 && w.vreg 5 31 == 77) = true := by decide +kernel
theorem test_vli_signs : runs (.vli .none 5 0x8000) id (fun w _ => w.vreg 5 0 == 0xFFFF8000) = true := by decide +kernel
theorem test_vcmp_lt_signed : runs (.vcmpLtI32 5 3 4 false false) (withV 5 [(3, 0xFFFFFFFF)]) (fun w _ => w.sreg 5 == 0x20) = true := by decide +kernel
theorem test_vadd_f32 : givesV (.vaddF32 5 3 4 false false) [(3, 0x3F800000), (4, 0x40000000)] 5 0x40400000 = true := by decide +kernel
theorem test_vdiv_f32_by_zero_raises : runs (.vdivF32 5 3 4 false false) (fun w => { withV 5 [(3, 0x3F800000)] w with fflags := 0 })
    (fun w _ => w.vreg 5 5 == 0x7F800000 && w.fflags != 0) = true := by decide +kernel
theorem test_vfma_one_rounding : givesV (.vfmaF32 5 3 4 false false) [(3, 0x3F800001), (4, 0x3F800001), (5, 0xBF800002)] 5 0x28800000 = true := by
  decide +kernel
theorem test_vmin_f32_zero_sign : givesV (.vminF32 5 3 4 false false) [(3, 0), (4, 0x80000000)] 5 0x80000000 = true := by decide +kernel
theorem test_vadd_f64 : givesV (.vaddF64 6 2 4 false false) [(3, 0x3FF00000), (5, 0x3FF00000)] 7 0x40000000 = true := by decide +kernel
theorem test_vfx_neg : givesV (.vfxVneg 5 3 false 0) [(3, 0x3F800000)] 5 0xBF800000 = true := by decide +kernel
theorem test_vfx_class_of_one : runs (.vfxVclass 5 3 false 0) (withV 5 [(3, 0x3F800000)]) (fun w _ => bitsSet (w.vreg 5 5) == 1) = true := by decide +kernel
theorem test_vballot : runs (.vballot 5 3 false) (withV 5 [(3, 1)]) (fun w _ => w.sreg 5 == 0x20) = true := by decide +kernel
theorem test_vshfl_up_shifts : runs (.vshflUp 5 3 1 false) (withV 5 [(3, 8)]) (fun w _ => w.vreg 5 6 == 8) = true := by decide +kernel
theorem test_vred_add : runs (.vredAdd 5 3 false 0) (fun w => withV 1 [(3, 4)] (withV 5 [(3, 8)] w)) (fun w _ => w.sreg 5 == 12) = true := by decide +kernel
theorem test_vscan_inclusive : runs (.vscan 5 3 0 0 0 false) (fun w => withV 1 [(3, 4)] (withV 0 [(3, 8)] w))
    (fun w _ => w.vreg 5 0 == 8 && w.vreg 5 1 == 12 && w.vreg 5 31 == 12) = true := by decide +kernel
theorem test_empty_source_waits : runs (.vaddI32 5 3 4 false false) (fun w => { w with vEmpty := [3] })
    (fun _ f => f.pc == 0x1000 && f.stall == .emptySrc) = true := by decide +kernel
theorem test_empty_tie_traps : runs (.vaddI32 5 3 4 true false) (fun w => { w with vEmpty := [3], uhandler := 0x8000 })
    (fun _ f => f.pc == 0x8000 && f.trap.targ == 3) = true := by decide +kernel
theorem test_reg_bound : runs (.vaddI32 5 3 4 false false) (fun w => { w with nvreg := 4 }) (fun _ f => f.pc == 0x1000) = true := by decide +kernel

/-! ## Witnesses: states and operands that meet the hypotheses of each statement -/

/-- The fragment of a placed word. -/
def f0 : Frag := { memb := 0xFFFFFFFF#32, emask := 0xFFFFFFFF#32, pc := 0x1000 }
/-- The placed wave and its fragment, changed. -/
def wv (k : Wave → Wave) (g : Frag → Frag) : Wave := (k ((placed 32 0 id).waveD 902)).setFrag 0 (g f0)
/-- The placed state with that wave. -/
def st (k : Wave → Wave) (g : Frag → Frag) : State := (placed 32 0 id).setWave 902 (wv k g)

theorem frag_wv (k : Wave → Wave) (g : Frag → Frag) : (wv k g).frag? 0 = some (g f0) := by
  simp [wv, Wave.frag?, Wave.setFrag, Tab.val?_put_self]

theorem issuing_st (k : Wave → Wave) (g : Frag → Frag) : Issuing (st k g) 902 0 (wv k g) (g f0) :=
  ⟨rfl, by simp [st, State.wave?, State.setWave, Tab.val?_put_self], frag_wv k g⟩

theorem fullS_of {w : Wave} (h : w.sEmpty = []) (n c : Nat) : FullS w n c := fun _ _ _ => by simp [h]
theorem fullV_of {w : Wave} (h : w.vEmpty = []) (n c : Nat) : FullV w n c := fun _ _ _ => by simp [h]
theorem srcS_of {w : Wave} (h : w.sEmpty = []) {a : BitVec 8} (ha : a.toNat < 192) : SrcS w a :=
  Or.inl ⟨ha, ha, fun e => by simp at e, fullS_of h _ _⟩
theorem dstS_of {w : Wave} (h : w.sEmpty = []) {d : BitVec 8} (hd : d.toNat < 192) : DstS w d := ⟨hd, fun e => by simp at e, fullS_of h _ _⟩
theorem srcS64_of {w : Wave} (h : w.sEmpty = []) {a : BitVec 8} (ha : a.toNat + 2 ≤ 192) (he : a.toNat % 2 = 0) : SrcS64 w a :=
  Or.inl ⟨by simp only; omega, ha, fun _ => he, fullS_of h _ _⟩
theorem dstS64_of {w : Wave} (h : w.sEmpty = []) {d : BitVec 8} (hd : d.toNat + 2 ≤ 192) (he : d.toNat % 2 = 0) : DstS64 w d :=
  ⟨hd, fun _ => he, fullS_of h _ _⟩

theorem wv_sEmpty : (wv id id).sEmpty = [] := by decide +kernel
theorem wv_vEmpty : (wv id id).vEmpty = [] := by decide +kernel

/-- Operands at the ends of their ranges: registers, constants, special sources and pairs. -/
theorem witness_ScalarResults : Issuing (st id id) 902 0 (wv id id) f0 ∧ SrcS (wv id id) 0 ∧ SrcS (wv id id) 191 ∧ SrcS (wv id id) 207 ∧
    SrcS (wv id id) 215 ∧ DstS (wv id id) 191 ∧ SrcS64 (wv id id) 190 ∧ SrcS64 (wv id id) 207 ∧ DstS64 (wv id id) 190 ∧
    NoPair 208 ∧ NoPair 191 ∧ NoPairDst 192 ∧ NoPairDst 1 :=
  ⟨issuing_st id id, srcS_of wv_sEmpty (by decide), srcS_of wv_sEmpty (by decide), .inr (.inl (by decide)), .inr (.inr (by decide)),
   dstS_of wv_sEmpty (by decide), srcS64_of wv_sEmpty (by decide) (by decide), .inr (.inl (by decide)),
   dstS64_of wv_sEmpty (by decide) (by decide), .inl (by decide), .inr (by decide), .inl (by decide), .inr (by decide)⟩

theorem witness_UniformLaneBranches : Issuing (st id id) 902 0 (wv id id) f0 ∧ SrcS (wv id id) 1 ∧ (wv id id).control = false :=
  ⟨issuing_st id id, srcS_of wv_sEmpty (by decide), by decide +kernel⟩

/-- s1 splits the members, s2 takes all, s3 none; s190 empty; s4:5 odd. -/
def splitW (w : Wave) : Wave := withS [(1, 0xFF), (2, 0xFFFFFFFF), (4, 1)] w

theorem witness_JumpsCallsAndSplits :
    Issuing (st splitW id) 902 0 (wv splitW id) f0 ∧ (wv splitW id).sEmpty = [] ∧ (wv splitW id).control = false ∧
    ¬ FullS (wv (fun w => { w with sEmpty := [191] }) id) 190 2 ∧
    (opS64 (st splitW id) 902 (wv splitW id) f0 4).getLsbD 0 = true ∧ (opS64 (st splitW id) 902 (wv splitW id) f0 6).getLsbD 0 = false ∧
    f0.memb &&& opS (st splitW id) 902 (wv splitW id) f0 3 = 0#32 ∧
    f0.memb &&& ~~~(opS (st splitW id) 902 (wv splitW id) f0 2) = 0#32 ∧
    (f0.memb &&& opS (st splitW id) 902 (wv splitW id) f0 1 ≠ 0#32 ∧ f0.memb &&& ~~~(opS (st splitW id) 902 (wv splitW id) f0 1) ≠ 0#32 ∧
      f0.pending = none ∧ f0.rejoin = none ∧ f0.stack = [] ∧ f0.stepping = 0 ∧ 1 ≤ freeEntries (st splitW id) (wv splitW id) ∧
      Tab.val? (wv splitW id).ents (Tab.freshFrom (wv splitW id).ents 0) = none) :=
  ⟨issuing_st _ _, by decide +kernel, by decide +kernel, fun h => h 191 (by decide) (by decide) (by decide +kernel), by decide +kernel⟩

theorem witness_FragmentRegistersAndEnding :
    Issuing (st splitW id) 902 0 (wv splitW id) f0 ∧ LegalFmt (opS (st splitW id) 902 (wv splitW id) f0 0) ∧
    ¬ LegalFmt (opS (st splitW id) 902 (wv splitW id) f0 2) ∧ f0.stack = [] ∧ (wv splitW id).joins = [] ∧ (wv splitW id).intr = none ∧
    Tab.wf (wv splitW id).ents = true ∧ opS (st splitW id) 902 (wv splitW id) f0 3 = 0#32 ∧ opS (st splitW id) 902 (wv splitW id) f0 1 ≠ 0#32 ∧
    (st id fun f => { f with sleepEnd := some 0 }).frag? 902 0 = some { f0 with sleepEnd := some 0 } :=
  ⟨issuing_st _ _, by unfold LegalFmt; decide +kernel, by unfold LegalFmt; decide +kernel, rfl, by decide +kernel⟩

/-- A wave in a delivery, one fragment of which was set aside. -/
def intrW (w : Wave) : Wave := { w with intr := some { cause := 0x18, ents := [(0, .frag f0)] } }

theorem witness_SystemAndHiddenRegisters :
    levelOf (st id id) (wv id id) = 0 ∧ InRange 0 0x3F ∧ ¬ InRange 0 0x40 ∧ InRange 1 0x7F ∧ ¬ InRange 1 0x80 ∧ levelOf (st intrW id) (wv intrW id) = 1 ∧
    sysAssigned 0x04 = true ∧ sysAssigned 0x3F = false ∧ sysAssigned 0x00 = true ∧ sysReadOnly 0x00 = true ∧
    (opS (st id id) 902 (wv id id) f0 1).getLsbD 0 = false ∧ (opS (st id id) 902 (wv id id) f0 1).extractLsb' 20 12 = 0#12 ∧
    (wv intrW id).intr = some { cause := 0x18, ents := [(0, .frag f0)] } ∧
    (hiddenFrags { cause := 0x18, ents := [(0, .frag f0)] })[0]? = some (0, f0) :=
  ⟨by decide +kernel, by unfold InRange; decide, by unfold InRange; decide, by unfold InRange; decide, by unfold InRange; decide,
   by decide +kernel⟩

theorem srcV_of {w : Wave} {f : Frag} (h : w.vEmpty = []) {a : Nat} (ha : vecNo f a < w.nvreg) : SrcV w f a :=
  ⟨⟨fun e => by simp at e, ha, ha⟩, fullV_of h _ _⟩
theorem srcV64_of {w : Wave} {f : Frag} (h : w.vEmpty = []) {a : Nat} (he : vecNo f a % 2 = 0) (ha : vecNo f a + 2 ≤ w.nvreg) : SrcV64 w f a :=
  ⟨⟨fun _ => he, by omega, ha⟩, fullV_of h _ _⟩
theorem dstV_of {w : Wave} {f : Frag} (h : w.vEmpty = []) (hs : saveRefuses w = false) {d : Nat} (hd : vecNo f d < w.nvreg) : DstV w f d :=
  ⟨⟨fun e => by simp at e, hd, hd⟩, fullV_of h _ _, fun e => by simp [hs] at e⟩
theorem dstV64_of {w : Wave} {f : Frag} (h : w.vEmpty = []) (hs : saveRefuses w = false) {d : Nat} (he : vecNo f d % 2 = 0)
    (hd : vecNo f d + 2 ≤ w.nvreg) : DstV64 w f d :=
  ⟨⟨fun _ => he, by simp only; omega, hd⟩, fullV_of h _ _, fun e => by simp [hs] at e⟩

theorem wv_nvreg : (wv id id).nvreg = 256 := by decide +kernel
theorem wv_saves : saveRefuses (wv id id) = false := by decide +kernel
/-- The placed wave issues vector units, and no predicate watches it. -/
theorem vecIssuing_st : VecIssuing (st id id) 902 0 (wv id id) f0 := ⟨issuing_st id id, by decide +kernel, by unfold Unwatched; decide +kernel⟩
/-- A fragment whose x0 and x1 name the last registers. -/
def fx (f : Frag) : Frag := { f with x0 := 240, x1 := 241 }

theorem witness_VectorIntegerUnits : VecIssuing (st id id) 902 0 (wv id id) f0 ∧ SrcV (wv id id) f0 0 ∧ SrcV (wv id id) f0 95 ∧
    SrcV (wv id id) (fx f0) 111 ∧ DstV (wv id id) (fx f0) 126 ∧ SrcV64 (wv id id) f0 94 ∧ DstV64 (wv id id) f0 94 ∧ SrcS (wv id id) 191 ∧
    DstSReady (wv id id) ((127 : BitVec 7).toNat, 1, false) ∧ 1 ∉ wordTypes ∧ 7 ∉ signedTypes ∧ 4 ∉ smallTypes ∧ 5 ∉ smallAnd64 ∧
    (255 < (wv id id).nvreg ∧ 255 ∉ (wv id id).vEmpty ∧ saveRefuses (wv id id) = false) ∧ (wv (fun w => { w with nvreg := 8 }) id).nvreg ≤ 8 ∧
    Tab.wf (wv id id).vregs = true :=
  ⟨vecIssuing_st, srcV_of wv_vEmpty (by decide +kernel), srcV_of wv_vEmpty (by decide +kernel), srcV_of wv_vEmpty (by decide +kernel),
   dstV_of wv_vEmpty wv_saves (by decide +kernel), srcV64_of wv_vEmpty (by decide) (by decide +kernel),
   dstV64_of wv_vEmpty wv_saves (by decide) (by decide +kernel), srcS_of wv_sEmpty (by decide),
   ⟨by decide, fun e => by simp at e, fullS_of wv_sEmpty _ _⟩, by decide, by decide, by decide, by decide, by decide +kernel, by decide +kernel,
   by decide +kernel⟩

theorem ready_vsrc {w : Wave} {f : Frag} (h : w.vEmpty = []) (x : VSrc) (hp : x.pair = true → vecNo f x.fd % 2 = 0)
    (hx : vecNo f x.fd < w.nvreg) (hc : vecNo f x.fd + x.cnt ≤ w.nvreg) : x.Ready w f := ⟨⟨hp, hx, hc⟩, fullV_of h _ _⟩

/-- Pairs in a, b, d at the ends of the direct fields. -/
theorem witness_FloatArithmeticAndComparisons : VecIssuing (st id id) 902 0 (wv id id) f0 ∧
    (srcOf (regsOf FP64) 94).Ready (wv id id) f0 ∧ (srcOf (regsOf FP32) 127).Ready (wv id id) f0 ∧
    Opnds.Ready (wv id id) f0 { v := [srcOf 2 0, srcOf 2 94], vd := some (2, 2, true) } ∧ DstSReady (wv id id) (127, 1, false) :=
  ⟨vecIssuing_st, ready_vsrc wv_vEmpty _ (by decide) (by decide +kernel) (by decide +kernel),
   ready_vsrc wv_vEmpty _ (by decide) (by decide +kernel) (by decide +kernel),
   ⟨fun x hx => by
      simp only [List.mem_cons, List.not_mem_nil, or_false] at hx
      obtain rfl | rfl := hx <;> exact ready_vsrc wv_vEmpty _ (by decide) (by decide +kernel) (by decide +kernel),
    fun x hx => by simp at hx, fun d hd => by obtain rfl := Option.some.inj hd; exact dstV64_of wv_vEmpty wv_saves (by decide) (by decide +kernel),
    fun d hd => by simp at hd⟩, ⟨by decide, fun e => by simp at e, fullS_of wv_sEmpty _ _⟩⟩

theorem witness_FloatFunctionsAndSpecialResults : Issuing (st id id) 902 0 (wv id id) f0 ∧ (2 : BitVec 3) ∉ [0, 1] ∧
    FP32 ∈ arithmeticFormats ∧ (unpack FP32 0x7F800001).isNan = true ∧ (unpack FP32 0x3F800000).isNan = false ∧
    unpack FP32 0x7F800000 = .inf false ∧ unpack FP32 0xFF800000 = .inf (!false) ∧ (unpack FP32 0).isZero = true ∧
    (∃ m e, unpack FP32 0xBF800000 = .num true m e ∧ m ≠ 0) ∧ (∃ e, unpack FP32 0x80000000 = .num true 0 e) ∧ 12 ≤ 12 :=
  ⟨issuing_st id id, by decide, by decide, by decide +kernel, by decide +kernel, by decide +kernel, by decide +kernel, by decide +kernel,
   ⟨2 ^ 23, -23, by decide +kernel⟩, ⟨_, rfl⟩, by decide⟩

theorem witness_ConversionsAndDotProducts : (0, FP64) ∈ floatCodes ∧ (6, E2M1) ∈ floatCodes ∧ (0, 8, true) ∈ intCodes ∧
    (6, 64, true) ∈ intCodes ∧ (4 ≤ (6 : BitVec 3).toNat ∧ 1 ≤ (3 : BitVec 3).toNat ∧ (3 : BitVec 3).toNat ≤ 3 ∧ (3, BF16) ∈ floatCodes) ∧
    Opnds.Ready (wv id id) f0 { v := [{ fd := 88, cnt := 8 }], vd := some (5, 1, false) } :=
  ⟨by decide, by decide, by decide, by decide, by decide,
   ⟨fun x hx => by
      simp only [List.mem_cons, List.not_mem_nil, or_false] at hx
      subst hx; exact ready_vsrc wv_vEmpty _ (by decide) (by decide +kernel) (by decide +kernel),
    fun x hx => by simp at hx, fun d hd => by obtain rfl := Option.some.inj hd; exact dstV_of wv_vEmpty wv_saves (by decide +kernel),
    fun d hd => by simp at hd⟩⟩

/-- The fragment issues in a state of the same waves. -/
theorem issuing_of {s : State} (k : Wave → Wave) (g : Frag → Frag) (hc : s.cur = (st k g).cur) (hw : s.waves = (st k g).waves) :
    Issuing s 902 0 (wv k g) (g f0) := by
  obtain ⟨h1, h2, h3⟩ := issuing_st k g
  exact ⟨hc.trans h1, by simpa [State.wave?, hw] using h2, h3⟩

theorem dstSReady_of {w : Wave} (h : w.sEmpty = []) {d : Nat} (hd : d < 192) : DstSReady w (d, 1, false) :=
  ⟨hd, fun e => by simp at e, fullS_of h _ _⟩

/-- The state with an operation outstanding. -/
def withAt (s : State) (k : Nat) (o : Op) : State := { s with ops := Tab.put s.ops k o }

/-- s1: the last 256 scratch bytes; s2: a misaligned address; s3: one block of a stream at 0; s4: a stream at 2. -/
def xbarW (w : Wave) : Wave := withS [(1, 65280), (2, 65281), (3, 0), (4, 2)] w
/-- A block of a stream at scratch 0, and pattern tables 2 and 3 of this context and of another. -/
def xbarS : State := withAt ((scrPut (st xbarW id) 901 0 0 8 0x60080000).updCore 0 fun c =>
  { c with tables := [(2, { owner := some (0, 0) }), (3, { owner := some (0, 1) })] }) 950
    { kind := .vdec, wid := 902, dst := [5] }

theorem witness_CrossLaneAndDecoderUnits : VecIssuing (st id id) 902 0 (wv id id) f0 ∧ SrcV (wv id id) f0 95 ∧ DstV (wv id id) f0 95 ∧
    SrcS (wv id id) 191 ∧ DstSReady (wv id id) (127, 1, false) ∧ (0#2 : BitVec 2) ≠ 3#2 ∧ (1#3 : BitVec 3) ≠ 0#3 ∧ (1#3 : BitVec 3) ≠ 2#3 ∧
    3 ≤ (3#3 : BitVec 3).toNat ∧ Issuing xbarS 902 0 (wv xbarW id) f0 ∧ (wv xbarW id).control = false ∧ SrcS (wv xbarW id) 1 ∧
    ScratchOk xbarS (wv xbarW id) (opS xbarS 902 (wv xbarW id) f0 1).toNat 256 128 ∧ scrStoresOut xbarS 902 xbarS.nextId = false ∧
    (opS xbarS 902 (wv xbarW id) f0 2).toNat % 128 ≠ 0 ∧ Unwatched xbarS (wv xbarW id) ∧
    (Tab.valD (xbarS.coreSt 0).tables 2 {}).owner = some ((wv xbarW id).glade, (wv xbarW id).ctx) ∧
    (Tab.valD (xbarS.coreSt 0).tables 3 {}).owner ≠ some ((wv xbarW id).glade, (wv xbarW id).ctx) ∧
    VSrc.Ready (wv xbarW id) f0 { fd := 88, cnt := (7#3).toNat + 1 } ∧ DstV (wv xbarW id) f0 95 ∧
    (opS xbarS 902 (wv xbarW id) f0 4).toNat % 2 ^ 24 % 4 ≠ 0 ∧ DstVReady (wv xbarW id) f0 (95, 1, false) ∧
    (decodeStream xbarS (wv xbarW id) 1 0 0).toBool = true ∧
    xbarS.op? 950 = some { kind := .vdec, wid := 902, dst := [5] } ∧ xbarS.wave? 902 = some (wv xbarW id) := by
  have e : (wv xbarW id).sEmpty = [] := by decide +kernel
  have v : (wv xbarW id).vEmpty = [] := by decide +kernel
  exact ⟨vecIssuing_st, srcV_of wv_vEmpty (by decide +kernel), dstV_of wv_vEmpty wv_saves (by decide +kernel), srcS_of wv_sEmpty (by decide),
    dstSReady_of wv_sEmpty (by decide), by decide, by decide, by decide, by decide, issuing_of xbarW id rfl rfl, by decide +kernel,
    srcS_of e (by decide), by unfold ScratchOk; decide +kernel, by decide +kernel, by decide +kernel, by unfold Unwatched; decide +kernel,
    by decide +kernel, by decide +kernel, ready_vsrc v _ (by decide) (by decide +kernel) (by decide +kernel),
    dstV_of v (by decide +kernel) (by decide +kernel), by decide +kernel, dstV_of v (by decide +kernel) (by decide +kernel),
    by decide +kernel, by decide +kernel, (issuing_of (s := xbarS) xbarW id rfl rfl).2.1⟩
/-- A `vdec` that waits for an earlier scratch store, and one that is held with its operand. -/
theorem witness_DecoderUnits_held : scrStoresOut (withAt xbarS 940 { kind := .store, wid := 902, scr := true }) 902 xbarS.nextId = true ∧
    Issuing (st xbarW fun f => { f with held := some { kind := 10, a := 4, b := 950 } }) 902 0
      (wv xbarW fun f => { f with held := some { kind := 10, a := 4, b := 950 } }) { f0 with held := some { kind := 10, a := 4, b := 950 } } ∧
    4 % 2 ^ 24 % 4 = 0 ∧ (wv xbarW id).ended ≠ 0xFFFFFFFF#32 ∧
    ({ kind := .vdec, wid := 902, dst := [5] } : Op).cls = none :=
  ⟨by decide +kernel, issuing_st _ _, by decide, by decide +kernel, rfl⟩

/-- One lane's poisoned epochs, one operation of each class, a witness register pair s2:3, s4:5 foreign, s6:7 null. -/
def witW (w : Wave) : Wave := withS [(2, 1), (3, 0x80000000), (4, 1), (5, 0x81000000)] w
def witS : State := withAt ((st witW id).updGlade 0 fun g => { g with epoch := 9, poison := [{ lo := 3, hi := 4, core := anyCore }] }) 950
  { kind := .load, wid := 902, cls := some cLD }

theorem witness_Witnesses :
    (wKind (mkWit 1 5 7 3) = 1 ∧ wKind (mkWit 3 5 0 3) = 3 ∧ wGlade (mkWit 1 5 7 3) = wGlade (mkWit 3 5 0 3) ∧ wCore (mkWit 1 5 7 3) = 7 ∧
      wKind 0 = 0) ∧
    (wKind 1 = 0 ∧ (1 : DWord) ≠ 0 ∧ wGlade (mkWit 2 1 0 1) ≠ 0 ∧ (wKind (mkWit 2 0 1 1) ≠ 1 ∧ wCore (mkWit 2 0 1 1) ≠ 0) ∧
      (wKind (mkWit 1 0 160 1) = 1 ∧ 159 < wCore (mkWit 1 0 160 1)) ∧ (wKind (mkWit 1 0 159 1) = 1 ∧ wCore (mkWit 1 0 159 1) ≤ 159) ∧
      (2 ^ 47 ≤ ((witS.gladeSt 0).epoch + 2 ^ 48 - wEpoch (mkWit 2 0 0 (2 ^ 47 + 9))) % 2 ^ 48) ∧
      (2 ^ 46 ≤ ((witS.gladeSt 0).epoch + 2 ^ 48 - wEpoch (mkWit 2 0 0 (2 ^ 47 + 10))) % 2 ^ 48 ∧
        ((witS.gladeSt 0).epoch + 2 ^ 48 - wEpoch (mkWit 2 0 0 (2 ^ 47 + 10))) % 2 ^ 48 < 2 ^ 47) ∧
      poisoned witS 0 (mkWit 2 0 0 4) = true ∧ poisoned witS 0 (mkWit 2 0 0 5) = false) ∧
    Issuing witS 902 0 (wv witW id) f0 ∧ DstS64 (wv witW id) 190 ∧ SrcS64 (wv witW id) 2 ∧ DstS (wv witW id) 191 ∧ f0.held = none ∧
    witnessTrap witS 0 (opS64 witS 902 (wv witW id) f0 2) = none ∧ witnessTrap witS 0 (opS64 witS 902 (wv witW id) f0 6) = none ∧
    witnessTrap witS 0 (opS64 witS 902 (wv witW id) f0 4) = some witnessForeign ∧
    Issuing (st witW fun f => { f with held := some { kind := 1 } }) 902 0 (wv witW fun f => { f with held := some { kind := 1 } })
      { f0 with held := some { kind := 1 } } ∧
    satisfied witS 0 0 0 = true ∧ satisfied witS 0 0 (mkWit 2 0 0 9) = false ∧
    Held.due { limit := some 5 } 4 = false ∧ Held.due { limit := some 5 } 5 = true ∧
    outstanding witS 902 cLD = 1 ∧ (0 : BitVec 6).toNat < outstanding witS 902 (BitVec.ofNat 3 cLD).toNat ∧
    outstanding witS 902 (BitVec.ofNat 3 cLD).toNat ≤ (1 : BitVec 6).toNat := by
  have e : (wv witW id).sEmpty = [] := by decide +kernel
  exact ⟨by decide +kernel, by decide +kernel, issuing_of witW id rfl rfl, dstS64_of e (by decide) (by decide),
    srcS64_of e (by decide) (by decide), dstS_of e (by decide), rfl, by decide +kernel, by decide +kernel, by decide +kernel,
    issuing_st _ _, by decide +kernel⟩

/-- s1: a barrier; s2: not aligned; s3: past the allotment; s4, s5: the largest count and one more; s6: a ring; s7: a geometry with
slots of 2 KiB, and s8 one without a size. -/
def scrW (w : Wave) : Wave := withS [(1, 128), (2, 65544), (3, 65536), (4, 6144), (5, 6145), (6, 192), (7, 0xA00), (8, 0xB00)] w
/-- Fragment 1 waits for its arrival at the barrier. -/
def heldF : Frag := { memb := 1, pc := 0x2000, held := some { kind := 9, op := 960 } }
def scrS : State :=
  let s := scrPut (st scrW id) 901 0 128 16 (barWord 2 1 5 7)
  let s := scrPut s 901 0 144 16 (barWord 1 1 1 0)
  let s := scrPut s 901 0 192 64 (ringWord 0x102 2 2 1 0)
  let s := withAt s 960 { kind := .barrive, wid := 902, eid := 0, blk := 901, cls := some cST, accs := [{ va := 128 }] }
  withAt s 961 { kind := .barrive, wid := 902, eid := 1, blk := 901, cls := some cST, accs := [{ va := 144 }] }

theorem witness_ScratchBarriersAndRings : Tab.wf (scrS.blkD 901).scr = true ∧ scrKey 0 7 < scrKey 0 8 ∧
    Issuing scrS 902 0 (wv scrW id) f0 ∧ SrcS (wv scrW id) 1 ∧ f0.held = none ∧ (wv scrW id).control = false ∧
    (opS scrS 902 (wv scrW id) f0 1).toNat = 128 ∧ (opS scrS 902 (wv scrW id) f0 2).toNat % 16 ≠ 0 ∧
    (opS scrS 902 (wv scrW id) f0 3).toNat % 16 = 0 ∧ ¬ ScratchOk scrS (wv scrW id) 65536 16 16 ∧
    (opS scrS 902 (wv scrW id) f0 4).toNat = 6144 ∧ 6144 < (opS scrS 902 (wv scrW id) f0 5).toNat ∧
    ObjReady scrS 902 (wv scrW id) 65520 16 ∧ ObjReady scrS 902 (wv scrW id) 65472 64 ∧
    ScratchOk scrS (wv scrW id) 128 16 16 ∧ Room scrS 902 cST ∧
    IsBar scrS 901 128 2 1 5 7 ∧ IsBar scrS 901 144 1 1 1 0 ∧ (-2 ^ 31 : Int) ≤ 5 - 6144 ∧ (-2 ^ 31 - 1 : Int) < -2 ^ 31 ∧
    (withAt scrS 960 {}).frag? 902 0 = some f0 ∧ Tab.val? scrS.ops 961 = some { kind := .barrive, wid := 902, eid := 1, blk := 901, cls := some cST, accs := [{ va := 144 }] } ∧
    stDone scrS 902 960 = true ∧ stDone scrS 902 961 = false ∧
    stDone { scrS with ops := Tab.del scrS.ops 960 } 902 961 = true ∧
    Issuing (st scrW fun f => { f with held := some { stage := 1 } }) 902 0 (wv scrW fun f => { f with held := some { stage := 1 } })
      { f0 with held := some { stage := 1 } } ∧
    ((opS scrS 902 (wv scrW id) f0 7).toNat < 2 ^ 27 ∧ (opS scrS 902 (wv scrW id) f0 7).toNat / 2 ^ 8 % 16 ≤ 10 ∧
      64 * (0xA00 / 2 ^ 12 % 2 ^ 15) + (0xA00 % 256 + 1) * 2 ^ (6 + 0xA00 / 2 ^ 8 % 16) ≤ (scrS.blkD 901).scrSize) ∧
    10 < (opS scrS 902 (wv scrW id) f0 8).toNat / 2 ^ 8 % 16 ∧ scrLoadsOut scrS 902 = false ∧
    scrLoadsOut (withAt scrS 970 { kind := .load, wid := 902, scr := true }) 902 = true ∧ IsRing scrS 901 192 0x102 2 2 1 0 ∧
    (1 ≤ (2 + 2 ^ 16 - 1) % 2 ^ 16 ∧ (2 + 2 ^ 16 - 1) % 2 ^ 16 < 2) ∧ (3 ≤ 0x102 % 256 + 1 ∧ 0x102 % 256 + 1 < 4) := by
  have e : (wv scrW id).sEmpty = [] := by decide +kernel
  exact ⟨by decide +kernel, by decide +kernel, issuing_of scrW id rfl rfl, srcS_of e (by decide), rfl, by decide +kernel,
    by decide +kernel, by decide +kernel, by decide +kernel, by unfold ScratchOk; decide +kernel, by decide +kernel, by decide +kernel,
    by unfold ObjReady ScratchOk PartRoom; decide +kernel, by unfold ObjReady ScratchOk PartRoom; decide +kernel, by unfold ScratchOk; decide +kernel,
    by unfold Room; decide +kernel, by unfold IsBar; decide +kernel, by unfold IsBar; decide +kernel, by decide, by decide,
    by decide +kernel, by decide +kernel, by decide +kernel, by decide +kernel, by decide +kernel, issuing_st _ _, by decide +kernel, by decide +kernel,
    by decide +kernel, by decide +kernel, by unfold IsRing; decide +kernel, by decide, by decide⟩

/-- s2:3: a global address of a page that the core's cache holds. -/
def gbarW (w : Wave) : Wave := withS [(2, 0x20020)] w
/-- A 64 KiB page of glade 0, context 0, read and written at home 0x40000. -/
def pageRW : Page := { va := 0x20000, len := 0x10000, home := 0x40000, rwx := 3 }
/-- A global barrier of two, one of which has arrived, at 0x40020; fragment 0 of wave 902 waits for operation 960. -/
def gbarS : State :=
  let s := (st gbarW id).updCore 0 fun c => { c with tlb := [{ glade := 0, ctx := 0, page := pageRW }] }
  let s := { s with mem := setMem (setMem s.mem 0x40020 4 2) 0x40024 4 1 }
  withAt s 960 { kind := .gbarrive, wid := 902, eid := 0, cls := some cST, accs := [{ home := 0x40020 }] }
/-- The fragment holds a wait of a kind and stage. -/
def holds (kind stage a b : Nat) (f : Frag) : Frag := { f with held := some { kind := kind, stage := stage, a := a, b := b } }

theorem witness_GlobalBarriersAndMonitor : Issuing gbarS 902 0 (wv gbarW id) f0 ∧ SrcS64 (wv gbarW id) 2 ∧ SrcS (wv gbarW id) 0 ∧
    f0.held = none ∧ Translated gbarS 902 (wv gbarW id) (opS64 gbarS 902 (wv gbarW id) f0 2).toNat 32 aWrite 0x40020 ∧
    Translated gbarS 902 (wv gbarW id) (opS64 gbarS 902 (wv gbarW id) f0 2).toNat 4 aRead 0x40020 ∧
    Room gbarS 902 cST ∧ MeshRoom gbarS 902 (wv gbarW id) ∧
    Issuing (st gbarW (holds 3 1 0 0)) 902 0 (wv gbarW (holds 3 1 0 0)) (holds 3 1 0 0 f0) ∧ (holds 3 1 0 0 f0).held = some { kind := 3, stage := 1 } ∧
    gbarBad gbarS 0x40020 = false ∧ gbarBad gbarS 0x40060 = true ∧ getMem gbarS.mem (0x40020 + 8) 4 = 0 ∧
    witnessTrap gbarS 0 (BitVec.ofNat 64 (getMem gbarS.mem (0x40020 + 0x18) 8)) = none ∧
    ({ gbarS with waves := (st gbarW (holds 5 0 0x40020 2)).waves }).frag? 902 0 = some (holds 5 0 0x40020 2 f0) ∧
    getMem gbarS.mem 0x40020 4 = 2 ∧ getMem gbarS.mem 0x40020 4 ≠ 3 ∧
    gbarS.op? 960 = some { kind := .gbarrive, wid := 902, eid := 0, cls := some cST, accs := [{ home := 0x40020 }] } ∧
    Memory.wf gbarS.mem = true := by
  have e : (wv gbarW id).sEmpty = [] := by decide +kernel
  exact ⟨issuing_of gbarW id rfl rfl, srcS64_of e (by decide) (by decide), srcS_of e (by decide), rfl,
    ⟨by decide +kernel, by decide +kernel, by decide +kernel, pageRW, by decide +kernel, by decide +kernel, by decide +kernel, by decide +kernel⟩,
    ⟨by decide +kernel, by decide +kernel, by decide +kernel, pageRW, by decide +kernel, by decide +kernel, by decide +kernel, by decide +kernel⟩,
    by unfold Room; decide +kernel, by unfold MeshRoom; decide +kernel, issuing_st _ _, rfl, by decide +kernel⟩
/-- The barrier operations stand at their turn; a ring of one entry above its size. -/
theorem witness_ScratchBarriers_apply : entryTurn scrS 960 { kind := .barrive, wid := 902, eid := 0, blk := 901, cls := some cST, accs := [{ va := 128 }] } = true ∧
    scrStoresOut scrS 902 960 = false ∧ scrStoresOut scrS 902 961 = false ∧
    (withAt (st scrW fun f => { f with held := some { kind := 9, op := 960 } }) 960 { kind := .barrive, wid := 902, eid := 0, cls := some cST }).frag? 902 0 = some { f0 with held := some { kind := 9, op := 960 } } ∧
    (1 < 2 ∧ IsBar scrS 901 128 2 1 5 7) ∧ ({ kind := .barrive, wid := 902, eid := 1, blk := 901, cls := some cST, accs := [{ va := 144 }] } : Op).wait = none :=
  ⟨by decide +kernel, by decide +kernel, by decide +kernel, by decide +kernel, ⟨by decide, by unfold IsBar; decide +kernel⟩, rfl⟩

/-- 256 entries that one slice holds, for objects nobody uses; operation 960 uses the first. -/
def syncFull (used : Bool) : State :=
  { (if used then withAt gbarS 960 { kind := .tqpop, wid := 902, stage := 1, accs := [{ home := 0x100000 }] } else { gbarS with ops := [] }) with
    sync := List.replicate 256 { home := 0x100000, glade := 0, phys := homeSlice gbarS 0x40020 } }

/-- The arrival at the barrier is the first on its way to the slice; the slice takes an entry for it, finds its own, or has none idle. -/
theorem witness_GlobalBarriers_sync : portOrder gbarS 960 { kind := .gbarrive, wid := 902, eid := 0, cls := some cST, accs := [{ home := 0x40020 }] } = true ∧
    entryTurn gbarS 960 { kind := .gbarrive, wid := 902, eid := 0, cls := some cST, accs := [{ home := 0x40020 }] } = true ∧
    (syncTouch gbarS 0 0x40020).isSome = true ∧ gbarS.wind = none ∧ gbarS.sync = [] ∧
    ((syncFull false).sync.filter fun e => e.phys == homeSlice (syncFull false) 0x40020).length = 256 ∧
    ((syncFull false).sync.find? fun e => e.home == 0x40020) = none ∧
    (((syncFull false).sync.filter fun e => e.phys == homeSlice (syncFull false) 0x40020).any fun e => syncIdle (syncFull false) e) = true ∧
    (((syncFull true).sync.filter fun e => e.phys == homeSlice (syncFull true) 0x40020).all fun e => !syncIdle (syncFull true) e) = true ∧
    ((syncFull false).sync.find? fun e => e.home == 0x100000).isSome = true ∧
    (withAt { gbarS with waves := (st gbarW (holds 9 0 0 0)).waves } 970 {}).frag? 902 0 = some (holds 9 0 0 0 f0) ∧ (2 ^ 48 - 1 : Nat) < 2 ^ 48 := by
  refine ⟨?_, ?_, ?_, ?_, ?_, ?_, ?_,
   ?_, ?_, ?_, ?_, by decide⟩ <;> decide +kernel

/-- A fragment of lane 31 alone. -/
def lane31 (f : Frag) : Frag := { f with memb := 0x80000000, emask := 0x80000000 }
theorem active_lane31 (l : Nat) (h : l < 32) (ha : (lane31 f0).active.getLsbD l = true) : l = 31 := by
  revert ha h l; decide +kernel

/-- s2:3 a base in a page of glade 0, s4 a scratch base, s6:7 null; s8:9 in a page that may only be read, s10:11 in none, s12:13 not
canonical; v1 lane 31 an offset. -/
def memW (w : Wave) : Wave := withV 31 [(1, 0xFFF0)] (withS [(2, 0x20000), (4, 0), (8, 0x30000), (10, 0x50000), (13, 0x100000)] w)
def pageRO : Page := { va := 0x30000, len := 0x10000, home := 0x90000, rwx := 1 }
def memS (g : Frag → Frag) : State := (st memW g).updCore 0 fun c =>
  { c with tlb := [{ glade := 0, ctx := 0, page := pageRW }, { glade := 0, ctx := 0, page := pageRO }] }

theorem translated_of {s : State} {wid : Nat} {w : Wave} {va size kind home : Nat} (p : Page)
    (h : (va < 2 ^ 52 ∧ va % size = 0 ∧ w.control = false ∧ tlbLookup s (w.coreNo wid) w.glade (memCtx w) va = some p) ∧
      (p.cow = false ∧ p.w = true ∧ kind ≠ aFetch ∧ home = p.homeOf va)) : Translated s wid w va size kind home :=
  ⟨h.1.1, h.1.2.1, fun e => by simp [h.1.2.2.1] at e, p, h.1.2.2.2, fun _ => ⟨h.2.1, h.2.2.1⟩, fun e => absurd e h.2.2.2.1, h.2.2.2.2⟩

theorem memIssuing_st (scr : Bool) (cls : Nat) : MemIssuing (memS lane31) 902 0 (wv memW lane31) (lane31 f0) scr cls :=
  ⟨issuing_of memW lane31 rfl rfl, by unfold Unwatched; decide +kernel,
   by
    have h : (memS lane31).ops = [] := by decide +kernel
    simp [Room, outstanding, h], .inr (by unfold MeshRoom; decide +kernel)⟩

/-- The last 16 bytes of a page in one lane, the last 16 of scratch, and operands of four registers. -/
theorem witness_MemoryUnitsIssue : MemIssuing (memS lane31) 902 0 (wv memW lane31) (lane31 f0) true cLD ∧
    MemIssuing (memS lane31) 902 0 (wv memW lane31) (lane31 f0) false cST ∧ (wv memW lane31).control = false ∧
    WitOk (memS lane31) 902 (wv memW lane31) (lane31 f0) .none 0 ∧ WitOk (memS lane31) 902 (wv memW lane31) (lane31 f0) (.mem 0 0 1 6) 0 ∧
    SrcV (wv memW lane31) (lane31 f0) 1 ∧ BaseOk (wv memW lane31) true 4 ∧ BaseOk (wv memW lane31) false 2 ∧
    DstVReady (wv memW lane31) (lane31 f0) (92, dataRegs 16, false) ∧
    AddrsOk (memS lane31) 902 (wv memW lane31) (lane31 f0) true 16 aRead
      (laneAddr (wv memW lane31) (lane31 f0) true (baseOf (memS lane31) 902 (wv memW lane31) (lane31 f0) true 4) .none 1) (fun _ => 0) ∧
    AddrsOk (memS lane31) 902 (wv memW lane31) (lane31 f0) false 16 aWrite
      (laneAddr (wv memW lane31) (lane31 f0) false (baseOf (memS lane31) 902 (wv memW lane31) (lane31 f0) false 2) .none 1)
      (fun _ => 0x4FFF0) ∧ (lane31 f0).active ≠ 0#32 ∧ (lane31 f0).pin = none ∧
    VSrc.Ready (wv memW lane31) (lane31 f0) { fd := 92, cnt := dataRegs 16, pair := 16 == 8 } ∧
    SrcS64 (wv memW lane31) 2 ∧ SrcS (wv memW lane31) 0 ∧ DstSReady (wv memW lane31) (190, 8 / 4, true) ∧
    Translated (memS lane31) 902 (wv memW lane31) (scalarVa (memS lane31) 902 (wv memW lane31) (lane31 f0) .none 2 0) 8 aWrite 0x40000 ∧
    (memExt .none).wit = none ∧ DstS64 (wv memW lane31) 190 ∧
    (2 ^ 52 ≤ scalarVa (memS lane31) 902 (wv memW lane31) (lane31 f0) .none 12 0 ∧
     scalarVa (memS lane31) 902 (wv memW lane31) (lane31 f0) (.ofs 2) 2 0 % 4 ≠ 0 ∧
     tlbLookup (memS lane31) 0 0 0 (scalarVa (memS lane31) 902 (wv memW lane31) (lane31 f0) .none 8 0) = some pageRO ∧
     pageRO.cow = false ∧ pageRO.w = false ∧
     tlbLookup (memS lane31) 0 0 0 (scalarVa (memS lane31) 902 (wv memW lane31) (lane31 f0) .none 10 0) = none) ∧
    (opS (memS lane31) 902 (wv memW lane31) (lane31 f0) 0).toNat = 0 ∧ (opS (memS lane31) 902 (wv memW lane31) (lane31 f0) 2).toNat ≠ 0 ∧
    (opS64 (memS lane31) 902 (wv memW lane31) (lane31 f0) 2).toNat < 2 ^ 52 := by
  have e : (wv memW lane31).sEmpty = [] := by decide +kernel
  have v : (wv memW lane31).vEmpty = [] := by decide +kernel
  have sv : saveRefuses (wv memW lane31) = false := by decide +kernel
  exact ⟨memIssuing_st _ _, memIssuing_st _ _, by decide +kernel, rfl,
    ⟨.inl ⟨by decide, by decide, fun _ => by decide, fullS_of e _ _⟩, by decide +kernel, by decide +kernel⟩,
    srcV_of v (by decide +kernel), srcS_of e (by decide), srcS64_of e (by decide) (by decide),
    ⟨⟨fun h => by simp at h, by decide +kernel, by decide +kernel⟩, fullV_of v _ _, fun h => by simp [sv] at h⟩,
    fun l h a => by obtain rfl := active_lane31 l h a; exact ⟨by unfold ScratchOk; decide +kernel, rfl⟩,
    fun l h a => by obtain rfl := active_lane31 l h a; exact translated_of pageRW (by decide +kernel),
    by decide +kernel, rfl, ready_vsrc v _ (by decide) (by decide +kernel) (by decide +kernel), srcS64_of e (by decide) (by decide),
    srcS_of e (by decide), dstS64_of e (d := 190) (by decide) (by decide), translated_of pageRW (by decide +kernel), rfl,
    dstS64_of e (by decide) (by decide), by decide +kernel, by decide +kernel, by decide +kernel, by decide +kernel⟩

/-- A line of the core: bytes 0 to 63 valid, bytes 8 to 15 dirty. -/
def line0 : L1Line := { va := 0x20000, home := 0x40000, valid := 0xFFFFFFFFFFFFFFFF, dirty := 0xFF00 }
def lineS : State := (memS lane31).updCore 0 fun c => { c with l1 := [line0] }

theorem witness_GlobalReadsAndWrites : (1 ≤ 8 ∧ 0x20078 % 128 + 8 ≤ 128 ∧ 0x20078 % 128 ≤ 0x40078) ∧
    (∀ e, lineFind lineS 0 0 0 0x20078 = some e → e.home + 0x20078 % 128 = 0x40078) ∧ lineFind lineS 0 0 0 0x20080 = none ∧
    bypasses 1 0 0x40078 = false ∧ bypasses 2 0 0x40078 = true ∧ bypasses 1 3 0x40078 = true ∧ bypasses 1 0 (2 ^ 56) = true ∧
    line0.dirty.getLsbD 8 = true ∧ l1Misses lineS 0 0 0 0x20078 8 = true ∧ Memory.wf lineS.mem = true := by
  have h : lineFind lineS 0 0 0 0x20078 = some line0 := by decide +kernel
  exact ⟨by decide, fun e he => by rw [h] at he; obtain rfl := Option.some.inj he; decide, by decide +kernel, by decide, by decide, by decide, by decide,
    by decide +kernel, by decide +kernel, by decide +kernel⟩

def ldScr : Op := { kind := .load, wid := 902, scr := true, cls := some cLD, size := 4, dst := range 5 1, active := 0x80000000, blk := 901, accs := [{ lane := 31, va := 0 }] }
def ldGlob : Op := { kind := .load, wid := 902, cls := some cLD, size := 8, sdst := range 6 2, active := 0xFFFFFFFF, accs := [{ va := 0x20000, home := 0x40000 }] }
def stScr : Op := { kind := .store, wid := 902, scr := true, cls := some cST, size := 4, blk := 901, accs := [{ va := 65532, data := 7 }] }
def stSys : Op := { kind := .store, wid := 902, scope := 2, cls := some cST, size := 4, accs := [{ va := 0x20080, home := 0x40080, data := 7 }] }
def stLoc : Op := { stSys with scope := 1 }
def wbOp : Op := { kind := .writeBack, wid := 902, cls := some cST, accs := [{ va := 0x20000, va2 := 128 }] }

theorem witness_LoadsAndStoresPerform :
    (∀ o ∈ [ldScr, ldGlob, stScr, stSys, stLoc, wbOp], (withAt lineS 950 o).op? 950 = some o ∧ o.done = false ∧
      inOrder (withAt lineS 950 o) 950 o = true ∧ bwHeld (withAt lineS 950 o) o = false ∧ o.pinCore = none ∧
      satisfied (withAt lineS 950 o) o.core o.glade o.wit = true) ∧
    lineS.wave? 902 = some (wv memW lane31) ∧ (wv memW lane31).intr = none ∧ Unwatched lineS (wv memW lane31) ∧
    Tab.wf (wv memW lane31).vregs = true ∧ Tab.wf (wv memW lane31).sregs = true ∧
    (∀ a ∈ stSys.accs, bypasses 2 0 a.home = true ∧ lineFind lineS 0 0 0 a.va = none) ∧ (∀ a ∈ stLoc.accs, bypasses 1 0 a.home = false) ∧
    Memory.wf lineS.mem = true :=
  ⟨by decide +kernel, (issuing_of (s := lineS) memW lane31 rfl rfl).2.1, by decide +kernel, by unfold Unwatched; decide +kernel, by decide +kernel⟩

/-- An atomic add of system scope, and one that returns the old word. -/
def atSys : Op := { kind := .atomic, wid := 902, scope := 2, cls := some cST, size := 4, accs := [{ va := 0x20080, home := 0x40080, data := 7 }] }
def atRtn : Op := { atSys with cls := some cAT, sdst := [9] }

theorem witness_AtomicUnits : Issuing (memS lane31) 902 0 (wv memW lane31) (lane31 f0) ∧ Unwatched (memS lane31) (wv memW lane31) ∧
    MeshRoom (memS lane31) 902 (wv memW lane31) ∧ MemIssuing (memS lane31) 902 0 (wv memW lane31) (lane31 f0) false cAT ∧
    (wv memW lane31).control = false ∧ SrcV (wv memW lane31) (lane31 f0) 1 ∧ SrcS64 (wv memW lane31) 2 ∧ (11 : BitVec 4).toNat < 12 ∧
    (lane31 f0).active ≠ 0#32 ∧ (lane31 f0).pin = none ∧
    VSrc.Ready (wv memW lane31) (lane31 f0) { fd := 94, cnt := atomData 11, pair := 11 == 11 } ∧
    AddrsOk (memS lane31) 902 (wv memW lane31) (lane31 f0) false (atomSize 11) aWrite
      (laneAddr (wv memW lane31) (lane31 f0) false (opS64 (memS lane31) 902 (wv memW lane31) (lane31 f0) 2).toNat (.atom 11 false 1 0) 1) (fun _ => 0x4FFF0) ∧
    witnessTrap (memS lane31) 0 (BitVec.ofNat 64 (vecVal (wv memW lane31) 94 (atomData 11) 31)) = none ∧
    DstVReady (wv memW lane31) (lane31 f0) (94, atomDest 11, true) ∧ Room (memS lane31) 902 cST ∧
    SSrc.Ready (wv memW lane31) { fd := 190, cnt := atomData 11, pair := true } ∧ DstSReady (wv memW lane31) (190, atomDest 11, true) ∧
    Translated (memS lane31) 902 (wv memW lane31) (wrap 64 (((opS64 (memS lane31) 902 (wv memW lane31) (lane31 f0) 2).toNat : Int) + (8 : BitVec 12).toInt))
      (atomSize 11) aWrite 0x40008 ∧
    (∀ o ∈ [atSys, atRtn], (withAt lineS 950 o).op? 950 = some o ∧ inOrder (withAt lineS 950 o) 950 o = true ∧ o.scope ≠ 0 ∧
      ∀ a ∈ o.accs, lineFind (withAt lineS 950 o) o.core o.glade o.ctx (lineOf a.va) = none) ∧
    lineS.wave? 902 = some (wv memW lane31) ∧ (wv memW lane31).intr = none ∧ Unwatched lineS (wv memW lane31) := by
  have e : (wv memW lane31).sEmpty = [] := by decide +kernel
  have v : (wv memW lane31).vEmpty = [] := by decide +kernel
  have sv : saveRefuses (wv memW lane31) = false := by decide +kernel
  exact ⟨issuing_of memW lane31 rfl rfl, by unfold Unwatched; decide +kernel, by unfold MeshRoom; decide +kernel, memIssuing_st _ _, by decide +kernel,
    srcV_of v (by decide +kernel), srcS64_of e (by decide) (by decide), by decide, by decide +kernel, rfl,
    ready_vsrc v _ (by decide +kernel) (by decide +kernel) (by decide +kernel),
    fun l h a => by obtain rfl := active_lane31 l h a; exact translated_of pageRW (by decide +kernel), by decide +kernel,
    dstV64_of v sv (d := 94) (by decide) (by decide +kernel), by unfold Room; decide +kernel,
    .inl ⟨by decide, by decide, fun _ => by decide, fullS_of e _ _⟩, ⟨by decide, fun _ => by decide, fullS_of e _ _⟩,
    translated_of pageRW (by decide +kernel), by decide +kernel, (issuing_of (s := lineS) memW lane31 rfl rfl).2.1, by decide +kernel,
    by unfold Unwatched; decide +kernel⟩

/-- The lines that the operations of `witness_MemoryUnitsIssue` reach fit among the core's requests; a scratch access reaches none. -/
theorem witness_MemoryUnitsIssue_lines :
    (∀ o ∈ [{ kind := .load, wid := 902, size := 16, active := 0x80000000, accs := [{ lane := 31, va := 0x2FFF0, home := 0x4FFF0 }] },
      { kind := .store, wid := 902, size := 8, accs := [{ va := 0x20000, home := 0x40000 }] }, ({ kind := .store, scr := true } : Op)],
      LinesFit (memS lane31) o) ∧ Room (memS lane31) 902 cST :=
  ⟨by unfold LinesFit; decide +kernel, by unfold Room; decide +kernel⟩

/-- A core whose L1 has no line to spare, and one with room. -/
def fullL1 : State := lineS.updCore 0 fun c => { c with scrSize := 1536 * 1024 }
theorem witness_GlobalReadsAndWrites_room : (lineS.coreSt 0).l1.length < l1Lines lineS 0 ∧ l1Lines fullL1 0 < (fullL1.coreSt 0).l1.length ∧
    (fullL1.coreSt 0).l1.getLast? = some line0 ∧ (∀ x ∈ (fullL1.coreSt 0).l1, x.isAt 0 0 0x20000 = true → x = line0) ∧
    Memory.wf fullL1.mem = true :=
  by decide +kernel

/-- A load whose witness has become poisoned, one that reads a marked line, and one of a wave that has ended. -/
def ldWit : Op := { ldGlob with wit := mkWit 1 0 0 4 }
def poisS : State := withAt (lineS.updGlade 0 fun g => { g with epoch := 9, poison := [{ lo := 3, hi := 4, core := anyCore }] }) 950 ldWit
def markS : State := { withAt lineS 950 { ldGlob with scope := 2 } with marked := [0x40000] }
theorem witness_LoadsAndStoresPerform_ends :
    (∀ o ∈ [ldScr, ldGlob, stScr, stSys, stLoc, wbOp], o.meetsMark (withAt lineS 950 o) = false ∧
      (o.scr = true ∨ poisoned (withAt lineS 950 o) o.glade o.wit = false)) ∧ (wv memW lane31).ended ≠ 0xFFFFFFFF#32 ∧
    ldScr.dst = range 5 1 ∧ ldGlob.sdst = range 6 2 ∧ ldGlob.accs = [{ va := 0x20000, home := 0x40000 }] ∧
    (poisS.op? 950 = some ldWit ∧ inOrder poisS 950 ldWit = true ∧ bwHeld poisS ldWit = false ∧ poisoned poisS 0 ldWit.wit = true) ∧
    (inOrder markS 950 { ldGlob with scope := 2 } = true ∧ bwHeld markS { ldGlob with scope := 2 } = false ∧
      satisfied markS 0 0 0 = true ∧ ({ ldGlob with scope := 2 } : Op).meetsMark markS = true) ∧
    (wv (fun w => { w with ended := 0xFFFFFFFF }) id).ended = 0xFFFFFFFF#32 ∧
    Unwatched (st (fun w => { w with ended := 0xFFFFFFFF }) id) (wv (fun w => { w with ended := 0xFFFFFFFF }) id) ∧
    (lineS.coreSt 0).l1.length + stLoc.accs.length ≤ l1Lines lineS 0 ∧ (lineS.coreSt 0).l1.length + (0 + 128 + 127) / 128 ≤ l1Lines lineS 0 :=
  ⟨by decide +kernel, by decide +kernel, rfl, rfl, rfl, by decide +kernel, by decide +kernel, by decide +kernel, by unfold Unwatched; decide +kernel,
   by decide +kernel, by decide +kernel⟩

theorem witness_AtomicUnits_turn :
    (∀ o ∈ [atSys, atRtn], entryTurn (withAt lineS 950 o) 950 o = true ∧ o.meetsMark (withAt lineS 950 o) = false ∧
      LinesFit (memS lane31) o) ∧ atRtn.sdst = [9] ∧ atRtn.dst = [] ∧ (wv memW lane31).ended ≠ 0xFFFFFFFF#32 :=
  ⟨by unfold LinesFit; decide +kernel, rfl, rfl, by decide +kernel⟩

/-- The command of the placed block, changed. -/
def withCmd (s : State) (k : Cmd → Cmd) : State := { s with cmds := Tab.upd s.cmds 900 k }

/-- Slots 0 and 2 name teams 0 and 1; slots 1 and 3 none. -/
def teamW (w : Wave) : Wave := { w with teams := [256, 0, 257, 255] }
/-- A `tbar` has arrived at team 1. -/
def teamS : State := withCmd (st teamW id) fun c => { c with phases := [(2048, [{ wid := 5, what := 0 }])] }
/-- All members of team 0 have arrived with one word each to add, at s190. -/
def arr : Arrival := { wid := 902, lanes := 0xFFFFFFFF, what := tredCode 0 0 1, vals := [3], dst := 190, full := true }
def metS (what : Nat) : State := withCmd (st teamW id) fun c =>
  { c with teams := [[(0, 0)]], phases := [(0, [{ arr with what := what }])] }

theorem witness_TeamBarriersAndReductions : Issuing teamS 902 0 (wv teamW id) f0 ∧ (wv teamW id).control = false ∧ (wv teamW id).intr = none ∧
    (wv teamW id).teams.getD 0 0 / 256 % 2 = 1 ∧ (wv teamW id).teams.getD 1 0 / 256 % 2 = 0 ∧ (wv teamW id).teams.getD 3 0 / 256 % 2 = 0 ∧
    f0.held = none ∧ 192 < 191 + 2 ∧ DstSReady (wv teamW id) (184, 8, false) ∧
    (∃ a ∈ phaseAt teamS 900 1 (nextPlace teamS 900 1 902), a.what ≠ tredCode 0 0 1) ∧ (∀ a ∈ phaseAt teamS 900 1 (nextPlace teamS 900 1 902), a.what = 0) ∧
    phaseAt teamS 900 0 (nextPlace teamS 900 0 902) = [] ∧ nextPlace (metS (tredCode 0 0 1)) 900 0 902 = 1 ∧
    Room teamS 902 cTR ∧ (∃ c, Tab.val? teamS.cmds (wv teamW id).cmd = some c) ∧ openPhases teamS 0 < 1024 ∧
    (~~~(wv teamW id).ended &&& ~~~f0.memb) = 0#32 ∧ (f0.stack = [] ∧ f0.rejoin = none ∧ f0.stepping = 0) ∧
    (beginWait teamS (.timeout 1) 6 0 0).due teamS.now = false ∧
    Issuing (st teamW (holds 6 1 0 0)) 902 0 (wv teamW (holds 6 1 0 0)) (holds 6 1 0 0 f0) ∧
    phaseMet (metS 0) 900 0 = true ∧ (∀ a ∈ phaseOf (metS 0) 900 0, a.what = 0) ∧ phaseMet (metS (tredCode 0 0 1)) 900 0 = true ∧ tredCode 0 0 1 ≠ 0 ∧
    (∀ a ∈ phaseOf (metS (tredCode 0 0 1)) 900 0, a.what = tredCode 0 0 1 ∧ a.full = true) ∧
    ((phaseOf (metS (tredCode 0 0 1)) 900 0).map (·.wid)).Nodup ∧ Tab.wf ((metS 0).cmdD 900).phases = true ∧
    (metS 0).wave? 902 = some (wv teamW id) ∧ Tab.wf (wv teamW id).sregs = true ∧ (1 ≤ 1 ∧ 1 ≤ 8 ∧ [(0, 0)].length ≤ 8192) := by
  have e : (wv teamW id).sEmpty = [] := by decide +kernel
  refine ⟨issuing_of teamW id rfl rfl, ?_, ?_, ?_, ?_, ?_, rfl, by decide,
    ⟨by decide, fun h => by simp at h, fullS_of e _ _⟩, ?_, ?_, ?_, ?_, by unfold Room; decide +kernel,
    ⟨((teamS.cmds.find? fun x => x.1 == 900).map (·.2)).getD {}, by decide +kernel⟩, ?_, ?_, ⟨rfl, rfl, rfl⟩,
    ?_, issuing_st _ _, ?_, ?_, ?_, ?_, ?_,
    ?_, ?_, (issuing_of (s := metS 0) teamW id rfl rfl).2.1, ?_, by decide⟩ <;> decide +kernel

/-- A phase that another wave waits at with the same identity, and one with another. -/
theorem witness_TeamOperations_phase :
    (∀ a ∈ phaseAt (withCmd (st teamW id) fun c => { c with phases := [(2048, [{ wid := 5, what := tredCode 0 0 1, full := true }])] }) 900 1 0,
      a.what = tredCode 0 0 1 ∧ a.wid ≠ 902 ∧ a.full = true) ∧
    phaseAt (withCmd (st teamW id) fun c => { c with phases := [(2048, [{ wid := 5, what := tredCode 0 0 1, full := true }])] }) 900 1 0 ≠ [] ∧
    (wv teamW id).ended ≠ 0xFFFFFFFF#32 ∧ (wv (fun w => { w with ended := 0xFFFFFFFF }) id).ended = 0xFFFFFFFF#32 :=
  ⟨by decide +kernel, by decide +kernel, by decide +kernel, by decide +kernel⟩

/-- s2:3 the address of a task queue of four records of eight words at 0x40000, whose counts have wrapped. -/
def tqBase (g : Frag → Frag) : State :=
  let s := (memS g).updGlade 0 fun x => { x with ctxs := [(0, { pages := [pageRW] })] }
  { s with mem := setMem (setMem (setMem s.mem 0x40000 4 (7 * 2 ^ 28 + 4)) 0x40004 4 0xFFFFFFFF) 0x40008 4 1 }
def tqOp (k : OpKind) (stage : Nat) : Op :=
  { kind := k, wid := 902, cls := some cTQ, stage := stage, size := 8, accs := [{ va := 0x20000, home := 0x40000 }] }

theorem witness_TaskQueues : Issuing (tqBase id) 902 0 (wv memW id) f0 ∧ f0.held = none ∧ SrcS64 (wv memW id) 2 ∧ SrcS (wv memW id) 0 ∧
    Translated (tqBase id) 902 (wv memW id) (opS64 (tqBase id) 902 (wv memW id) f0 2).toNat 64 aWrite 0x40000 ∧
    Room (tqBase id) 902 cTQ ∧ MeshRoom (tqBase id) 902 (wv memW id) ∧
    Issuing (tqBase (holds 8 1 0 0)) 902 0 (wv memW (holds 8 1 0 0)) (holds 8 1 0 0 f0) ∧ (holds 8 1 0 0 f0).held = some { kind := 8, stage := 1 } ∧
    (withAt (tqBase id) 0 (tqOp .tqpush 1)).op? 0 = some (tqOp .tqpush 1) ∧ FullS (wv memW id) 184 8 ∧
    geomOk (7 * 2 ^ 28 + 4) = true ∧ geomOk 3 = false ∧ heldCount (tqBase id) 0x40000 = 0 ∧
    heldCount (withAt (withAt (tqBase id) 950 (tqOp .tqpop 2)) 951 (tqOp .tqpop 2)) 0x40000 = 0 ∧
    heldCount (withAt (withAt (withAt (tqBase id) 950 (tqOp .tqpop 2)) 951 (tqOp .tqpop 2)) 952 (tqOp .tqpop 2)) 0x40000 ≠ 0 ∧
    (∀ k p, (k, p) ∈ (withAt (tqBase id) 950 (tqOp .tqpop 0)).ops → ¬ k < 950) ∧
    IsQueue (tqBase id) 0x40000 8 4 0xFFFFFFFF 1 ∧ 184 + 8 ≤ 192 ∧ areaOk (tqBase id) 0 0 (0x20000 + 64) (4 * 4 * 8) true = true ∧
    oldest (withAt (tqBase id) 950 (tqOp .tqpush 2)) 950 (tqOp .tqpush 2) = true ∧ QueueMapped (tqBase id) 0 0 0x20000 0x40000 8 4 ∧
    Memory.wf (tqBase id).mem = true ∧ (1 + 2 ^ 32 - 0xFFFFFFFF) % 2 ^ 32 < 4 ∧ 0xFFFFFFFF ≠ 1 ∧
    (tqBase id).wave? 902 = some (wv memW id) ∧ (wv memW id).intr = none ∧ Tab.wf (wv memW id).sregs = true := by
  have e : (wv memW id).sEmpty = [] := by decide +kernel
  have o : (tqBase id).ops = [] := by decide +kernel
  exact ⟨issuing_of memW id rfl rfl, rfl, srcS64_of e (by decide) (by decide), srcS_of e (by decide), translated_of pageRW (by decide +kernel),
    by simp [Room, outstanding, o], by unfold MeshRoom; decide +kernel, issuing_of memW _ rfl rfl, rfl, by decide +kernel, fullS_of e _ _,
    by decide +kernel, by decide +kernel, by decide +kernel, by decide +kernel, by decide +kernel,
    fun k p h => by simp [withAt, o, Tab.put] at h; omega,
    ⟨by decide, by decide, ⟨2, by decide⟩, by decide +kernel, by decide +kernel, by decide +kernel, by decide +kernel⟩, by decide,
    by decide +kernel, by decide +kernel, by unfold QueueMapped; decide +kernel, by decide +kernel, by decide, by decide,
    (issuing_of (s := tqBase id) memW id rfl rfl).2.1, by decide +kernel, by decide +kernel⟩

/-- Requests at their turn at the header's slice: the first of their core, the oldest of the queue, and a push behind another. -/
theorem witness_TaskQueues_turn :
    (∀ o ∈ [tqOp .tqinit 0, tqOp .tqpush 0, tqOp .tqpop 0], (withAt (tqBase id) 950 o).op? 950 = some o ∧ o.done = false ∧ o.wait = none ∧
      portOrder (withAt (tqBase id) 950 o) 950 o = true ∧ (syncTouch (withAt (tqBase id) 950 o) 0 0x40000).isSome = true) ∧
    (∀ o ∈ [tqOp .tqpush 2, tqOp .tqpop 2], oldest (withAt (tqBase id) 950 o) 950 o = true ∧ entryTurn (withAt (tqBase id) 950 o) 950 o = true ∧
      (syncTouch (withAt (tqBase id) 950 o) 0 0x40000).isSome = true) ∧
    olderPush (withAt (tqBase id) 950 (tqOp .tqpush 1)) 902 950 (tqOp .tqpush 1) = false ∧
    olderPush (withAt (withAt (tqBase id) 940 (tqOp .tqpush 1)) 950 (tqOp .tqpush 1)) 902 950 (tqOp .tqpush 1) = true ∧
    (215 : BitVec 8).toNat < 216 ∧ (191 : BitVec 8).toNat < 192 ∧ 216 ≤ (216 : BitVec 8).toNat ∧ (wv memW id).ended ≠ 0xFFFFFFFF#32 :=
  ⟨by decide +kernel, by decide +kernel, by decide +kernel, by decide +kernel, by decide, by decide, by decide, by decide +kernel⟩

/-- fmt 0: FP16 without scales or semirings; s8: no weights, s10: 32 of K, from slot 1; s12 slot 2, s14 slot 16; s16:17 a descriptor. -/
def mxW (w : Wave) : Wave := withS [(8, 1), (9, 0), (10, 1), (11, 32), (12, 2), (13, 0), (14, 16), (16, 0x20000)] { w with nacc := 16 }
/-- A slot of four blocks of eight columns, K = 32. -/
def mxSlot (state : Nat) : Slot := { st := state, desc := [0x10004020, 0, 0x20000, 0, 0, 0, 0, 0], gran := 1 }
def mxS : State :=
  let s := setSlot (setSlot (memS id) 901 (slotKey 0 1) (mxSlot 3)) 901 (slotKey 0 2) (mxSlot 2)
  let s := setSlot s 901 (slotKey 0 3) (mxSlot 4)
  { s with waves := (st mxW id).waves, mem := setMem (setMem s.mem 0x40000 4 0x10004020) 0x40008 4 0x20000 }

theorem witness_WeightSlots : Issuing mxS 902 0 (wv mxW id) f0 ∧ (wv mxW id).control = false ∧ DstS (wv mxW id) 191 ∧
    (f0.held = none ∧ SrcS64 (wv mxW id) 16 ∧
      Translated mxS 902 (wv mxW id) (opS64 mxS 902 (wv mxW id) f0 16).toNat 32 aRead 0x40000) ∧
    globalStoresOut mxS 902 mxS.nextId = false ∧ globalStoresOut (withAt mxS 950 stSys) 902 mxS.nextId = true ∧
    slotDescOk (readGlobal mxS 0 0 0 1 0 0 0x20000 0x40000 32).1 = true ∧ slotDescOk (readGlobal mxS 0 0 0 1 0 0 0x20020 0x40020 32).1 = false ∧
    ((slotAt mxS (wv mxW id) 0).st = 0 ∧ (coreSlots mxS 0).length < 96 ∧
      (slotDesc (readGlobal mxS 0 0 0 1 0 0 0x20000 0x40000 32).1).granules ≤ freeGranules mxS 0) ∧
    SrcS (wv mxW id) 8 ∧ NamesSlot mxS (wv mxW id) 1 [1, 2, 3] ∧ ¬ NamesSlot mxS (wv mxW id) 0 [1, 2, 3] ∧ ¬ NamesSlot mxS (wv mxW id) 16 [1, 2, 3] ∧
    (rangeHomes mxS 902 0 (wv mxW id) 0x20000 (slotDesc (ofWords (mxSlot 3).desc)).elemBytes aRead).toBool = true ∧
    rangeHomes mxS 902 0 (wv mxW id) 0 0 aRead = .ok [] ∧ Room mxS 902 cWL ∧ MeshRoom mxS 902 (wv mxW id) ∧
    (withAt mxS 950 { kind := .wload, wid := 902, blk := 901, slot := slotKey 0 2, cls := some cWL }).op? 950 =
      some { kind := .wload, wid := 902, blk := 901, slot := slotKey 0 2, cls := some cWL } ∧
    namesSlot (withAt mxS 950 { kind := .wload, wid := 902, blk := 901, slot := slotKey 0 2, cls := some cWL }) 901 (slotKey 0 2) .wload 950 = false ∧
    (∀ k p, (k, p) ∈ (withAt mxS 950 { kind := .wload }).ops → ¬ k < 950) ∧
    ((Tab.valD (mxS.blkD 901).slots (slotKey 0 3) {}).st = 4 ∧ namesSlot mxS 901 (slotKey 0 3) .mma mxS.nextId = false ∧
      namesSlot mxS 901 (slotKey 0 3) .wload mxS.nextId = false) := by
  have e : (wv mxW id).sEmpty = [] := by decide +kernel
  have o : mxS.ops = [] := by decide +kernel
  exact ⟨issuing_of mxW id rfl rfl, by decide +kernel, dstS_of e (by decide),
    ⟨rfl, srcS64_of e (by decide) (by decide), translated_of pageRW (by decide +kernel)⟩, by decide +kernel, by decide +kernel, by decide +kernel,
    by decide +kernel, by decide +kernel, srcS_of e (by decide), by unfold NamesSlot; decide +kernel, by unfold NamesSlot; decide +kernel,
    by unfold NamesSlot; decide +kernel, by decide +kernel, rfl, by simp [Room, outstanding, o], by unfold MeshRoom; decide +kernel,
    by decide +kernel, by decide +kernel, fun k p h => by simp [withAt, o, Tab.put] at h; omega, by decide +kernel⟩

/-- A wave in a save delivery; a `wdesc` that is held; a fill of a slot that no earlier operation names, unmarked or marked. -/
def wlOp : Op := { kind := .wload, wid := 902, blk := 901, slot := slotKey 0 2, cls := some cWL, args := [1], accs := [{ va := 0x20000, home := 0x40000, va2 := 128 }] }
theorem witness_WeightSlots_saves : Issuing (st intrW id) 902 0 (wv intrW id) f0 ∧ saveRefuses (wv intrW id) = true ∧ (wv intrW id).control = false ∧
    saveRefuses (wv mxW id) = false ∧
    Issuing (st mxW fun f => { f with held := some { a := 0x20000, b := 0x40000 } }) 902 0 (wv mxW fun f => { f with held := some { a := 0x20000, b := 0x40000 } })
      { f0 with held := some { a := 0x20000, b := 0x40000 } } ∧
    ((withAt mxS 950 wlOp).op? 950 = some wlOp ∧ namesSlot (withAt mxS 950 wlOp) 901 wlOp.slot .wload 950 = false ∧
      globalStoresOut (withAt mxS 950 wlOp) 902 950 = false ∧ wlOp.meetsMark (withAt mxS 950 wlOp) = false ∧
      wlOp.meetsMark { withAt mxS 950 wlOp with marked := [0x40000] } = true ∧ ∀ e ∈ (withAt mxS 950 wlOp).ops, ¬ e.1 < 950) :=
  ⟨issuing_st _ _, by decide +kernel, by decide +kernel, by decide +kernel, issuing_st _ _, by decide +kernel⟩

/-- A group of quarter operations, open, due or running. -/
def grp : MxGroup := { ops := [(950, 3)], opened := 0, len := 4 }
def mxRun : State := { mxS with now := 8 }
def mmaOp : Op := { kind := .mma, wid := 902, blk := 901, cls := some cMX, size := 15, slot := slotKey 0 1, aop := 32, stage := 8, args := [0x10004020, 0, 0], accs := [{ lane := 31 }] }

theorem witness_MatrixUnits : Issuing mxS 902 0 (wv mxW id) f0 ∧ (wv mxW id).control = false ∧ mmaRegs f0.fmt = 32 ∧
    (10 + 1 < 192 ∧ VecIn (wv mxW id) (vecNo f0 64) (mmaRegs f0.fmt) false ∧ FullV (wv mxW id) (vecNo f0 64) (mmaRegs f0.fmt) ∧
      FullS (wv mxW id) 10 2 ∧ (15 : BitVec 4).toNat < (wv mxW id).nacc) ∧ (wv (fun w => { w with nacc := 4 }) id).nacc ≤ (4 : BitVec 4).toNat ∧
    comboOk (fmtA f0.fmt) (fmtB f0.fmt) (fmtScale f0.fmt) (fmtSemi f0.fmt) = true ∧ comboOk (fmtA 0x50) (fmtB 0x50) 0 0 = false ∧
    ¬ NamesSlot mxS (wv mxW id) 16 [2, 3] ∧ NamesSlot mxS (wv mxW id) 1 [3] ∧ NamesSlot mxS (wv mxW id) 2 [2] ∧
    MmaLegal f0 (slotDesc (ofWords (slotAt mxS (wv mxW id) 1).desc)) 32 ∧ MmaLegal f0 (slotDesc (ofWords (slotAt mxS (wv mxW id) 2).desc)) 0 ∧
    (mxOf mxS 0 0).waiting + (quarters f0.active).length ≤ 8 ∧ Room mxS 902 cMX ∧ f0.active ≠ 0#32 ∧
    (mxOf (setMx mxRun 0 0 { opened := [grp] }) 0 0).opened = [grp] ∧ grp.opened + 8 ≤ coreClk mxRun 0 ∧
    ((mxOf (setMx mxRun 0 0 { due := [grp] }) 0 0).due = grp :: [] ∧ (mxOf (setMx mxRun 0 0 { due := [grp] }) 0 0).running = none) ∧
    ((mxOf (setMx mxRun 0 0 { running := some grp, passEnd := 8 }) 0 0).running = some grp ∧ 8 ≤ coreClk mxRun 0) ∧
    ((withAt (setMx mxRun 0 0 { writing := [((950, 3), 8)] }) 950 mmaOp).op? 950 = some mmaOp ∧
      (mxOf (withAt (setMx mxRun 0 0 { writing := [((950, 3), 8)] }) 950 mmaOp) 0 0).writing = [((950, 3), 8)] ∧
      tileReady (withAt mxRun 950 mmaOp) 950 mmaOp = true ∧ (mmaOp.accs.map (·.lane)).Nodup ∧ (∀ a ∈ mmaOp.accs, a.lane < 32) ∧
      mmaOp.stage = 2 ^ 3 ∧ (slotDesc 0x10004020).nblk ≤ 4) ∧
    mxRun.wave? 902 = some (wv mxW id) ∧ Unwatched mxRun (wv mxW id) ∧ Tab.wf (wv mxW id).tiles = true ∧
    (31 < 8 * (slotDesc 0x10004020).nblk ∧ 32 % 2 ^ 11 ≠ 0 ∧ fmtA 0x550 = 5 ∧ fmtSemi 0x550 = 0 ∧ fmtA 0xC660 = 6 ∧ fmtSemi 0xC660 = 3) := by
  have e : (wv mxW id).sEmpty = [] := by decide +kernel
  have v : (wv mxW id).vEmpty = [] := by decide +kernel
  have o : mxS.ops = [] := by decide +kernel
  refine ⟨issuing_of mxW id rfl rfl, ?_, ?_,
    ⟨by decide, ⟨fun h => by simp at h, by decide +kernel, by decide +kernel⟩, fullV_of v _ _, fullS_of e _ _, by decide +kernel⟩, ?_,
    ?_, ?_, by unfold NamesSlot; decide +kernel, by unfold NamesSlot; decide +kernel, by unfold NamesSlot; decide +kernel,
    by unfold MmaLegal; decide +kernel, by unfold MmaLegal; decide +kernel, ?_, by simp [Room, outstanding, o], ?_,
    ?_, ?_, ?_, ?_, ?_,
    (issuing_of (s := mxRun) mxW id rfl rfl).2.1, by unfold Unwatched; decide +kernel, ?_, ?_⟩ <;> decide +kernel

def accOp (k : OpKind) (dst : List Nat) : Op :=
  { kind := k, wid := 902, blk := 901, cls := some cMX, size := 15, scr := true, dst := dst, active := 0xFFFFFFFF, accs := [{ lane := 31, va := 61440 }] }

theorem witness_AccumulatorInstructions : Issuing mxS 902 0 (wv mxW id) f0 ∧ (wv mxW id).control = false ∧ (15 : BitVec 4).toNat < (wv mxW id).nacc ∧
    (wv (fun w => { w with nacc := 4 }) id).nacc ≤ (4 : BitVec 4).toNat ∧ Room mxS 902 cMX ∧ DstVReady (wv mxW id) f0 (64, 32, false) ∧
    VecIn (wv mxW id) (vecNo f0 64) 32 false ∧ FullV (wv mxW id) (vecNo f0 64) 32 ∧ SrcS (wv mxW id) 9 ∧
    ScratchOk mxS (wv mxW id) (opS mxS 902 (wv mxW id) f0 9).toNat 4096 128 ∧
    (∀ o ∈ [accOp .accrd (range 64 32), accOp .accwr [], accOp .accclr [], accOp .accst []], (withAt mxS 950 o).op? 950 = some o ∧
      o.done = false ∧ tileReady (withAt mxS 950 o) 950 o = true ∧ scrStoresOut (withAt mxS 950 o) 902 950 = false ∧
      (o.accs.map (·.lane)).Nodup ∧ (∀ a ∈ o.accs, a.lane < 32)) ∧
    mxS.wave? 902 = some (wv mxW id) ∧ (wv mxW id).intr = none ∧ Unwatched mxS (wv mxW id) ∧ Tab.wf (wv mxW id).tiles = true ∧
    Tab.wf (wv mxW id).vregs = true := by
  have e : (wv mxW id).sEmpty = [] := by decide +kernel
  have v : (wv mxW id).vEmpty = [] := by decide +kernel
  have sv : saveRefuses (wv mxW id) = false := by decide +kernel
  have o : mxS.ops = [] := by decide +kernel
  exact ⟨issuing_of mxW id rfl rfl, by decide +kernel, by decide +kernel, by decide +kernel, by simp [Room, outstanding, o],
    ⟨⟨fun h => by simp at h, by decide +kernel, by decide +kernel⟩, fullV_of v _ _, fun h => by simp [sv] at h⟩,
    ⟨fun h => by simp at h, by decide +kernel, by decide +kernel⟩, fullV_of v _ _, srcS_of e (by decide), by unfold ScratchOk; decide +kernel,
    by decide +kernel, (issuing_of (s := mxS) mxW id rfl rfl).2.1, by decide +kernel, by unfold Unwatched; decide +kernel, by decide +kernel,
    by decide +kernel⟩

/-- Namespace 7 in entry 0, owned and written by glade 0; entry 3 of the cache waits for its fill since time 0. s4 namespace 7, s5 too
large, s6:7 namespace 7 and no event, s10 an item of statistics, s11 an unknown item; v4 to v6 a lane's key, v7 to v9 a bad one. -/
def cnpW (w : Wave) : Wave := withV 31 [(8, 0x80000000)] (withS [(4, 7), (5, 0x10000), (6, 7), (7, 1), (10, 0x30007), (11, 0x60007)] w)
def cnpE : CnpEnt := { key := [7, 1, 0], st := 1 }
def cnpS : State :=
  let s := setReg (setReg (st cnpW id) .cnp (nsOff 0) 0x80000007) .cnp (nsOff 0 + 4) 0
  let s := setReg s (.gld 0) 0x2244 0xC0000007
  { s with canopy := [(3, cnpE)] }

theorem witness_CanopyInstructions : Issuing cnpS 902 0 (wv cnpW id) f0 ∧ (wv cnpW id).control = false ∧ SrcS (wv cnpW id) 4 ∧
    VSrc.Ready (wv cnpW id) f0 { fd := 93, cnt := 3 } ∧ DstVReady (wv cnpW id) f0 (93, 3, false) ∧
    (opS cnpS 902 (wv cnpW id) f0 4).toNat < 2 ^ 16 ∧ 2 ^ 16 ≤ (opS cnpS 902 (wv cnpW id) f0 5).toNat ∧
    (f0.active.getLsbD 31 = true ∧ vecVal (wv cnpW id) (vecNo f0 7) 3 31 / 2 ^ 63 % 2 ≠ 0 ∧
      ∀ k, k < 31 → ¬ (vecVal (wv cnpW id) (vecNo f0 7) 3 k / 2 ^ 47 % 2 ≠ 0 ∨ vecVal (wv cnpW id) (vecNo f0 7) 3 k / 2 ^ 63 % 2 ≠ 0 ∨
        vecVal (wv cnpW id) (vecNo f0 7) 3 k / 2 ^ 73 ≠ 0)) ∧
    (∀ k, k < 32 → ¬ (vecVal (wv cnpW id) (vecNo f0 10) 3 k / 2 ^ 47 % 2 ≠ 0 ∨ vecVal (wv cnpW id) (vecNo f0 10) 3 k / 2 ^ 63 % 2 ≠ 0 ∨
        vecVal (wv cnpW id) (vecNo f0 10) 3 k / 2 ^ 73 ≠ 0)) ∧
    Room cnpS 902 cTQ ∧ MeshRoom cnpS 902 (wv cnpW id) ∧ f0.active = 0xFFFFFFFF#32 ∧ (lane31 f0).active ≠ 0xFFFFFFFF#32 ∧
    VSrc.Ready (wv cnpW id) f0 { fd := 92, cnt := 4 } ∧ DstSReady (wv cnpW id) (126, 2, true) ∧ FullS (wv cnpW id) 190 2 ∧
    NsRight cnpS (wv cnpW id) ((wv cnpW id).sreg 6).toNat ∧ ¬ NsRight cnpS (wv cnpW id) ((wv cnpW id).sreg 8).toNat ∧ DstS64 (wv cnpW id) 190 ∧
    ((opS cnpS 902 (wv cnpW id) f0 10).toNat < 2 ^ 20 ∧ permitted cnpS (wv cnpW id).glade 7 = true ∧ nsFind cnpS 7 = some 0) ∧
    5 < (opS cnpS 902 (wv cnpW id) f0 11).toNat / 2 ^ 16 % 16 := by
  have e : (wv cnpW id).sEmpty = [] := by decide +kernel
  have v : (wv cnpW id).vEmpty = [] := by decide +kernel
  have sv : saveRefuses (wv cnpW id) = false := by decide +kernel
  have o : cnpS.ops = [] := by decide +kernel
  exact ⟨issuing_of cnpW id rfl rfl, by decide +kernel, srcS_of e (by decide), ready_vsrc v _ (by decide) (by decide +kernel) (by decide +kernel),
    ⟨⟨fun h => by simp at h, by decide +kernel, by decide +kernel⟩, fullV_of v _ _, fun h => by simp [sv] at h⟩, by decide +kernel,
    by decide +kernel, by decide +kernel, by decide +kernel, by simp [Room, outstanding, o], by unfold MeshRoom; decide +kernel, by decide +kernel, by decide +kernel,
    ready_vsrc v _ (by decide) (by decide +kernel) (by decide +kernel), ⟨by decide, fun _ => by decide, fullS_of e _ _⟩, fullS_of e _ _,
    by unfold NsRight; decide +kernel, by unfold NsRight; decide +kernel, dstS64_of e (by decide) (by decide), by decide +kernel, by decide +kernel⟩

theorem lookup_empty (k : List Word) : cnpLookup (st cnpW id) k = none := by
  have h : (st cnpW id).canopy = [] := by decide +kernel
  simp [cnpLookup, cnpEnt, h, Tab.valD, Tab.val?]

/-- A state in which the first way of a key's set holds it, VALID. -/
def cnpHit (k : List Word) : State := { cnpS with canopy := [(keySet cnpS k, { key := k, st := 2 })] }
theorem validAt_hit (k : List Word) : ValidAt (cnpHit k) k (keySet cnpS k) := by
  have hk : keySet (cnpHit k) k = keySet cnpS k := rfl
  have he : cnpEnt (cnpHit k) (keySet cnpS k) = { key := k, st := 2 } := by simp [cnpEnt, cnpHit, Tab.valD, Tab.val?]
  refine ⟨?_, by rw [he]⟩
  rw [cnpLookup, hk, show range (keySet cnpS k) 16 = keySet cnpS k :: range (keySet cnpS k + 1) 15 from rfl]
  simp [he]

def lookOp : Op := { kind := .lookup, wid := 902, cls := some cTQ, dst := range 90 3, active := 0x80000000, args := [7], accs := [{ lane := 31 }] }
def lookOther : Op := { lookOp with args := [9] }
def fillOp : Op := { kind := .fill, wid := 902, cls := some cTQ, args := [(fillHandle 3 0).toNat, (1#32).toNat, 5] }
def abortOp : Op := { kind := .abort, wid := 902, cls := some cTQ, args := [(fillHandle 3 0).toNat] }
def sweepOp (stage : Nat) : Op := { kind := .sweep, wid := 902, cls := some cTQ, args := [7, 1], stage := stage }
def frameOp : Op := { kind := .frame, wid := 902, cls := some cTQ, args := [7] }
def noteOp : Op := { kind := .notify, args := [0x20000] }
/-- Context 0 may write the page of the notify word. -/
def noteS : State := withAt (tqBase id) 950 noteOp

theorem handleOf_3 : handleOf (fillHandle 3 0) = (3, 0) := by rw [handleOf_fillHandle]; rfl
theorem handle_cnpS (s : State) (h : s.canopy = [(3, cnpE)]) : handleEnt s (fillHandle 3 0) = some 3 := by
  simp [handleEnt, handleOf_3, cnpEnt, h, cnpE, Tab.valD, Tab.val?]

theorem witness_CanopyServices : (∀ k, ValidAt (cnpHit k) k (keySet cnpS k)) ∧ (∀ k, cnpLookup (st cnpW id) k = none) ∧
    (∀ k, NoValid (st cnpW id) k) ∧ lkNoAlloc 0 = false ∧ lkNoAlloc (2 ^ 72) = true ∧ lkLevel (15 * 2 ^ 68) = 15 ∧
    (withAt cnpS 950 lookOp).op? 950 = some lookOp ∧ lookOp.accs.map (·.lane) = lanesOf lookOp.active ∧
    permitted (withAt cnpS 950 lookOther) 0 9 = false ∧ permitted (withAt cnpS 950 lookOp) 0 7 = true ∧ nsFind (withAt cnpS 950 lookOp) 7 = some 0 ∧
    lookOp.accs[0]? = some { lane := 31 } ∧ (∀ ks, cnpEarlier (withAt cnpS 950 lookOp) 950 lookOp ks = false) ∧
    cnpS.wave? 902 = some (wv cnpW id) ∧ (wv cnpW id).intr = none ∧ Unwatched cnpS (wv cnpW id) ∧ Tab.wf (wv cnpW id).vregs = true ∧
    handleEnt (withAt cnpS 950 fillOp) (fillHandle 3 0) = some 3 ∧ (cnpEnt (withAt cnpS 950 fillOp) 3).ns = 7 ∧
    writeRights cnpS 0 7 = true ∧ writeRights cnpS 1 7 = false ∧ Tab.wf cnpS.canopy = true ∧
    handleEnt (withAt (st cnpW id) 950 abortOp) (fillHandle 3 0) = none ∧
    madeFor (withAt (st cnpW id) 950 fillOp) (fillHandle 3 0) = none ∧
    (withAt cnpS 950 (sweepOp 0)).op? 950 = some (sweepOp 0) ∧ (withAt cnpS 950 (sweepOp 1)).op? 950 = some (sweepOp 1) ∧ cnpS.wind = none ∧
    Tab.wf cnpS.regs = true ∧ Tab.wf cnpS.lastSweep = true ∧ (withAt cnpS 950 frameOp).op? 950 = some frameOp ∧
    ((cnpEnt cnpS 3).st = 1 ∧ (cnpEnt cnpS 3).timer ≤ cnpS.now) ∧ noteS.op? 950 = some noteOp ∧
    writableHome noteS 0 0 0x20000 = some 0x40000 ∧ ctxState noteS 0 0 = 1 ∧ writableHome noteS 0 0 0x50000 = none := by
  have hc : (st cnpW id).canopy = [] := by decide +kernel
  exact ⟨validAt_hit, lookup_empty, fun k e h => by simp [ValidAt, lookup_empty] at h, by decide, by decide, by decide, by decide +kernel,
    by decide +kernel, by decide +kernel, by decide +kernel, by decide +kernel, rfl, fun ks => rfl,
    (issuing_of (s := cnpS) cnpW id rfl rfl).2.1, by decide +kernel, by unfold Unwatched; decide +kernel, by decide +kernel,
    handle_cnpS _ rfl, rfl, by decide +kernel, by decide +kernel, by decide +kernel,
    by simp [handleEnt, handleOf_3, cnpEnt, withAt, hc, Tab.valD, Tab.val?], by simp [madeFor, handleOf_3, withAt, hc, Tab.val?], by decide +kernel⟩

/-- A look-up at its first probe with room for its task, a fill and an abort behind no earlier operation on their entry, a held `scstat`,
a coarser probe, and a `scfill` in a save delivery. -/
theorem witness_CanopyServices_turn : allocWaits (withAt cnpS 950 lookOp) 0 7 { lane := 31 } = false ∧ lookOp.stage + 1 = lookOp.accs.length ∧
    (∀ k, cnpEarlier (withAt cnpS 950 fillOp) 950 fillOp k = false) ∧ (∀ k, cnpEarlier (withAt (st cnpW id) 950 abortOp) 950 abortOp k = false) ∧
    (wv cnpW id).ended ≠ 0xFFFFFFFF#32 ∧ nsFind (withAt cnpS 950 fillOp) 7 = some 0 ∧
    Issuing (st cnpW (holds 11 0 5 0)) 902 0 (wv cnpW (holds 11 0 5 0)) (holds 11 0 5 0 f0) ∧
    saveRefuses (wv intrW id) = true ∧ saveRefuses (wv cnpW id) = false ∧ lkLevel (14 * 2 ^ 68) + 1 ≤ 15 ∧ 15 < lkLevel (14 * 2 ^ 68) + 2 ∧
    (2 ^ 23 - 1 < 2 ^ 23 ∧ 511 < 512) :=
  have h : pushWaits (withAt cnpS 950 lookOp) 0 = false := by decide +kernel
  ⟨by rw [allocWaits, h, Bool.and_false], rfl, fun _ => rfl, fun _ => rfl, by decide +kernel, by decide +kernel, issuing_st _ _, by decide +kernel, by decide +kernel,
   by decide, by decide, by decide⟩

/-- s1 a barrier, s2 a ring with room, s3 a full ring; in lane 31, v2:3 a global address, v4 scratch 512, v5 offset 120 of a slot. -/
def cpW (w : Wave) : Wave := withV 31 [(2, 0x20000), (4, 512), (5, 120)] (withS [(1, 128), (2, 192), (3, 448)] w)
def cpS : State :=
  let s := scrPut { memS lane31 with waves := (st cpW lane31).waves } 901 0 128 16 (barWord 2 1 5 7)
  let s := scrPut s 901 0 192 64 (ringWord 0x102 2 2 1 0)
  scrPut s 901 0 448 64 (ringWord 0x102 3 3 0 0)
def cpOp (stage slot : Nat) (target : Option Nat) : Op :=
  { kind := .copy, wid := 902, blk := 901, cls := some cCP, size := 8, stage := stage, slot := slot, target := target,
    accs := [{ lane := 31, va := 0x20000, home := 0x40000, va2 := if stage = 0 then 512 else 0x20080, home2 := if stage = 0 then 0 else 0x40080 }] }
def cpAt (stage slot : Nat) (target : Option Nat) : State := withAt cpS 950 (cpOp stage slot target)
/-- What a copy leaves in scratch before its target. -/
def cpScr (stage slot : Nat) (target : Option Nat) : State :=
  (copyRead (cpAt stage slot target) (cpOp stage slot target) (cpOp stage slot target).accs).1.foldl
    (fun s a => scrPut s 901 0 a.va2 8 a.data) (cpAt stage slot target)

theorem witness_Copies : Issuing cpS 902 0 (wv cpW lane31) (lane31 f0) ∧ (wv cpW lane31).control = false ∧ (lane31 f0).active ≠ 0#32 ∧
    (lane31 f0).pin = none ∧ Room cpS 902 cCP ∧ MeshRoom cpS 902 (wv cpW lane31) ∧
    VSrc.Ready (wv cpW lane31) (lane31 f0) { fd := 2, cnt := 2, pair := true } ∧ VSrc.Ready (wv cpW lane31) (lane31 f0) { fd := 4, cnt := 1, pair := false } ∧
    SideOk cpS 902 (wv cpW lane31) (lane31 f0) true 16 aRead (copySide (wv cpW lane31) (lane31 f0) true 2) (fun _ => 0x40000) ∧
    SideOk cpS 902 (wv cpW lane31) (lane31 f0) true 16 aWrite (copySide (wv cpW lane31) (lane31 f0) true 2) (fun _ => 0x40000) ∧
    SideOk cpS 902 (wv cpW lane31) (lane31 f0) false 16 aWrite (copySide (wv cpW lane31) (lane31 f0) false 4) (fun _ => 0) ∧
    (1 : BitVec 8) ≠ 215#8 ∧ SrcS (wv cpW lane31) 1 ∧ ScratchOk cpS (wv cpW lane31) (opS cpS 902 (wv cpW lane31) (lane31 f0) 1).toNat 16 16 ∧
    partOf 128 = (wv cpW lane31).part ∧ IsBar cpS 901 (opS cpS 902 (wv cpW lane31) (lane31 f0) 1).toNat 2 1 5 7 ∧
    ScratchOk cpS (wv cpW lane31) (opS cpS 902 (wv cpW lane31) (lane31 f0) 2).toNat 64 64 ∧
    IsRing cpS 901 (opS cpS 902 (wv cpW lane31) (lane31 f0) 2).toNat 0x102 2 2 1 0 ∧
    IsRing cpS 901 (opS cpS 902 (wv cpW lane31) (lane31 f0) 3).toNat 0x102 3 3 0 0 ∧ (3 + 2 ^ 16 - 0) % 2 ^ 16 = 0x102 % 256 + 1 ∧
    (2 + 2 ^ 16 - 1) % 2 ^ 16 ≠ 0x102 % 256 + 1 ∧ 2 ^ (6 + 0x102 / 2 ^ 8 % 16) < copySide (wv cpW lane31) (lane31 f0) false 5 31 + 16 ∧
    copySide (wv cpW lane31) (lane31 f0) false 5 31 + 8 ≤ 2 ^ (6 + 0x102 / 2 ^ 8 % 16) ∧
    (∀ x ∈ [(0, 0, none), (0, 0, some 128), (0, 3, some 192), (1, 0, none), (2, 0, none)],
      (cpAt x.1 x.2.1 x.2.2).op? 950 = some (cpOp x.1 x.2.1 x.2.2) ∧ scrStoresOut (cpAt x.1 x.2.1 x.2.2) 902 950 = false ∧
      bwOver (cpAt x.1 x.2.1 x.2.2) 0 = false ∧ (cpOp x.1 x.2.1 x.2.2).reachable (cpAt x.1 x.2.1 x.2.2) = true) ∧
    IsBar (cpScr 0 0 (some 128)) 901 128 2 1 5 7 ∧ IsRing (cpScr 0 3 (some 192)) 901 192 0x102 2 2 1 0 ∧
    (∀ a ∈ (cpOp 2 0 none).accs, lineFind (cpAt 2 0 none) 0 0 0 a.va2 = none ∧ ∀ b ∈ (cpOp 2 0 none).accs, lineOf a.va2 ≠ lineOf b.va) := by
  have e : (wv cpW lane31).sEmpty = [] := by decide +kernel
  have v : (wv cpW lane31).vEmpty = [] := by decide +kernel
  have o : cpS.ops = [] := by decide +kernel
  exact ⟨issuing_of cpW lane31 rfl rfl, by decide +kernel, by decide +kernel, rfl, by simp [Room, outstanding, o],
    by unfold MeshRoom; decide +kernel, ready_vsrc v _ (by decide +kernel) (by decide +kernel) (by decide +kernel),
    ready_vsrc v _ (by decide +kernel) (by decide +kernel) (by decide +kernel),
    fun l h a => by obtain rfl := active_lane31 l h a; exact translated_of pageRW (by decide +kernel),
    fun l h a => by obtain rfl := active_lane31 l h a; exact translated_of pageRW (by decide +kernel),
    fun l h a => by obtain rfl := active_lane31 l h a; exact ⟨by unfold ScratchOk; decide +kernel, by decide +kernel, rfl⟩,
    by decide, srcS_of e (by decide), by unfold ScratchOk; decide +kernel, by decide +kernel, by unfold IsBar; decide +kernel,
    by unfold ScratchOk; decide +kernel, by unfold IsRing; decide +kernel, by unfold IsRing; decide +kernel, by decide, by decide,
    by decide +kernel, by decide +kernel, by decide +kernel, by unfold IsBar; decide +kernel, by unfold IsRing; decide +kernel, by decide +kernel⟩

/-- A NaN ray, and one that starts at the origin along x, to 1. -/
def goodRay : Nat := 0x3F800000 * 2 ^ 128 + 0x3F800000 * 2 ^ 224
def traceOp : Op := { kind := .trace, wid := 902, cls := some cTQ, dst := range 90 4, active := 0x80000000, args := [0x40], accs := [{ lane := 31, data := goodRay }] }

theorem witness_RayInstructions :
    Issuing cpS 902 0 (wv cpW lane31) (lane31 f0) ∧ (wv cpW lane31).control = false ∧ VSrc.Ready (wv cpW lane31) (lane31 f0) { fd := 88, cnt := 8 } ∧
    SrcS64 (wv cpW lane31) 190 ∧ DstVReady (wv cpW lane31) (lane31 f0) (92, 4, false) ∧ (lane31 f0).active ≠ 0#32 ∧ Room cpS 902 cTQ ∧
    MeshRoom cpS 902 (wv cpW lane31) ∧ SrcV (wv cpW lane31) (lane31 f0) 95 ∧ DstV (wv cpW lane31) (lane31 f0) 95 ∧
    (∃ k o, (k, o) ∈ (withAt cpS 950 traceOp).ops ∧ o.wid = 902 ∧ o.kind = .trace ∧ o.done = false) ∧
    (∀ k o, (k, o) ∈ cpS.ops → o.wid = 902 → o.kind = .trace → o.done = true) ∧ Unwatched cpS (wv cpW lane31) ∧
    badRay 0x7F800001 = true ∧ badRay goodRay = false ∧ (∀ i, i < 3 → rayInf goodRay (4 + i) = false) ∧ (0x40 % 128 ≠ 0) ∧
    (withAt cpS 950 traceOp).op? 950 = some traceOp ∧ traceOp.accs.map (·.lane) = lanesOf traceOp.active ∧
    (∀ j p, (j, p) ∈ (withAt cpS 950 traceOp).ops → ¬ j < 950) ∧ cpS.wave? 902 = some (wv cpW lane31) ∧ Tab.wf (wv cpW lane31).vregs = true := by
  have e : (wv cpW lane31).sEmpty = [] := by decide +kernel
  have v : (wv cpW lane31).vEmpty = [] := by decide +kernel
  have sv : saveRefuses (wv cpW lane31) = false := by decide +kernel
  have o : cpS.ops = [] := by decide +kernel
  exact ⟨issuing_of cpW lane31 rfl rfl, by decide +kernel, ready_vsrc v _ (by decide) (by decide +kernel) (by decide +kernel),
    srcS64_of e (by decide) (by decide),
    ⟨⟨fun h => by simp at h, by decide +kernel, by decide +kernel⟩, fullV_of v _ _, fun h => by simp [sv] at h⟩, by decide +kernel,
    by simp [Room, outstanding, o], by unfold MeshRoom; decide +kernel, srcV_of v (by decide +kernel), dstV_of v sv (by decide +kernel),
    ⟨950, traceOp, by simp [withAt, o, Tab.put], rfl, rfl, rfl⟩, fun k p h => by simp [o] at h, by unfold Unwatched; decide +kernel,
    by decide +kernel, by decide +kernel, by decide +kernel, by decide, by decide +kernel, by decide +kernel,
    fun k p h => by simp [withAt, o, Tab.put] at h; omega, (issuing_of (s := cpS) cpW lane31 rfl rfl).2.1, by decide +kernel⟩

/-- Copies behind no earlier overlapping access, unmarked or marked; the lines a copy reaches fit; no bandwidth share is in use. -/
theorem witness_Copies_turn :
    (∀ x ∈ [(0, 0, none), (0, 0, some 128), (0, 3, some 192), (1, 0, none), (2, 0, none)],
      earlierOverlap (cpAt x.1 x.2.1 x.2.2) 950 (cpOp x.1 x.2.1 x.2.2) = false ∧ entryTurn (cpAt x.1 x.2.1 x.2.2) 950 (cpOp x.1 x.2.1 x.2.2) = true ∧
      (cpOp x.1 x.2.1 x.2.2).meetsMark (cpAt x.1 x.2.1 x.2.2) = false) ∧
    (cpOp 0 0 none).meetsMark { cpAt 0 0 none with marked := [0x40000] } = true ∧
    LinesFit cpS (cpOp 0 0 none) ∧ bwOver (withAt cpS 950 traceOp) 0 = false ∧ (wv cpW lane31).ended ≠ 0xFFFFFFFF#32 ∧ 5 + 8 * 1 < 2 ^ 31 ∧
    (2 ^ 52 : Nat) ≤ 2 ^ 52 :=
  ⟨by decide +kernel, by decide +kernel, by unfold LinesFit; decide +kernel, by decide +kernel, by decide +kernel, by decide, by decide⟩

/-- The control core of glade 0 fetches `launch s8, s2`. -/
def csW (k : Wave → Wave) : Wave := (k ((placed 32 0x20020855 id).waveD 0)).setFrag 0 { f0 with memb := 1, emask := 1 }
def csS (k : Wave → Wave) : State := (placed 32 0x20020855 id).setWave 0 (csW k)
theorem issuing_cs {s : State} (k : Wave → Wave) (hc : s.cur = some (0, 0)) (hw : s.waves = (csS k).waves) :
    Issuing s 0 0 (csW k) { f0 with memb := 1, emask := 1 } :=
  ⟨hc, by simp [State.wave?, hw, csS, State.setWave, Tab.val?_put_self], by simp [csW, Wave.frag?, Wave.setFrag, Tab.val?_put_self]⟩

/-- A grid of one block of one wave, whose completion record goes to 0x20200. -/
def gridDesc (ndep : Nat) (dep : Word) : List Word :=
  [BitVec.ofNat 32 (0x10010100 + ndep * 2 ^ 20), 0x04000000, 0, 0, 0x00010001, 1, 0x1000, 0, 0x1000, 0, 0, 0, 0, 0, 0, 0, 0x20200, 0, 0, dep,
   0, 0, 0, 0, 0, 0, 0, 0, 0, 0, 0, 0]
/-- Descriptors of the context: at 0x20000 the grid's, at 0x20100 none. -/
def cmdS : State :=
  let s := (csS id).updGlade 0 fun x => { x with ctxs := [(0, { pages := [pageRW] })] }
  { s with mem := setMem s.mem 0x40000 128 (ofWords (gridDesc 0 0)), blocks := [], waves := Tab.del s.waves 902 }
def withNew (k : Cmd) : State := { cmdS with cmds := Tab.put cmdS.cmds 910 k }
def rdCmd (addr : Nat) : Cmd := { addr := BitVec.ofNat 64 addr, dst := 8, seq := 2 }
def depCmd (ndep : Nat) (dep : Word) : Cmd := { rdCmd 0x20000 with desc := gridDesc ndep dep, st := .waitDep }
def fetched (s : State) (k : Cmd) : List Word := match fetchCtx s k.glade 0 k.addr.toNat 128 with
  | .ok x => wordsOf 32 x
  | _ => []

theorem witness_CommandsStart : Issuing (csS id) 0 0 (csW id) { f0 with memb := 1, emask := 1 } ∧ (csW id).control = true ∧ SrcS64 (csW id) 190 ∧
    DstSReady (csW id) (191, 1, false) ∧ DstSReady (csW id) (190, 2, true) ∧ queueLength (csS id) 0 < 64 ∧ (wv id id).control = false ∧
    (∀ a ∈ [0x20000, 0x20001, 0x30000, 2 ^ 52], (withNew (rdCmd a)).cmd? 910 = some (rdCmd a) ∧ ccQuiet (withNew (rdCmd a)) 910 0 = true ∧
      cmdBlocks (withNew (rdCmd a)) 910 = []) ∧
    (rdCmd 0x20001).addr.toNat % 128 ≠ 0 ∧ ((rdCmd (2 ^ 52)).addr.toNat % 128 = 0 ∧ 2 ^ 52 < (rdCmd (2 ^ 52)).addr.toNat + 128) ∧
    (ctxState (withNew (rdCmd 0x30000)) 0 0 ≠ 0 ∧ walkPage (withNew (rdCmd 0x30000)) 0 0 0x30000 = none) ∧
    fetched (withNew (rdCmd 0x20000)) (rdCmd 0x20000) = gridDesc 0 0 ∧
    (let k := { rdCmd 0x20000 with desc := gridDesc 0 0 }
     k.deps = [] ∧ regFld (withNew k) .rpl 0 31 31 = 0) ∧
    ((depCmd 1 0x81000000).deps = [] ++ 0x8100000000000000#64 :: [] ∧
      witnessTrap (withNew (depCmd 1 0x81000000)) 0 0x8100000000000000#64 = some witnessForeign) ∧
    (depCmd 0 0).deps = [] ∧
    ((depCmd 0 0).readFail = false ∧ { depCmd 0 0 with isPass := true }.isPass = true) ∧
    (walkPage cmdS 0 0 0x50000 = none ∧ walkPage cmdS 0 0 0x20400 = some pageRW) := by
  have e : (csW id).sEmpty = [] := by decide +kernel
  exact ⟨issuing_cs id rfl rfl, by decide +kernel, srcS64_of e (by decide) (by decide), ⟨by decide, fun h => by simp at h, fullS_of e _ _⟩,
    ⟨by decide, fun _ => by decide, fullS_of e _ _⟩, by decide +kernel⟩

/-- The grid runs, its one block 920 not placed; and a block whose wave has ended. -/
def actCmd : Cmd := { depCmd 0 0 with st := .active }
def penB : Block := { cmd := 910, since := 0 }
def penS : State := { withNew actCmd with blocks := [(920, penB)], boot := { cores := [0] } }
def endB : Block := { cmd := 910, st := .running, waves := [930], cores := [0] }
def endS : State := { withNew actCmd with blocks := [(920, endB)], waves := Tab.put cmdS.waves 930 { cmd := 910, blk := 920, ended := 0xFFFFFFFF } }
def doneS : State := { withNew { actCmd with st := .ending, status := 255, detail := 255 } with blocks := [] }

theorem witness_BlocksOfAGrid : actCmd.isPass = false ∧ penB.stage = 0 ∧ penS.cmd? 910 = some actCmd ∧ penS.blk? 920 = some penB ∧
    penB.st = .pending ∧ plan penS 910 actCmd = some ([(920, penB)], [(920, [(0, 0)])]) ∧ firstServed penS 910 actCmd = true ∧
    barred penS 910 actCmd [(920, penB)] = false ∧ penB.starving = false ∧ penB.since + 64000 ≤ { penS with now := 64000 }.now ∧
    (endS.blk? 920 = some endB ∧ endB.terminated = false ∧ blockBusy endS 920 = false ∧ (∀ k ∈ endB.waves, (endS.waveD k).ended = 0xFFFFFFFF#32) ∧
      Tab.wf endS.waves = true ∧ endS.cmd? endB.cmd = some actCmd) ∧
    (doneS.cmd? 910 = some { actCmd with st := .ending, status := 255, detail := 255 } ∧ inReplay doneS 910 = false ∧ coveredLanded doneS 0 0 = true ∧
      Tab.wf doneS.cmds = true ∧ actCmd.desc ≠ [] ∧ actCmd.d 0x40 % 8 = 0 ∧ actCmd.d 0x40 < 2 ^ 52 ∧
      (∀ n, n < 16 → writableHome doneS 0 0 (actCmd.d 0x40 + n) = some (0x40200 + n)) ∧ Memory.wf doneS.mem = true) := by
  exact ⟨rfl, rfl, by decide +kernel, by decide +kernel, rfl, by decide +kernel, by decide +kernel, by decide +kernel, rfl, by decide,
    by decide +kernel, by decide +kernel⟩

/-- A grid at each of its checks, a team table that is missing, unaligned or absent, and one that fits no core. -/
def chkCmd (st : CmdSt) : Cmd := { rdCmd 0x20000 with desc := gridDesc 0 0, st := st }
def bigCmd : Cmd := { chkCmd .checked with desc := ((gridDesc 0 0).set 0 0x1001FF00).set 1 0x80000000 }
theorem witness_DescriptorChecks_states :
    (∀ st ∈ [CmdSt.queued, .checked], (withNew (chkCmd st)).cmd? 910 = some (chkCmd st) ∧ (chkCmd st).isPass = false ∧
      (chkCmd st).faultEnt = none ∧ cmdBlocks (withNew (chkCmd st)) 910 = []) ∧
    ccQuiet (withNew (chkCmd .reading)) 910 0 = true ∧
    ({ chkCmd .queued with readFail := true } : Cmd).readFail = true :=
  ⟨by decide +kernel, by decide +kernel, rfl⟩

/-- The block is placed and its waves have yet to start; it is saved; the last block of the grid ends. -/
def placedS : State := { penS with blocks := [(920, { penB with st := .placed })] }
theorem witness_BlocksOfAGrid_states : placedBlocks penS 910 = [] ∧ placedBlocks placedS 910 ≠ [] ∧ Tab.wf placedS.blocks = true ∧
    placedS.cmd? 910 = some actCmd ∧ ({ penB with st := .saved } : Block).st = .saved ∧ Tab.wf endS.blocks = true ∧
    (∀ x ∈ cmdBlocks endS 910, x.1 = 920 ∨ x.2.st = .done) ∧ (actCmd.st = .active ∧ actCmd.isPass = false) :=
  ⟨by decide +kernel, by decide +kernel, by decide +kernel, by decide +kernel, rfl, by decide +kernel, by decide +kernel, rfl, rfl⟩

/-- Words of a descriptor of 128, by number. -/
def words128 (l : List (Nat × Word)) : List Word := (List.range 128).map fun i => Tab.valD l i 0
/-- A pass of 16 by 16 pixels, one sample, one colour target of words at 0x24000, no depth; its queue at 0x20400. -/
def passDesc : List Word := words128 [(0, 0x10048000), (1, 0x00100010), (6, 0x20400), (8, 0x20200), (24, 0x1000), (26, 0x04000200), (32, 0x1000),
  (34, 0x04000200), (40, 0x21000), (42, 1), (43, 1), (44, 0x22000), (64, 0x24000), (66, 256)]
def passCmd (p : PassSt) : Cmd := { isPass := true, st := .active, desc := passDesc, pass := some p, seq := 1 }
/-- The placed block belongs to the pass. -/
def inPassS (k : Wave → Wave) (g : Frag → Frag) (p : PassSt) : State := withCmd (st k g) fun _ => passCmd p

def meshW (w : Wave) : Wave := { w with stage := 2 }
def resW (w : Wave) : Wave := { w with stage := 3, items := [(31, { tile := 0, words := [0, 1, 0, 0, 0, 0, 0, 0] })] }
def itm : Item := { tile := 0, words := [5, 1, 0, 0, 0, 0, 0, 0] }
/-- Tile 0 gives items, rasterises, or waits for a group. -/
def passP (n : Nat) : PassSt := { phase := 1, tiles := [(0, { st := n, grp := if n = 0 then 0 else 901, items := if n = 2 then [itm] else [] })] }

theorem witness_RenderPassUnits : Issuing (st meshW id) 902 0 (wv meshW id) f0 ∧ (wv meshW id).control = false ∧ (wv meshW id).stage = 2 ∧
    (wv meshW id).meshend = false ∧ (wv (fun w => { w with stage := 2, meshend := true }) id).meshend = true ∧ (wv id id).stage ≠ 2 ∧ (wv id id).stage ≠ 3 ∧
    Issuing (st meshW (holds 9 1 0 0)) 902 0 (wv meshW (holds 9 1 0 0)) (holds 9 1 0 0 f0) ∧
    Issuing (st meshW (holds 9 0 0 0)) 902 0 (wv meshW (holds 9 0 0 0)) (holds 9 0 0 0 f0) ∧ f0.held = none ∧ f0.active ≠ 0#32 ∧
    VSrc.Ready (wv meshW id) f0 { fd := 82, cnt := 14, tie := true } ∧
    (∀ n ∈ [0, 1, 2, 3], Resolving (inPassS resW id (passP n)) 902 0 (wv resW id) f0 (passCmd (passP n)) (passP n)) ∧
    DstVReady (wv resW id) f0 (88, 8, false) ∧ Tab.wf (wv resW id).vregs = true ∧ Tab.wf (wv resW id).items = true ∧
    (oldestTile (passP 0) 901 = none ∧ roundOver (passP 0) = false) ∧ (oldestTile (passP 3) 901 = none ∧ roundOver (passP 3) = true) ∧
    oldestTile (passP 1) 901 = some (0, { st := 1, grp := 901 }) ∧ oldestTile (passP 2) 901 = some (0, { st := 2, grp := 901, items := [itm] }) ∧
    itm.words.length = 8 ∧ (0#3).toNat < (passCmd (passP 2)).ncolor ∧ (passCmd (passP 2)).ncolor ≤ (1#3).toNat ∧
    VSrc.Ready (wv resW id) f0 { fd := 95, cnt := (passCmd (passP 2)).colourBytes 0 / 4, tie := true } ∧
    (∀ l x, Tab.val? (wv resW id).items l = some x → (Tab.val? (passP 2).tiles x.tile).isSome = true) := by
  have v : (wv meshW id).vEmpty = [] := by decide +kernel
  have v3 : (wv resW id).vEmpty = [] := by decide +kernel
  have sv : saveRefuses (wv resW id) = false := by decide +kernel
  refine ⟨issuing_st _ _, by decide +kernel, by decide +kernel, by decide +kernel, by decide +kernel, by decide +kernel, by decide +kernel,
    issuing_st _ _, issuing_st _ _, rfl, by decide +kernel, ready_vsrc v _ (by decide) (by decide +kernel) (by decide +kernel), ?_,
    ⟨⟨fun h => by simp at h, by decide +kernel, by decide +kernel⟩, fullV_of v3 _ _, fun h => by simp [sv] at h⟩, by decide +kernel, by decide +kernel,
    by decide +kernel, by decide +kernel, by decide +kernel, by decide +kernel, rfl, by decide +kernel, by decide +kernel,
    ready_vsrc v3 _ (by decide) (by decide +kernel) (by decide +kernel), ?_⟩
  · intro n hn
    simp only [List.mem_cons, List.not_mem_nil, or_false] at hn
    obtain rfl | rfl | rfl | rfl := hn <;>
      exact ⟨⟨issuing_of resW id rfl rfl, by decide +kernel, by unfold Unwatched; decide +kernel⟩, by decide +kernel, by decide +kernel, rfl⟩
  · intro l x h
    have hi : (wv resW id).items = [(31, { tile := 0, words := [0, 1, 0, 0, 0, 0, 0, 0] })] := by decide +kernel
    simp only [hi, Tab.val?] at h
    split at h <;> simp_all
    subst h; decide

/-- Two triangles on the sides of the edge from (0, 0) to (4, 4), and the sample at (2, 2). -/
def triA : List Word := [0, 0, 0, 0x3F800000, 0x40800000, 0x40800000, 0, 0x3F800000, 0, 0x40800000, 0, 0x3F800000, 0, 0]
def triB : List Word := [0x40800000, 0x40800000, 0, 0x3F800000, 0, 0, 0, 0x3F800000, 0x40800000, 0, 0, 0x3F800000, 0, 0]

theorem witness_SharedEdges : vertex triB 0 = vertex triA 1 ∧ vertex triB 1 = vertex triA 0 ∧ 0 < triArea triA * triArea triB ∧
    edgeAt triA 2 (triVal triA 1 0 / 2) (triVal triA 1 0 / 2) = 0 ∧ edgeAt triB 2 (triVal triA 1 0 / 2) (triVal triA 1 0 / 2) = 0 ∧
    (∀ i, i < 2 → 0 < edgeAt triA i (triVal triA 1 0 / 2) (triVal triA 1 0 / 2) * triArea triA ∧
      0 < edgeAt triB i (triVal triA 1 0 / 2) (triVal triA 1 0 / 2) * triArea triB) := by decide +kernel

/-- The arena is laid out: tile 0 has its first chunk. -/
def laidP : PassSt := { laid := true, chunks := [(0, 0x21080)] }
/-- The pass of command 910 in context 0 of glade 0, whose task queue at 0x40400 holds one record; core 0 is free. -/
def binS (p : PassSt) : State :=
  let s := { withNew { passCmd p with dst := 8 } with boot := { cores := [0] } }
  { s with mem := setMem (setMem s.mem 0x40400 4 (7 * 2 ^ 28 + 4)) 0x40408 4 1 }
def rdPass (p : PassSt) : Cmd := { passCmd p with st := .reading, pass := none, desc := [], addr := 0x20800#64 }
def rdPassS : State := { withNew (rdPass {}) with mem := setMem cmdS.mem 0x40800 512 (ofWords passDesc) }
def fetched512 (s : State) (k : Cmd) : List Word := match fetchCtx s k.glade 0 k.addr.toNat 512 with
  | .ok x => wordsOf 128 x
  | _ => []
/-- A triangle waits for the binner. -/
def primOp (ws : List Word) : Op := { kind := .prim, wid := 930, blk := 920, accs := [{ data := ofWords ws }] }
def primS (ws : List Word) : State :=
  withAt { binS laidP with blocks := [(920, { cmd := 910, stage := 2, st := .running, cores := [0], waves := [930] })] } 950 (primOp ws)
/-- Triangle A moved onto one pixel's side, and one without an area. -/
def triFlat : List Word := [0, 0, 0, 0x3F800000, 0x40800000, 0x40800000, 0, 0x3F800000, 0, 0, 0, 0x3F800000, 0, 0]

theorem inPass_of {s : State} {cmd n : Nat} {k : Cmd} {p : PassSt}
    (h : s.cmd? cmd = some k ∧ k.pass = some p ∧ k.st = .active ∧ p.phase = n ∧ k.faultEnt = none ∧ ctxRuns s k.glade k.ctx = true) :
    InPass s cmd n k p := ⟨h.1, h.2.1, h.2.2.1, h.2.2.2.1, h.2.2.2.2.1, h.2.2.2.2.2⟩

/-- The access that a unit needs is granted. -/
def granted (s : State) (cmd : Nat) (k : Cmd) (kind : Nat) (r : Nat × Nat) : Bool := match unitAccess s cmd k kind r.1 r.2 with
  | .ok => true
  | _ => false
theorem pagesOk_of {s : State} {cmd : Nat} {k : Cmd} {kind : Nat} {l : List (Nat × Nat)} (h : l.all (granted s cmd k kind) = true) :
    PagesOk s cmd k kind l := by
  intro r hr
  have h := List.all_eq_true.mp h r hr
  unfold granted at h
  split at h <;> simp_all

theorem witness_BinPhase : rdPassS.cmd? 910 = some (rdPass {}) ∧ (rdPass {}).isPass = true ∧ (rdPass {}).st = .reading ∧ ccQuiet rdPassS 910 0 = true ∧
    cmdBlocks rdPassS 910 = [] ∧ (rdPass {}).addr.toNat % 256 = 0 ∧ ({ rdPass {} with addr := 0x20880#64 } : Cmd).addr.toNat % 256 ≠ 0 ∧
    fetched512 rdPassS (rdPass {}) = passDesc ∧ ({ rdPass {} with desc := passDesc, st := .waitDep } : Cmd).deps = [] ∧
    InPass (binS laidP) 910 0 { passCmd laidP with dst := 8 } laidP ∧
    PagesOk (binS laidP) 910 { passCmd laidP with dst := 8 } aRead [(0x20400, 64), (recordVa (readQueue (binS laidP) 0x40400) 0x20400 0, 32)] ∧
    readableHome (binS laidP) 0 0 ((passCmd laidP).d 0x18) = some 0x40400 ∧ (readQueue (binS laidP) 0x40400).ok = true ∧ meshRecords (binS laidP) 0x40400 ≠ 0 ∧
    (getRecord (binS laidP) 0 0 (recordVa (readQueue (binS laidP) 0x40400) 0x20400 0) 8).isSome = true ∧
    placeAll (fun b => (passCmd laidP).shape b.stage) [(0, { cmd := 910, stage := 2, record := List.replicate 8 0 })]
      (openCores (binS laidP) { passCmd laidP with dst := 8 } 910) = some [(0, [(0, 0)])] ∧
    waitingBlocks (binS laidP) 910 = [] ∧ firstServed (binS laidP) 910 { passCmd laidP with dst := 8 } = true ∧
    barred (binS laidP) 910 { passCmd laidP with dst := 8 } [] = false ∧ Memory.wf (binS laidP).mem = true ∧
    (readQueue { binS laidP with mem := setByte (binS laidP).mem 0x40404 1 } 0x40400).head % 2 ^ 32 =
      (readQueue { binS laidP with mem := setByte (binS laidP).mem 0x40404 1 } 0x40400).tail % 2 ^ 32 ∧
    (cmdBlocks (binS laidP) 910 = [] ∧ queued (binS laidP) 0x40400 .tqpush = [] ∧ Tab.wf (binS laidP).ops = true ∧ (binS laidP).ops = []) ∧
    (∀ ws ∈ [triA, triFlat], (primS ws).op? 950 = some (primOp ws) ∧ ((primS ws).blkD 920).cmd = 910 ∧ Tab.wf (primS ws).ops = true) ∧
    InPass (primS triA) 910 0 { passCmd laidP with dst := 8 } laidP ∧ triArea triFlat = 0 ∧ (passCmd laidP).binTiles triA = some [0] ∧
    64 + 64 ≤ (passCmd laidP).w 0xA8 * 4096 - 64 * ((passCmd laidP).tileCount + 2) ∧
    (passCmd laidP).w 0xA8 * 4096 - 64 * ((passCmd laidP).tileCount + 2) < (PassSt.used { used := 4096 }) + 64 ∧
    PagesOk (primS triA) 910 { passCmd laidP with dst := 8 } aWrite [(0x21000, 128), (0x210C0, 64), (0x21080, 64)] ∧ laidP.laid = true ∧ laidP.flushing = false ∧ laidP.first = none ∧
    (0x21000 ≤ Tab.valD laidP.chunks 0 0 ∧ Tab.valD laidP.chunks 0 0 + 64 ≤ 0x21000 + 64 * 3) := by
  refine ⟨?_, by decide, by decide, ?_,
    ?_, ?_, ?_, ?_, ?_, inPass_of (by decide +kernel),
    pagesOk_of (by decide +kernel), ?_, ?_, ?_, ?_, ?_, ?_,
    ?_, ?_, ?_, ?_, ?_, ?_, inPass_of (by decide +kernel),
    ?_, ?_, ?_, ?_, pagesOk_of (by decide +kernel), rfl, rfl, rfl, by decide⟩ <;> decide +kernel

/-- A round of DRAW, its group the block 920: tile 0 in each of its states. -/
def drawP (n : Nat) (flush : Bool) : PassSt :=
  { phase := 1, flushing := flush, tiles := [(0, { st := n, grp := if n = 0 then 0 else 920 })] }
def drawK (n : Nat) (flush : Bool) : Cmd := { passCmd (drawP n flush) with dst := 8 }
def grpB : Block := { cmd := 910, stage := 3, st := .running, cores := [0], waves := [930] }
def tileOp : Op := { kind := .tile, slot := 910, stage := 0 }
def drawS (n : Nat) (flush : Bool) : State := withAt { binS (drawP n flush) with blocks := [(920, grpB)] } 950 tileOp
/-- The pass is over: phase 2, its groups done. -/
def overK : Cmd := { passCmd { phase := 2 } with dst := 8 }
def overS : State := withNew overK

theorem witness_DrawPhase : InPass (drawS 0 false) 910 1 (drawK 0 false) (drawP 0 false) ∧ (drawS 0 false).blk? 920 = some grpB ∧
    (drawP 0 false).tiles.find? (fun e => e.2.st == 0) = some (0, {}) ∧ groupTiles (drawP 0 false) 920 = [] ∧
    PagesOk (drawS 0 false) 910 (drawK 0 false) aRead (fillSpans (drawK 0 false) (drawP 0 false) 0) ∧
    InPass (drawS 1 false) 910 1 (drawK 1 false) (drawP 1 false) ∧ Tab.val? (drawP 1 false).tiles 0 = some { st := 1, grp := 920 } ∧
    InPass (drawS 2 false) 910 1 (drawK 2 false) (drawP 2 false) ∧ InPass (drawS 2 true) 910 1 (drawK 2 true) (drawP 2 true) ∧
    Tab.val? (drawP 2 true).tiles 0 = some { st := 2, grp := 920 } ∧ tileHeld (drawS 2 true) 910 0 = false ∧
    (drawS 3 false).cmd? 910 = some (drawK 3 false) ∧ Tab.val? (drawP 3 false).tiles 0 = some { st := 3, grp := 920 } ∧
    (drawS 3 false).ops.find? (fun e => e.2.kind == .tile && e.2.slot == 910 && e.2.stage == 0) = some (950, tileOp) ∧
    PagesOk (drawS 3 false) 910 (drawK 3 false) aWrite (releaseSpans (drawK 3 false) 0) ∧ Memory.wf (drawS 3 false).mem = true ∧
    Tab.wf (drawS 3 false).ops = true ∧ ((drawK 3 false).ncolor = 1 ∧ (drawK 3 false).b 0 12 12 = 0 ∧
      (drawK 3 false).width * (drawK 3 false).samples * (drawK 3 false).colourBytes 0 ≤ (drawK 3 false).w 0x108) ∧
    InPass { drawS 4 true with blocks := [] } 910 1 (drawK 4 true) (drawP 4 true) ∧ (∀ e ∈ (drawP 4 true).tiles, e.2.st = 4) ∧
    (overS.cmd? 910 = some overK ∧ overK.isPass = true ∧ overK.st = .active ∧ cmdBlocks overS 910 = [] ∧ overS.ops = [] ∧
      Tab.wf overS.cmds = true ∧ coveredLanded overS 0 0 = true ∧ overK.d 0x20 % 32 = 0 ∧ overK.d 0x20 < 2 ^ 52 ∧
      (∀ n, n < 32 → writableHome overS 0 0 (overK.d 0x20 + n) = some (0x40200 + n))) := by
  exact ⟨inPass_of (by decide +kernel), by decide +kernel, by decide +kernel, by decide +kernel, pagesOk_of (by decide +kernel),
    inPass_of (by decide +kernel), by decide +kernel, inPass_of (by decide +kernel), inPass_of (by decide +kernel), by decide +kernel, by decide +kernel,
    by decide +kernel, by decide +kernel, by decide +kernel, pagesOk_of (by decide +kernel), by decide +kernel, by decide +kernel, by decide +kernel,
    inPass_of (by decide +kernel), by decide +kernel, by decide +kernel⟩

/-- The pass before its arena is laid out, and at each of its checks. -/
def chkPass (st : CmdSt) : Cmd := { rdPass {} with desc := passDesc, st := st }
theorem witness_BinPhase_states : InPass (binS {}) 910 0 { passCmd {} with dst := 8 } {} ∧ (PassSt.laid {} = false ∧ PassSt.flushing {} = false) ∧
    PagesOk (binS {}) 910 { passCmd {} with dst := 8 } aWrite [(0x21000, 64 * ((passCmd {}).tileCount + 2))] ∧ (passCmd {}).haltMark = false ∧
    (∀ st ∈ [CmdSt.queued, .checked], (withNew (chkPass st)).cmd? 910 = some (chkPass st) ∧ cmdBlocks (withNew (chkPass st)) 910 = []) ∧
    (walkPage (withNew (chkPass .waitDep)) 0 0 0x20400 = some pageRW ∧
      areaOk (binS laidP) 0 0 (0x20400 + 64) ((readQueue (binS laidP) 0x40400).cap * 4 * (readQueue (binS laidP) 0x40400).rw) false = true) := by
  exact ⟨inPass_of (by decide +kernel), ⟨rfl, rfl⟩, pagesOk_of (by decide +kernel), rfl, by decide +kernel⟩

/-- In DRAW with no group yet the dispatcher places a resolve group on core 0. -/
def noGrpS : State := binS (drawP 0 false)
theorem witness_BlockPlacement_group : plan noGrpS 910 (drawK 0 false) = some ([], [(0, [(0, 0)])]) ∧ firstServed noGrpS 910 (drawK 0 false) = true ∧
    barred noGrpS 910 (drawK 0 false) [] = false ∧ placedBlocks noGrpS 910 = [] := by
  exact ⟨by decide +kernel, by decide +kernel, by decide +kernel, by decide +kernel⟩

/-- A spill log that has no room for any record, and one that has once it is compacted, where the record is of at most 4,032 bytes. -/
theorem witness_DrawPhase_spill : 4096 < logBytes [(1, 4097)] + Config.spillSize [] ∧ (passCmd (drawP 2 true)).w 0xAC * 4096 = 4096 ∧
    4096 < logBytes (compact [(1, 4097)] ++ [(0, Config.spillSize [])]) ∧
    4096 < logBytes [(1, 4097), (1, 64)] + Config.spillSize [] ∧
    (Config.spillSize [] ≤ 4032 → logBytes (compact [(1, 4097), (1, 64)] ++ [(0, Config.spillSize [])]) ≤ 4096) ∧
    (Config.spillSize [] ≤ 4096 → logBytes [] + Config.spillSize [] ≤ 4096) := by
  refine ⟨by simp [logBytes]; omega, by decide +kernel, by simp [logBytes, compact]; omega, by simp [logBytes]; omega, fun h => ?_, fun h => ?_⟩
  · simp [logBytes, compact]; omega
  · simp [logBytes]; omega

/-- The group runs; a tile's target may not be written; no dirty line lies over it; and the pass ended early. -/
def permK : Cmd := { drawK 3 false with desc := passDesc.set 64 0x30000 }
def permS : State := (withAt (withNew permK) 950 tileOp).updGlade 0 fun x => { x with ctxs := [(0, { pages := [pageRW, pageRO] })] }
def denied (s : State) (cmd : Nat) (k : Cmd) (kind : Nat) (r : Nat × Nat) : Bool := match unitAccess s cmd k kind r.1 r.2 with
  | .perm => true
  | _ => false
theorem witness_DrawPhase_landing : ((drawS 1 false).blkD 920).st = .running ∧ (drawP 2 false).tiles = [(0, { st := 2, grp := 920 })] ∧
    PagesOk (drawS 1 false) 910 (drawK 1 false) aRead ((listParts (drawP 1 false) 0).map fun e => (e.1, e.2.len)) ∧
    PagesOk (drawS 2 true) 910 (drawK 2 true) aWrite [(0x22000, 4096)] ∧
    ((landSpans permK (drawP 3 false) 0).head?.any fun r => denied permS 910 permK aWrite r) = true ∧
    (permS.cmd? 910 = some permK ∧ permK.st ≠ .ending ∧ permS.ops.find? (fun e => e.2.kind == .tile && e.2.slot == 910 && e.2.stage == 0) = some (950, tileOp)) ∧
    ((drawS 3 false).coreSt 0).l1 = [] ∧ landSpans (drawK 3 false) (drawP 3 false) 0 = releaseSpans (drawK 3 false) 0 ∧
    ((landSpans (drawK 3 false) (drawP 3 false) 0).all fun r => (List.range r.2).all fun i =>
      writableHome (drawS 3 false) 0 0 (r.1 + i) == some (r.1 + i + 0x20000)) = true ∧
    ({ overK with st := .ending, pass := none } : Cmd).pass.getD {} = {} := by
  exact ⟨by decide +kernel, rfl, pagesOk_of (by decide +kernel), pagesOk_of (by decide +kernel), by decide +kernel, by decide +kernel, by decide +kernel, by decide +kernel, by decide +kernel, rfl⟩

/-- A halted fragment, one that runs and one that is parked. -/
def haltF : Frag := { memb := 1, emask := 1, pc := 0x2000, halt := some { origin := 1, pred := 2 } }
def runF : Frag := { memb := 0xFFFFFFFE, emask := 0xFFFFFFFE, pc := 0x2000 }
/-- A target of context 5: lane 0 halted, or all lanes running, or lane 0 parked, or ended. -/
def target (f : Frag) (other : List (Nat × Entry)) (ended : Word) : Wave :=
  { cmd := 910, blk := 920, ctx := 5, core := 1, nvreg := 256, ents := (0, .frag f) :: other, ended := ended, sEmpty := [190], vEmpty := [254] }
/-- The debug wave selects wave 0 of block 3 of the grid with sequence number 4; s8 to s13 hold a predicate for all waves, s14 to s19
one of every core, s1 a word 1, s2 a word 2, s3 lane 0 with DELIVER, s4 a lane outside, s20 to s25 a reserved SRC. -/
def dbgW (w : Wave) : Wave := withS [(1, 1), (2, 2), (3, 256), (4, 512), (15, 0x40000000), (21, 0x30000000), (26, 0x4000), (27, 0x4001)]
  { w with dselLo := 0x300, dselHi := 4 }
/-- Glade 0 has debug context 0, which watches context 5. -/
def dbgS (v : Wave) : State :=
  let s := setReg (st dbgW id) .wch 0 0x80000500
  { s with waves := Tab.put s.waves 930 v, cmds := Tab.put s.cmds 910 { seq := 4, st := .active },
           blocks := Tab.put s.blocks 920 { cmd := 910, lin := 3, st := .running, cores := [1], waves := [930] } }
theorem issuing_dbg (v : Wave) : Issuing (dbgS v) 902 0 (wv dbgW id) f0 := by
  obtain ⟨h1, h2, h3⟩ := issuing_st dbgW id
  exact ⟨rfl, by rw [State.wave?, show (dbgS v).waves = Tab.put (st dbgW id).waves 930 v from rfl, Tab.val?_put_ne _ _ (by decide)]; exact h2, h3⟩
theorem debugging_dbg (v : Wave) : Debugging (dbgS v) 902 0 (wv dbgW id) f0 := 
  ⟨issuing_dbg v, (show isDebugWave (dbgS v) (wv dbgW id) = isDebugWave (dbgS {}) (wv dbgW id) from rfl).trans (by decide +kernel), rfl⟩

def haltV : Wave := target haltF [] 0xFFFFFFFE
def spreadOp : Op := { kind := .spread, wid := 902, eid := 0, args := [3, 2 ^ 62, 0, 0, 0] }

theorem witness_DebugPredicates : Issuing (st id id) 902 0 (wv id id) f0 ∧ isDebugWave (st id id) (wv id id) = false ∧
    Debugging (dbgS haltV) 902 0 (wv dbgW id) f0 ∧ SSrc.Ready (wv dbgW id) { fd := 8, cnt := 6, pair := true } ∧
    (PredLegal 15 (predAt (wv dbgW id) 8).ctl.toNat ∧ (predAt (wv dbgW id) 8).ctl.getLsbD 62 = false) ∧
    (PredLegal 15 (predAt (wv dbgW id) 14).ctl.toNat ∧ (predAt (wv dbgW id) 14).ctl.getLsbD 62 = true) ∧
    ¬ PredLegal 0 (predAt (wv dbgW id) 20).ctl.toNat ∧ ¬ PredLegal 15 (2 ^ 50) ∧ PredLegal 14 (2 ^ 50 + 191 * 2 ^ 38) ∧
    (withAt (dbgS haltV) 950 spreadOp).ops.find? (fun e => e.2.kind == .spread && e.2.wid == 902 && e.2.eid == 0) = some (950, spreadOp) ∧
    spreadOp.args = [3, ({ ctl := 0x4000000000000000#64 } : Pred).ctl.toNat, 0, 0, 0] ∧ Tab.wf (withAt (dbgS haltV) 950 spreadOp).ops = true ∧
    DstSReady (wv dbgW id) (186, 6, true) ∧ SrcS (wv dbgW id) 2 ∧ DstSReady (wv dbgW id) (188, 4, true) ∧
    (haltedWaves (dbgS haltV) 0).length = 1 ∧ (haltedWaves (dbgS haltV) 0)[0]? = some haltV ∧ haltV.frags = [(0, haltF)] ∧ haltV.intr = none ∧ haltF.memb ≠ 0 := by
  have e : (wv dbgW id).sEmpty = [] := by decide +kernel
  exact ⟨issuing_st _ _, by decide +kernel, debugging_dbg _, .inl ⟨by decide, by decide, fun _ => by decide, fullS_of e _ _⟩,
    by unfold PredLegal; decide +kernel, by unfold PredLegal; decide +kernel, by unfold PredLegal; decide +kernel, by unfold PredLegal; decide,
    by unfold PredLegal; decide, by decide +kernel, by decide, by decide +kernel, ⟨by decide, fun _ => by decide, fullS_of e _ _⟩,
    srcS_of e (by decide), ⟨by decide, fun _ => by decide, fullS_of e _ _⟩, by decide +kernel, by decide +kernel, by decide +kernel, rfl, by decide⟩

/-- A wave in a delivery of STEP that is done, and one that is due; context 5 has a handler. -/
def stepV : Wave := { haltV with stepDue := some 0 }
def stepS : State := setReg (setCtxState (dbgS stepV) 0 5 1) (.gld 0) (ctxOff 5 + 8) 0x3000
def deliverV (n : Nat) : Wave := { haltV with intr := some { cause := 0x19, hdone := n } }

/-- The table entries of core 1 are all reserved. -/
def fullPool : State := { dbgS haltV with waves := Tab.put (dbgS haltV).waves 931 { core := 1, rsv := 2047 } }

theorem witness_DebugHaltsAndSteps :
    (Debugging (dbgS haltV) 902 0 (wv dbgW id) f0 ∧ SrcS (wv dbgW id) 1 ∧ Tab.wf (dbgS haltV).waves = true ∧
    dbgWave (dbgS haltV) (wv id id) = none ∧ dbgWave (dbgS haltV) (wv dbgW id) = some (930, haltV) ∧
    (opS (dbgS haltV) 902 (wv dbgW id) f0 1).toNat = 1 ∧ (opS (dbgS haltV) 902 (wv dbgW id) f0 0).toNat = 0 ∧
    1 < (opS (dbgS haltV) 902 (wv dbgW id) f0 2).toNat ∧ (wv dbgW id).cmd ≠ haltV.cmd ∧ haltV.core ≠ (wv dbgW id).core ∧
    { haltV with core := 0 }.core = (wv dbgW id).core ∧ dbgNotify (dbgS haltV) 0 = 0 ∧ haltV.anyHalted = true ∧
    (target runF [] 1).anyHalted = false ∧
    (dbgS { haltV with haltReq := some {} }).wave? 930 = some { haltV with haltReq := some {} } ∧
    (∃ u, (dbgS { haltV with haltReq := some {} }).wave? 930 = some u ∧ u.haltReq ≠ none)) ∧
    (Debugging (dbgS haltV) 902 0 (wv dbgW id) f0 ∧ SrcS (wv dbgW id) 3 ∧
    (opS (dbgS haltV) 902 (wv dbgW id) f0 3).toNat = 256 ∧ 2 ^ 9 ≤ (opS (dbgS haltV) 902 (wv dbgW id) f0 4).toNat ∧
    dbgWave (dbgS haltV) (wv dbgW id) = some (930, haltV) ∧ haltV.ended.getLsbD 0 = false ∧ haltV.ended.getLsbD 31 = true ∧
    haltV.frags.find? (fun y => y.2.memb.getLsbD 0) = some (0, haltF) ∧ haltV.frag? 0 = some haltF ∧ haltF.parked = none ∧ haltF.halt ≠ none ∧
    haltF.memb = 1#32 <<< 0 ∧ ({ haltF with memb := 3 } : Frag).memb ≠ 1#32 <<< 0 ∧ 930 ≠ 902 ∧ ({ haltF with parked := some 1 } : Frag).parked ≠ none ∧
    freeEntries fullPool { haltV with ents := [(0, .frag { haltF with memb := 3 })] } = 0 ∧
    stepS.wave? 930 = some stepV ∧ stepV.stepDue = some 0 ∧ stepV.intr = none ∧ ctxHandler stepS stepV.glade stepV.ctx ≠ 0 ∧
    (stepS.blkD stepV.blk).st = .running ∧ ctxRuns stepS stepV.glade stepV.ctx = true ∧
    (dbgS (deliverV 3)).wave? 930 = some (deliverV 3) ∧ (deliverV 3).intr = some { cause := 0x19, hdone := 3 }) := by
  constructor
  · have e : (wv dbgW id).sEmpty = [] := by decide +kernel
    refine ⟨debugging_dbg _, srcS_of e (by decide), ?_, ?_, ?_, ?_, ?_,
      ?_, ?_, ?_, ?_, ?_, by decide, by decide, ?_,
      ⟨{ haltV with haltReq := some {} }, by decide +kernel, by decide⟩⟩ <;> decide +kernel
  · have e : (wv dbgW id).sEmpty = [] := by decide +kernel
    exact ⟨debugging_dbg _, srcS_of e (by decide), by decide +kernel, by decide +kernel, by decide +kernel, by decide, by decide, by decide +kernel,
      by decide +kernel, rfl, by decide, by decide, by decide, by decide, by decide, by decide +kernel, by decide +kernel, rfl, rfl, by decide +kernel,
      by decide +kernel, by decide +kernel, by decide +kernel, rfl⟩

theorem witness_DebugReadsAndWrites : Debugging (dbgS haltV) 902 0 (wv dbgW id) f0 ∧ SrcS (wv dbgW id) 26 ∧ DstS (wv dbgW id) 191 ∧
    dbgWave (dbgS haltV) (wv id id) = none ∧ dbgWave (dbgS haltV) (wv dbgW id) = some (930, haltV) ∧
    dbgWave (dbgS (target runF [] 1)) (wv dbgW id) = some (930, target runF [] 1) ∧ (target runF [] 1).anyHalted = false ∧
    (target runF [] 1).stopped = false ∧ haltV.anyHalted = true ∧ haltV.stopped = true ∧ haltV.nvreg ≤ 256 ∧ 255 < haltV.nvreg ∧ 254 ∈ haltV.vEmpty ∧
    255 ∉ haltV.vEmpty ∧ 190 ∈ haltV.sEmpty ∧ 191 ∉ haltV.sEmpty ∧
    (let x := (opS (dbgS haltV) 902 (wv dbgW id) f0 26).toNat
     x < 2 ^ 16 ∧ x / 2 ^ 13 % 2 = 0 ∧ x / 2 ^ 14 % 4 = 1 ∧ x % 2 ^ 8 = 0) ∧
    haltV.ended.getLsbD 0 = false ∧ laneFrag haltV 0 = some (0, haltF) ∧ haltV.ended.getLsbD 31 = true ∧ haltF.stack = [] ∧ haltF.rejoin = none ∧
    (2 : Word) ≠ haltF.pc.extractLsb' 0 32 ∧ (1 : Word).getLsbD 0 = true ∧ LegalFmt 0 ∧ ¬ LegalFmt 8 ∧ haltF.halt ≠ none ∧ runF.halt = none := by
  have e : (wv dbgW id).sEmpty = [] := by decide +kernel
  exact ⟨debugging_dbg _, srcS_of e (by decide), dstS_of e (by decide), by decide +kernel, by decide +kernel, by decide +kernel, by decide, by decide,
    by decide, by decide, by decide, by decide, by decide, by decide, by decide, by decide, by decide +kernel, by decide, by decide +kernel, by decide,
    rfl, rfl, by decide, by decide, by unfold LegalFmt; decide, by unfold LegalFmt; decide, by decide, rfl⟩

/-- Samples of glade 0 go to a ring of 16 entries in its page, and one wave of core 0 can be sampled. -/
def smpS (tail : Word) : State :=
  let s := setReg (tqBase id) .smp 0 0x00020840
  setReg s .smp 12 tail
/-- A replay session of command 910, whose blocks are done: the first of two passes, or the last. -/
def endCmd' : Cmd := { actCmd with st := .ending }
def rplS (n : Nat) : State := { setReg cmdS .rpl 0 0x80200000 with
  cmds := Tab.put cmdS.cmds 910 endCmd', replaySes := [(0, { cmd := 910, pass := n })] }

theorem witness_MonitorEvents : gladeOf (smpS 0) 0 = some 0 ∧ regFld (smpS 0) .smp 0 11 11 = 1 ∧ ((smpS 0).coreSt 0).sampleAt.getD 0 0 ≤ coreClk (smpS 0) 0 ∧
    ((smpS 0).coreSt 0).sampleAt.length = 4 ∧ nextSample (smpS 0) 0 1 = none ∧ nextSample (smpS 0) 0 0 = some (wv memW id) ∧
    sampled (wv memW id) = some f0 ∧ (reg (smpS 16) .smp 12 - reg (smpS 16) .smp 8).toNat = 2 ^ regFld (smpS 16) .smp 0 8 4 ∧
    (reg (smpS 0) .smp 12 - reg (smpS 0) .smp 8).toNat ≠ 2 ^ regFld (smpS 0) .smp 0 8 4 ∧ Tab.wf (smpS 0).regs = true ∧
    writableHome (smpS 0) 0 (ringCtx (smpS 0) 0) (reg64 (smpS 0) .smp 0 / 2 ^ 12 % 2 ^ 40 * 2 ^ 12) = some 0x40000 ∧
    (Tab.val? (rplS 1).replaySes 0 = some { cmd := 910, pass := 1 } ∧ (rplS 1).cmd? 910 = some endCmd' ∧ cmdBlocks (rplS 1) 910 = [] ∧
      endCmd'.st = .ending ∧ endCmd'.status = 0 ∧ endCmd'.firstTerm = none ∧ ¬ regFld (rplS 1) .rpl 0 23 20 < 1 ∧ regFld (rplS 2) .rpl 0 23 20 < 3 ∧ Tab.wf (rplS 1).regs = true) ∧
    (regFld State.reset .drp (16 * 12) 7 0 ≤ 255 ∧ Tab.valD State.reset.droop 12 0 = 0 ∧ regFld State.reset .drp (16 * 12) 31 31 = 0 ∧
      Tab.wf State.reset.regs = true ∧ Tab.wf State.reset.temps = true) ∧
    (12 < 13 ∧ 255 < 256 ∧ regFld (setReg State.reset .hmn 0 0xA0000000) .hmn 0 29 27 = 4 ∧ (1 ≤ 8 ∧ 2 ^ (8 - 1) ≤ 255 ∧ 255 < 2 ^ 8)) ∧
    { State.reset with hostUp := true }.hostUp = true := by
  refine ⟨?_, ?_, ?_, ?_, ?_, ?_, ?_,
    ?_, ?_, ?_, ?_, ?_, ?_, ?_, rfl⟩ <;> decide +kernel

/-- A target of the debug wave's own core: every fragment can be halted at once, or one has a `vdec` out, or a halt is on its way. -/
def nearV : Wave := { target runF [] 1 with core := 0 }
def dhaltF (f : Frag) : Frag := { f with held := some { a := 0, b := 930 } }
def dhaltS (v : Wave) : State := (dbgS v).setWave 902 (wv dbgW dhaltF)
theorem issuing_dhalt (v : Wave) : Issuing (dhaltS v) 902 0 (wv dbgW dhaltF) (dhaltF f0) :=
  ⟨rfl, by simp [dhaltS, State.wave?, State.setWave, Tab.val?_put_self], frag_wv dbgW dhaltF⟩
theorem witness_DebugHalts_near : Debugging (dbgS nearV) 902 0 (wv dbgW id) f0 ∧
    ((dbgS nearV).wave? 930 = some nearV ∧ nearV.core = (wv dbgW id).core ∧ vdecOut (dbgS nearV) 930 = false ∧ ∀ g ∈ nearV.allFrags, g.haltDue = []) ∧
    vdecOut (withAt (dbgS nearV) 950 { kind := .vdec, wid := 930 }) 930 = true ∧
    (isDebugWave (dhaltS nearV) (wv dbgW dhaltF) = true ∧ (dhaltF f0).held = some { a := 0, b := 930 }) ∧
    (∀ e ∈ (dhaltS nearV).waves, e.2.haltReq = none ∧ ∀ g ∈ e.2.allFrags, g.haltDue = []) ∧
    ((dhaltS { nearV with haltReq := some {} }).wave? 930 = some { nearV with haltReq := some {} }) ∧ 930 ≠ 902 ∧ nearV.anyHalted = false := by
  have h : isDebugWave (dhaltS nearV) (wv dbgW dhaltF) = true := by decide +kernel
  exact ⟨debugging_dbg _, ⟨by decide +kernel, by decide, by decide +kernel, by decide +kernel⟩, by decide +kernel, ⟨h, rfl⟩, by decide +kernel,
    by decide +kernel, by decide, by decide⟩

/-- A `dstep` whose fragment has a unit under way, and one whose fragment has done it; a ms in which nothing has been read yet. -/
def stepF (n : Nat) (f : Frag) : Frag := { f with held := some { a := 930, b := n } }
theorem witness_DebugSteps_held : (dhaltS { haltV with ents := [(0, .frag { haltF with stepping := 1 })] }).frag? 930 0 = some { haltF with stepping := 1 } ∧
    (dhaltS haltV).frag? 930 0 = some haltF ∧ haltF.stepping = 0 ∧ Tab.val? State.reset.msAt 0 ≠ some (State.reset.now / 1000000) ∧
    Tab.val? State.reset.msAt 44 ≠ some (State.reset.now / 1000000) ∧ Tab.wf (rplS 1).replaySes = true ∧
    (0 < 12 ∧ (13 ≤ 24 ∧ 24 < 25) ∧ regFld (setReg State.reset .pyl (0x100 + 8 * 11) 1) .pyl (0x100 + 8 * 11) 0 0 = 1) ∧
    (Tab.valD ({ State.reset with droop := [(12, 3)] } : State).droop 12 0 = 3 ∧ 0 < 3 - 3 + 10000) ∧
    Tab.valD ({ State.reset with droop := [(12, 1)] } : State).droop 12 0 = 1 ∧ ((csW id).control = true ∧ isDebugWave (csS id) (csW id) = false) :=
  ⟨by decide +kernel, by decide +kernel, rfl, by decide, by decide, by decide, by decide +kernel, by decide, by decide⟩

/-- Virtual function 0 is bound to glade 0, which owns frames 4 and 5. -/
def reqS : State := { setReg cmdS .rlk 0x400 0x80000000 with
  frames := [(4, { valid := true, glade := 0, sharers := 1 }), (5, { valid := true, glade := 0, sharers := 1 })] }
theorem vfReq_of {s : State} (h : vfGlade s 0 = some 0 ∧ s.changes = []) : VfReq s 0 0 := ⟨h.1, fun c hc => by simp [h.2] at hc⟩
/-- The least record of a context. -/
def ctxRec : List Word := [0, 0, 0, 0, 0, 0, 0x01010001, 0, 0, 0, 64, 0, 0, 0, 0, 0]
def mapReq (target : Nat) : PageReq := { kind := 0, target := target, size := 0, rwx := 3 }
def chg : XlChange := { vf := 0, glade := 0, ctx := 0, old := pageRW }
def clo : XlChange := { vf := 0, glade := 0, ctx := 5, closing := true }
/-- Context 5 of glade 0 drains, with the record of a cause. -/
def drainS (n : Nat) : State := { (setCtxState reqS 0 5 n).updCtx 0 5 fun x => { x with drainFrom := some 0, drainRec := [0x1D] } with now := 4000 }

theorem witness_ContextsAndTranslation : VfReq reqS 0 0 ∧ pageSize 0 = some 65536 ∧
    (63 ≤ 63 ∧ 0x30000 % 65536 = 0 ∧ (mapReq 0x50000).target % 2 ^ 56 % 65536 = 0 ∧ 0x30000 + 65536 ≤ 2 ^ 52) ∧ 0x30001 % 65536 ≠ 0 ∧
    2 ^ 52 < 2 ^ 52 - 65535 + 65536 ∧ pageOwned reqS 0 0 0x50000 65536 = true ∧ pageOwned reqS 0 0 0x60000 65536 = false ∧
    (∃ p ∈ (reqS.ctxSt 0 0).pages, p.va < 0x20000 + 65536 ∧ 0x20000 < p.va + p.len) ∧
    (¬ ∃ p ∈ (reqS.ctxSt 0 0).pages, p.va < 0x30000 + 65536 ∧ 0x30000 < p.va + p.len) ∧
    (reqS.ctxSt 0 0).pages = [] ++ pageRW :: [] ∧ pageSize 0 = some pageRW.len ∧ pageSize 1 ≠ some pageRW.len ∧
    ({ reqS with changes := [chg] }).changes.find? (fun c => c.vf == 0 && !c.closing) = some chg ∧ pageUsed reqS 0 0 pageRW = false ∧
    (ctxState reqS 0 0 ≠ 0 ∧ ctxState reqS 0 63 = 0 ∧ tearing reqS 0 = false ∧ tearing { reqS with clear := { cur := some 0 } } 0 = true ∧ recordBad [] = true ∧ recordBad ctxRec = false ∧ Tab.wf reqS.regs = true) ∧
    (({ reqS with changes := [clo] }).changes.find? (fun c => c.vf == 0 && c.closing) = some clo ∧ reqS.clear.queue = [] ∧
      (reqS.ctxSt 0 5).drainFrom = none ∧ ctxCmds reqS 0 5 = [] ∧ reqS.ops = [] ∧ (reqS.ctxSt 0 5).pages = []) ∧
    (((drainS 3).updCtx 0 5 fun x => { x with drainRec := [] }).ctxSt 0 5).drainRec = [] ∧ ((drainS 3).ctxSt 0 5).drainRec ≠ [] ∧
    (((drainS 3).ctxSt 0 5).drainFrom = some 0 ∧ ctxState (drainS 3) 0 5 = 3 ∧ ctxState (drainS 1) 0 5 ≠ 3 ∧ 0 + 4000 ≤ (drainS 1).now ∧
      Tab.wf (drainS 1).regs = true) ∧
    (ctxRuns reqS 0 0 = true ∧ (reqS.ctxSt 0 0).winAt ≤ coreClk reqS (256 + 0) ∧ (reqS.ctxSt 0 0).residentAll = true ∧ (reqS.ctxSt 0 0).retiredInWindow = false) ∧
    (vfGlade reqS 0 = some 0 ∧ (0 : Nat) < 128 ∧ clo.ctx < 64) ∧
    ((({ reqS with changes := [chg] }).ctxSt 0 0).pages.find? (fun p => p.va == chg.old.va) = some pageRW ∧ chg.new = none ∧ pageRW.merging = none ∧
      pageRW.shared = false ∧ ({ pageRW with shared := true } : Page).shared = true ∧ Tab.wf reqS.frames = true) ∧
    (let o : Op := { kind := .load, done := false, accs := [{ va := 0x20010, home := 0x40010 }] }
      ∃ a ∈ o.accs, o.scr = false ∧ pageRW.home ≤ a.home ∧ a.home < pageRW.home + pageRW.len ∧ pageRW.va ≤ a.va ∧ a.va < pageRW.va + pageRW.len) ∧
    ((mappedPage 0x30000 65536 (mapReq 0x50000)).w = true ∧ (mappedPage 0x30000 65536 { mapReq 0x50000 with rwx := 1 }).w = false ∧ 3 ≤ 3) ∧
    (({ reqS with now := 1000 }).gladeSt 0).bwWin ≠ ({ reqS with now := 1000 }).now / 1000 := by
  exact ⟨vfReq_of (by decide +kernel), rfl, by decide, by decide, by decide, by decide +kernel, by decide +kernel,
    ⟨pageRW, by decide +kernel, by decide, by decide⟩,
    fun ⟨p, hp, h⟩ => by
      rw [show (reqS.ctxSt 0 0).pages = [pageRW] by decide +kernel] at hp
      obtain rfl := List.mem_singleton.mp hp; exact absurd h (by decide),
    by decide +kernel, rfl, by decide, by decide +kernel⟩

/-- The fault queue holds a translation fault and a copy-on-write fault. -/
def cowP : Page := { pageRW with cow := true }
def ent1 : FaultEnt := { id := 1, ctx := 0, va := 0x50000 }
def ent2 : FaultEnt := { id := 2, ctx := 0, va := 0x20000, cow := true }
def ent3 : FaultEnt := { id := 3, ctx := 0, va := 0x20000 }
def fltS (p : Page) : State :=
  (reqS.updGlade 0 fun g => { g with faultq := [ent1, ent2, ent3] }).updCtx 0 0 fun x => { x with pages := [p] }
def trOp : Op := { kind := .trace, target := some 3 }
/-- A command waits on fault queue entry 3 while it runs. -/
def xcS (k : Cmd) : State := { fltS pageRW with cmds := Tab.put (fltS pageRW).cmds 910 k }
def xcCmd : Cmd := { actCmd with faultEnt := some 3 }
/-- A wave and the control core of glade 0 that wait on fault queue entry 1. -/
def wtS (p : Wave → Wave) : State := { fltS cowP with waves := Tab.put (fltS cowP).waves 930 (p { cmd := 910, blk := 920, replay := [1] }) }
/-- Two pages of equal contents in contexts 0 and 1, where merging is enabled. -/
def ddP (m : Bool) : Page := { pageRW with merging := if m then some (1, 0x30000) else none }
def ddQ (m : Bool) : Page := { pageRW with va := 0x30000, home := 0x50000, merging := if m then some (0, 0x20000) else none }
def ddS (m : Bool) : State :=
  let s := setReg ({ reqS with mem := if m then [(0x40000, 1)] else [] }) .ddp 0 1
  s.updGlade 0 fun g => { g with ctxs := [(0, { pages := [ddP m] }), (1, { pages := [ddQ m] })] }
/-- The frame of `cowP` is mapped a second time, by context 1. -/
def cowS : State := (fltS cowP).updCtx 0 1 fun x => { x with pages := [{ cowP with va := 0x30000 }] }

theorem witness_FaultAnswers : VfReq (fltS cowP) 0 0 ∧ findEntry (fltS cowP) 0 2 false = none ∧ findEntry (fltS cowP) 0 1 false = some ent1 ∧
    (0x07 ≠ 0x08 ∧ 0x07 ≠ 0x0A) ∧
    ((fltS cowP).gladeSt 0).faultq.find? (fun e => e.cow && e.ctx == 0 && e.va / 65536 == 2) = some ent2 ∧
    findPage ((fltS cowP).ctxSt 0 0).pages (65536 * 2) = some cowP ∧ cowP.merging = none ∧ mappings (fltS cowP) 0 (cowP.home / 65536) ≤ 1 ∧ (ddP true).merging ≠ none ∧
    findPage ((fltS pageRW).ctxSt 0 0).pages (65536 * 2) = some pageRW ∧ pageRW.cow = false ∧
    (1 < mappings cowS 0 (cowP.home / 65536) ∧ freeFrame cowS 0 = some 5 ∧ 5 ≠ cowP.home / 65536 ∧ cowP.home % 65536 = 0 ∧
      Memory.wf cowS.mem = true) ∧
    findPage ((fltS { pageRW with va := 0x90000 }).ctxSt 0 0).pages (65536 * 2) = none ∧
    ((withAt (fltS pageRW) 950 trOp).op? 950 = some trOp ∧ ((fltS pageRW).gladeSt 0).faultq.find? (fun e => e.id == 3) = some ent3 ∧
      ent3.cow = false ∧ (walkPage (fltS pageRW) 0 0 ent3.va).isSome = true) ∧
    ((csS fun w => { w with haltCc := true }).wave? 0 = some (csW fun w => { w with haltCc := true }) ∧
      (csW fun w => { w with haltCc := true }).haltCc = true ∧ (csW id).haltCc = false) ∧
    (findPage ((ddS false).ctxSt 0 0).pages 0x20000 = some (ddP false) ∧ findPage ((ddS false).ctxSt 0 1).pages 0x30000 = some (ddQ false) ∧
      regFld (ddS false) .ddp 0 0 0 = 1 ∧ regFld (ddS false) (.gld 0) 0 28 28 = 0 ∧ pageRW.w = true ∧ pageRW.home ≠ (ddQ false).home ∧
      pageUsed (ddS false) 0 0 (ddP false) = false ∧ pageUsed (ddS false) 0 1 (ddQ false) = false ∧
      sameFrames (ddS false).mem pageRW.home (ddQ false).home = true ∧ sameFrames (ddS true).mem 0x40000 0x50000 = false ∧
      findPage ((ddS true).ctxSt 0 0).pages 0x20000 = some (ddP true) ∧ findPage ((ddS true).ctxSt 0 1).pages 0x30000 = some (ddQ true) ∧
      Tab.wf (ddS true).frames = true ∧ Tab.wf (ddS true).regs = true ∧
      pageRW.home / 65536 ≠ (ddQ true).home / 65536) ∧
    ((xcS xcCmd).op? 910 = none ∧ (xcS xcCmd).cmd? 910 = some xcCmd ∧ xcCmd.st = .active ∧
      ((xcS xcCmd).gladeSt 0).faultq.find? (fun e => e.id == 3) = some ent3 ∧ (walkPage (xcS xcCmd) 0 0 ent3.va).isSome = true) ∧
    (∀ l ∈ ((fltS cowP).coreSt 0).l1, l.glade = 0 → l.dirty = 0) ∧ (∀ e ∈ (fltS cowP).cores, e.2.l1 = []) ∧
    ((wtS id).wave? 930 = some { cmd := 910, blk := 920, replay := [1] } ∧ saveRefuses { cmd := 910, blk := 920, replay := [1] } = false ∧
      ctxRuns (wtS id) 0 0 = true) := by
  exact ⟨vfReq_of (by decide +kernel), by decide +kernel, by decide +kernel, by decide, by decide +kernel, by decide +kernel, rfl, by decide +kernel, by decide,
    by decide +kernel, rfl, by decide +kernel, by decide +kernel, by decide +kernel, ⟨(issuing_cs _ rfl rfl).2.1, rfl, by decide +kernel⟩, by decide +kernel⟩

/-- The grid of endS runs on core 0 with its wave live, quiesces, saves and is saved. -/
def liveW : Wave := { cmd := 910, blk := 920, widx := 0, ents := [(0, .frag f0)] }
def blkS (b : Block) (w : Wave) (x : Nat) : State :=
  let s := { withNew actCmd with blocks := [(920, b)], waves := Tab.put cmdS.waves 930 w, now := 4000 }
  let s := setReg (setReg s .rlk 0x400 0x80000000) (.gld 0) (ctxOff 0 + 0x18) 0x01010001
  setReg (setReg s (.gld 0) (ctxOff 0 + 0x08) (BitVec.ofNat 32 x)) (.gld 0) (ctxOff 0 + 0x10) 0x20000
def sdB : Block := { endB with st := .saved, cores := [], waves := [], image := some { waves := [(930, liveW)] } }
def preReq (seq count : Nat) (discard : Bool) : PreemptReq := { seq := seq, mode := 0, count := count, mask := [], discard := discard }
def canOp (b : Bool) : Op := { kind := .copy, wid := 930, blk := 920, cls := some cCP, cancel := b }

theorem witness_PreemptionRequests : VfReq (blkS endB liveW 0) 0 0 ∧ (1 ≤ (preReq 2 160 false).count ∧ (preReq 2 160 false).count ≤ 160) ∧
    160 < (preReq 2 161 false).count ∧ findCmd (blkS endB liveW 0) 0 9 = none ∧ findCmd (blkS endB liveW 0) 0 2 = some (910, actCmd) ∧
    preempting (blkS endB liveW 0) 0 = false ∧ (∀ e ∈ cmdBlocks (blkS endB liveW 0) 910, e.2.st ≠ .restoring) ∧ Tab.wf (blkS endB liveW 0).regs = true ∧
    Tab.wf (blkS endB liveW 0).blocks = true ∧
    vacated (blkS endB liveW 0) 910 actCmd (takenCores (blkS endB liveW 0) 0 910 (preReq 2 1 false)) = [(920, endB)] ∧
    freeSlots (blkS endB liveW 0) 0 0 = [0] ∧ slotBytes (blkS endB liveW 0) 0 0 = 65536 ∧
    (sectionBytes (deviceSections (blkS endB liveW 0) endB) ≤ 65472 → imageBytes (blkS endB liveW 0) endB ≤ slotBytes (blkS endB liveW 0) 0 0) ∧
    vacated (blkS sdB liveW 0) 910 actCmd (takenCores (blkS sdB liveW 0) 0 910 (preReq 2 1 false)) = [] ∧ inTransit (blkS endB liveW 0) 910 = false ∧
    ¬ (1 ≤ (freeSlots (setReg (blkS endB liveW 0) (.gld 0) (ctxOff 0 + 0x18) 0) 0 0).length) ∧
    (actCmd.idemp = false ∧ actCmd.glade = 0 ∧ ctxRuns (blkS endB liveW 0) 0 0 = true) ∧ ((blkS endB liveW 0).gladeSt 0).cores.Nodup ∧
    ((blkS endB liveW 0).gladeSt 0).preempts = [] ∧
    (({ endB with st := .quiescing } : Block).quiesceAt + 4000 ≤ (blkS endB liveW 0).now ∧
      (∃ n o, (withAt (blkS { endB with st := .quiescing } liveW 0) 950 (canOp false)).op? n = some o ∧
        (o.blk = 920 ∧ o.cancellable = true ∧ o.done = false ∧ o.cancel = false))) ∧
    ((withAt (blkS endB liveW 0) 950 (canOp true)).op? 950 = some (canOp true) ∧ (canOp true).cancel = true ∧ (canOp true).done = false ∧
      (withAt (blkS endB liveW 0) 950 (canOp true)).blk? 920 = some endB) := by
  refine ⟨vfReq_of (by decide +kernel), by decide, by decide, ?_, ?_, ?_, ?_, ?_,
    ?_, ?_, ?_, ?_,
    fun h => by
      have c : ctxHandler (blkS endB liveW 0) (blkCtx (blkS endB liveW 0) endB).1 (blkCtx (blkS endB liveW 0) endB).2 = 0 := by decide +kernel
      have z : slotBytes (blkS endB liveW 0) 0 0 = 65536 := by decide +kernel
      simp only [imageBytes, areaOff, c, z]; simp; omega,
    ?_, ?_,
    ?_, ?_, ?_, ?_,
    ⟨by decide +kernel, 950, canOp false, by decide +kernel⟩, ?_⟩ <;> decide +kernel

def quB : Block := { endB with st := .quiescing, slotNo := some 0 }
def savB : Block := { endB with st := .saving, slotNo := some 0, image := some { handler := true }, budgetAt := some 4000 }
def fbB : Block := { endB with st := .saving, slotNo := some 0, image := some { fallback := true } }
def inH (restore : Bool) (hdone : Nat) : Wave := { liveW with intr := some { cause := 0x18, restore := restore, hdone := hdone } }
def rsB : Block := { endB with st := .restoring }

/-- The saved block waits to be placed on core 0. -/
def sdS : State := { blkS sdB liveW 0 with waves := cmdS.waves, boot := { cores := [0] } }
/-- The pages of a context map a whole slot that a program may write. -/
theorem slot_writable {s : State} (h : (s.ctxSt 0 0).pages = [pageRW]) (m : Nat) (hm : m < 65536) :
    writableHome s 0 0 (0x20000 + m) = some (0x40000 + m) := by
  have a : findPage [pageRW] (0x20000 + m) = some pageRW := by
    simp [findPage, List.find?, show pageRW.va = 0x20000 from rfl, show pageRW.len = 0x10000 from rfl, show 131072 + m < 196608 by omega]
  simp only [writableHome, walkPage, h, a]
  simp [show pageRW.w = true by decide, show pageRW.cow = false from rfl, Page.homeOf, show pageRW.va = 0x20000 from rfl, show pageRW.home = 0x40000 from rfl]

theorem witness_SaveAndRestore : (blkS quB liveW 0x3000).blk? 920 = some quB ∧ quiet (blkS quB liveW 0x3000) 920 = true ∧
    (∀ n ∈ quB.waves, ((blkS quB liveW 0x3000).waveD n).intr = none) ∧ quB.waves.Nodup ∧ ctxHandler (blkS quB liveW 0x3000) 0 0 ≠ 0 ∧
    ctxHandler (blkS quB liveW 0) 0 0 = 0 ∧ blkCtx (blkS quB liveW 0) quB = (0, 0) ∧ (blkS quB liveW 0x3000).wave? 930 = some liveW ∧
    liveW.ended ≠ 0xFFFFFFFF#32 ∧ Tab.wf liveW.vregs = true ∧
    ((blkS savB (inH false 1) 0x3000).wave? 930 = some (inH false 1) ∧ (inH false 1).intr = some { cause := 0x18, hdone := 1 }) ∧
    ((blkS savB (inH false 1) 0x3000).blk? 920 = some savB ∧ savB.budgetAt = some 4000 ∧ 4000 ≤ (blkS savB (inH false 1) 0x3000).now ∧
      allSaved (blkS savB (inH false 1) 0x3000) savB = false) ∧
    ((blkS fbB liveW 0).blk? 920 = some fbB ∧ fbB.image = some { fallback := true } ∧ fbB.slotNo = some 0 ∧ quiet (blkS fbB liveW 0) 920 = true ∧
      Tab.wf (blkS fbB liveW 0).waves = true ∧ writableHome (blkS fbB liveW 0) 0 0 (slotVa (blkS fbB liveW 0) 0 0 0 + 63) = some (0x40000 + 63)) ∧
    ((blkS rsB (inH true 2) 0).wave? 930 = some (inH true 2) ∧ (inH true 2).intr = some { cause := 0x18, restore := true, hdone := 2 } ∧
      (blkS rsB (inH true 2) 0).blk? 920 = some rsB ∧ (blkS rsB (inH true 2) 0).ops = [] ∧ rsB.waves = [930]) ∧
    (sdS.cmd? 910 = some actCmd ∧ sdS.blk? 920 = some sdB ∧ sdB.entries = [] ∧ (actCmd.shape sdB.stage).parts = 1 ∧
      plan sdS 910 actCmd = some ([(920, sdB)], [(920, [(0, 0)])]) ∧
      firstServed sdS 910 actCmd = true ∧
      barred sdS 910 actCmd [(920, sdB)] = false) ∧
    (VfReq (blkS endB liveW 0) 0 0 ∧
      (blkS endB liveW 0).blocks.find? (fun e => blkCtx (blkS endB liveW 0) e.2 == (0, 0) && e.2.lin == 0 && e.2.st != .done && e.2.st != .pending) = some (920, endB) ∧
      0 ∈ freeSlots (blkS endB liveW 0) 0 0 ∧ 1 ∉ freeSlots (blkS endB liveW 0) 0 0 ∧
      ((blkS endB liveW 0).ctxSt 0 0).drainRec = [] ∧ slotVa (blkS endB liveW 0) 0 0 0 = 0x20000 ∧ slotBytes (blkS endB liveW 0) 0 0 = 65536 ∧
      slotBytes (setReg (blkS endB liveW 0) (.gld 0) (ctxOff 0 + 0x18) 0) 0 0 < areaOff (setReg (blkS endB liveW 0) (.gld 0) (ctxOff 0 + 0x18) 0) endB) ∧
    (∀ m, m < 65536 → writableHome (blkS endB liveW 0) 0 0 (0x20000 + m) = some (0x40000 + m) ∧ writableHome (blkS fbB liveW 0) 0 0 (0x20000 + m) = some (0x40000 + m)) ∧
    (∀ k ∈ rsB.waves, k ≠ 930 → ((blkS rsB (inH true 2) 0).waveD k).intr = none) ∧ placedBlocks sdS 910 = [] ∧
    sdB.image = some { waves := [(930, liveW)] } ∧ Tab.wf ({ waves := [(930, liveW)] } : Image).waves = true := by
  exact ⟨by decide +kernel, by decide +kernel, by decide +kernel, by decide, by decide +kernel, by decide +kernel, by decide +kernel, by decide +kernel,
    by decide, by decide, by decide +kernel, by decide +kernel, by decide +kernel, by decide +kernel, by decide +kernel,
    ⟨vfReq_of (by decide +kernel), by decide +kernel, by decide +kernel, by decide +kernel, by decide +kernel, by decide +kernel, by decide +kernel,
      by
        have z : slotBytes (setReg (blkS endB liveW 0) (.gld 0) (ctxOff 0 + 0x18) 0) 0 0 = 0 := by decide +kernel
        rw [z]; unfold areaOff; omega⟩,
    fun m hm => ⟨slot_writable (by decide +kernel) m hm, slot_writable (by decide +kernel) m hm⟩, by decide +kernel, by decide +kernel, rfl, by decide⟩

/-- Lines of core 0: one dirty, one clean in another place. -/
def lineA : L1Line := { va := 0x20000, home := 0x40000, data := 0xFF, valid := 0xFF00, dirty := 1, tag := 5 }
def lineB : L1Line := { va := 0x20080, home := 0x40080, valid := 1 }
def linesS : State := (memS id).updCore 0 fun c => { c with l1 := [lineA, lineB], ic := [{ va := 0x1000 }], view := 9 }
def prb (r : Bool) : Probe := { target := 1, epoch := 4, received := r }
def prbS (r : Bool) : State := { linesS with probes := [(7, prb r)] }
def epS (adv : Bool) : State := linesS.updGlade 0 fun g => { g with epoch := 10, advance := adv, demand := some 5 }

theorem witness_LinesProbesAndEpochs : OnlyLine linesS 0 0 0x20000 [] lineA [lineB] ∧ OnlyLine linesS 0 0 0x20080 [lineA] lineB [] ∧ lineA.dirty ≠ 0 ∧
    lineB.dirty = 0 ∧ Memory.wf linesS.mem = true ∧ Tab.val? (prbS false).probes 7 = some (prb false) ∧ Tab.val? (prbS true).probes 7 = some (prb true) ∧
    (∀ g ∈ unlandedTags (prbS true) 1 0, epochLater g (prb true).epoch = true) ∧ Tab.wf (prbS true).probes = true ∧
    ((epS false).gladeSt 0).demand = some 5 ∧ 0 ∈ ((epS false).gladeSt 0).cores ∧ (∃ e ∈ (linesS.coreSt 0).ic, e.ctx = 0 ∧ e.va = 0x1000) ∧
    (∀ c ∈ [0, 256], c ∈ ((epS true).gladeSt 0).cores ∨ c = 256 + 0) ∧ ((epS true).gladeSt 0).advance = true ∧
    (∃ c ∈ [0, 256], ((epS false).coreSt c).view ≠ ((epS false).gladeSt 0).epoch) ∧ Tab.wf (epS false).regs = true ∧ (linesS.coreSt 0).view < 2 ^ 48 ∧
    (((epS true).gladeSt 0).grantAt ≤ coreClk (epS true) (256 + 0) ∧ ((epS false).gladeSt 0).advance = false) ∧
    (∀ t ∈ unlandedTags linesS 0 0, t < 2 ^ 48 ∧ ((linesS.coreSt 0).view + 2 ^ 48 - t) % 2 ^ 48 < 2 ^ 46) ∧ unlandedTags linesS 0 0 = [5] ∧
    (4 < 2 ^ 48 ∧ epochLater (linesS.coreSt 0).view 4 = true ∧ ∀ t ∈ unlandedTags linesS 0 0, epochLater t 4 = true) := by
  exact ⟨⟨by decide +kernel, rfl, rfl, fun x hx => by
      simp only [List.not_mem_nil, List.mem_singleton, false_or] at hx; subst hx; decide⟩,
    ⟨by decide +kernel, rfl, rfl, fun x hx => by
      simp only [List.not_mem_nil, List.mem_singleton, or_false] at hx; subst hx; decide⟩,
    by decide, by decide, by decide +kernel⟩

/-- The line that a fetch lacks, if it lacks one. -/
def lacks (s : State) (core c : Nat) (pc : Nat) : Option Nat := match fetchUnit unitLen (liveLines s core) 0 c pc with
  | .error a => some a
  | .ok _ => none
def exPage : Page := { va := 0x20000, len := 0x10000, home := 0x40000, rwx := 5 }
/-- Nothing is cached but a page that may be executed, and one that may not; a walk for the page at 0x50000 has been asked for. -/
def fchS (k : Page) : State := (tqBase fun f => { f with pc := 0x20000, stall := .xlateMiss }).updCore 0 fun c =>
  { c with ic := [], tlb := [{ page := k }], walks := [{ va := 0x50000, wid := 902 }] }
/-- The control core of glade 0 lacks every line, its context 0 not open. -/
def ccFch : State := (setCtxState (csS id) 0 0 3).updCore 256 fun c => { c with ic := [] }
theorem witness_FetchAndWalks_control : ccFch.wave? 0 = some (csW id) ∧ (csW id).control = true ∧ (csW id).coreNo 0 = 256 ∧
    lacks ccFch 256 0 0x1000 = some 0x1000 ∧ ctxState ccFch 0 0 ≠ 1 ∧ ctxState (csS id) 0 0 = 1 ∧
    (∀ x ∈ ((fchS exPage).gladeSt 0).faultq, ¬ (x.ctx = 0 ∧ x.va / 2 ^ 16 = 5 ∧ x.cow = false)) := by decide +kernel

/-- 256 loads of core 0 are on the mesh. -/
def fullMesh (s : State) : State := { s with ops := (List.range 256).map fun n => (2000 + n, { kind := .load, accs := [{ home := 0x40000 }] }) }

theorem witness_FetchAndWalks : (fchS exPage).wave? 902 = some (wv memW fun f => { f with pc := 0x20000, stall := .xlateMiss }) ∧
    (wv memW fun f => { f with pc := 0x20000, stall := .xlateMiss }).frag? 0 = some { f0 with pc := 0x20000, stall := .xlateMiss } ∧
    lacks (fchS exPage) 0 0 0x20000 = some 0x20000 ∧ lacks (fchS exPage) 0 0 (2 ^ 52) = some (2 ^ 52) ∧
    tlbLookup (fchS exPage) 0 0 0 0x20000 = some exPage ∧ exPage.x = true ∧ pageRW.x = false ∧ tlbLookup (fchS pageRW) 0 0 0 0x20000 = some pageRW ∧
    tlbLookup (fchS exPage) 0 0 0 0x60000 = none ∧
    ((fchS exPage).coreSt 0).walks.filter (fun k => k.ctx == 0 && k.va / 2 ^ 16 == 5) = { va := 0x50000, wid := 902 } :: [] ∧
    meshRequests (fchS exPage) 0 < 256 ∧ 256 ≤ meshRequests (fullMesh (fchS exPage)) 0 ∧
    walkPage (fchS exPage) 0 0 0x50000 = none ∧ walkPage (fchS exPage) 0 0 0x20000 = some pageRW ∧ ((fchS exPage).gladeSt 0).faultq = [] := by
  exact ⟨(issuing_of (s := fchS exPage) memW _ rfl rfl).2.1, frag_wv _ _, by decide +kernel, by decide +kernel, by decide +kernel, by decide, by decide,
    by decide +kernel⟩

def handW (w : Wave) : Wave := { w with uhandler := 0x3000 }
def inHandler (f : Frag) : Frag := { f with trap := { inHandler := true, rpc := 0x1100, savedRj := none } }
/-- A wave whose PREEMPT delivery saves, or whose STEP delivery runs. -/
def delW (c : Nat) (w : Wave) : Wave := { w with intr := some { cause := c } }
def outOf (h : Held) (f : Frag) : Frag := { f with held := some { h with limit := some 0, tcount := 1 } }
/-- Context 0 has a fault ring of 64 entries at 0x20000. -/
def ringS (tail : Word) : State :=
  let s := setReg (tqBase id) (.gld 0) (ctxOff 0 + 0x28) 64
  setReg (setReg s (.gld 0) (ctxOff 0 + 0x20) 0x20000) (.gld 0) (ctxOff 0 + 0x30) tail

theorem witness_TakingATrap_records :
    (((ringS 63).updCtx 0 0 fun x => { x with recordLost := true }).ctxSt 0 0).recordLost = true ∧ ((ringS 63).ctxSt 0 0).recordLost = false ∧
    writableHome (setReg (ringS 63) (.gld 0) (0x3000 + 0x20) 0x90000) 0 0
      (reg64 (setReg (ringS 63) (.gld 0) (0x3000 + 0x20) 0x90000) (.gld 0) (0x3000 + 0x20) + 64 * (63 % 64)) = none ∧
    (wv (delW 0x18) id).control = false ∧ ({ cause := 0x18 } : Intr).restore = false ∧ ctxRuns (st (delW 0x19) id) 0 0 = true := by decide +kernel

/-- The block of `liveW` is terminated at 4000, with and without an operation of its own. -/
def termB : Block := { endB with st := .running, waves := [930], terminated := true, since := 4000 }
def termK : Cmd := { actCmd with firstTerm := some 0x15 }
def termS (ops : Tab Op) : State :=
  let s := blkS termB liveW 0
  { s with ops := ops, now := 5000, cmds := Tab.put s.cmds 910 termK }
theorem witness_TakingATrap_blocks : ((termS []).blk? 920 = some termB ∧ termB.terminated = true ∧ termB.st ≠ .done ∧ blockBusy (termS []) 920 = false ∧
      Tab.wf (termS []).waves = true ∧ Tab.wf (termS []).blocks = true ∧ (termS []).cmd? 910 = some termK ∧ termK.isPass = false ∧ termK.st = .active ∧
      termK.firstTerm = some 0x15 ∧ ∀ x ∈ cmdBlocks (termS []) 910, x.1 = 920 ∨ x.2.st = .done) ∧
    (let o : Op := { kind := .copy, wid := 930, blk := 920, cls := some cCP };
      blockBusy (termS [(950, o)]) 920 = true ∧ (termS []).now < termB.since + 4000 ∧
      (blkS endB liveW 0).blk? o.blk = some endB ∧ endB.terminated = false ∧ ctxRuns (blkS endB liveW 0) 0 0 = true ∧
      ctxRuns (setCtxState (blkS endB liveW 0) 0 0 3) 0 0 = false ∧ (blkS endB liveW 0).wave? o.wid = some liveW ∧ liveW.control = false ∧ liveW.intr = none ∧
      (((st (delW 0x18) id).waveD 902).intr = some { cause := 0x18 } ∧ o.wait = none)) ∧
    ((termS []).blkD 920).terminated = true := by decide +kernel

theorem witness_TrapsAndHandlers : (st handW id).wave? 902 = some (wv handW id) ∧ (wv handW id).frag? 0 = some f0 ∧ (wv handW id).uhandler ≠ 0 ∧
    f0.trap.inHandler = false ∧ (wv handW id).control = false ∧ (wv handW id).intr = none ∧ (wv id id).uhandler = 0 ∧
    Issuing (st handW inHandler) 902 0 (wv handW inHandler) (inHandler f0) ∧ (inHandler f0).trap.inHandler = true ∧
    ctxRuns (st handW id) (wv handW id).glade (wv handW id).ctx = true ∧ ClassC 0x01 ∧
    ctxRuns (setCtxState (st handW id) 0 0 3) 0 0 = false ∧
    ((csS id).wave? 0 = some (csW id) ∧ (csW id).control = true ∧ (csW id).glade = 0 ∧ (csW id).intr = none ∧ Tab.wf (csS id).regs = true) ∧
    ((∀ d, d < 64 → d ≠ 0 → ctxState (csS id) 0 d ≠ 1) ∧ ctxState (csS id) 0 0 = 1 ∧ ∀ c, c < 64 → ctxState (setCtxState (csS id) 0 0 3) 0 c ≠ 1) ∧
    ((wv (delW 0x18) id).intr = some { cause := 0x18 } ∧ (wv (delW 0x19) id).intr = some { cause := 0x19 } ∧
      (st (delW 0x18) id).wave? 902 = some (wv (delW 0x18) id)) ∧
    ((reg (ringS 64) (.gld 0) (0x3000 + 0x30) - reg (ringS 64) (.gld 0) (0x3000 + 0x2C)).toNat = (reg (ringS 64) (.gld 0) (0x3000 + 0x28)).toNat ∧
      (reg (ringS 63) (.gld 0) (0x3000 + 0x30) - reg (ringS 63) (.gld 0) (0x3000 + 0x2C)).toNat ≠ (reg (ringS 63) (.gld 0) (0x3000 + 0x28)).toNat ∧
      writableHome (ringS 63) 0 0 (reg64 (ringS 63) (.gld 0) (0x3000 + 0x20) + 64 * (63 % 64)) = some (0x40000 + 64 * 63) ∧
      (List.replicate 16 (0 : Word)).length = 16 ∧ Tab.wf (ringS 63).regs = true ∧ Memory.wf (ringS 63).mem = true) ∧
    (∀ h ∈ [{ kind := 9 }, { kind := 8, stage := 0, op := 950 }, { kind := 6, stage := 0, op := 950 }],
      (wv id (outOf h)).frag? 0 = some (outOf h f0) ∧ (outOf h f0).held = some { h with limit := some 0, tcount := 1 } ∧
      Held.due { h with limit := some 0 } (st id (outOf h)).now = true ∧ (outOf h f0).halt = none ∧ ((st id (outOf h)).blkD 901).st = .running ∧ (wv id (outOf h)).blk = 901) ∧
    waitMet (st id id) 902 (wv id id) { kind := 6, op := 950 } = false ∧
    waitMet (withAt (st id id) 950 (tqOp .tqpop 2)) 902 (wv id id) { kind := 8, op := 950 } = false ∧
    waitMet (withAt (st id id) 950 {}) 902 (wv id id) { kind := 2, a := 128, b := (rawBar (st id id) 901 128).phase } = false := by
  have e : (wv handW id).sEmpty = [] := by decide +kernel
  exact ⟨(issuing_st handW id).2.1, frag_wv _ _, by decide +kernel, rfl, by decide +kernel, by decide +kernel, by decide +kernel, issuing_st _ _, rfl,
    by decide +kernel, by unfold ClassC; decide, by decide +kernel, ⟨(issuing_cs id rfl rfl).2.1, by decide +kernel⟩, by decide +kernel,
    ⟨by decide +kernel, by decide +kernel, (issuing_st (delW 0x18) id).2.1⟩, by decide +kernel,
    fun h hh => ⟨frag_wv _ _, rfl, rfl, rfl, rfl, rfl⟩, by decide +kernel, by decide +kernel, by simp [waitMet]; rfl⟩

/-- Source 0 has seen location 7 in this period and in two before; thresholds are those of reset. -/
def errS : State := { blkS { endB with published := true } liveW 0 with
  errors := [(0, { times := [3999], len := 1000, seen := [7], runs := [(7, 2)] })], lasting := [5, 0xC8] }
/-- Operations of the block 920, of the control core, and of a unit. -/
def errOp (k : OpKind) (core : Nat) : Op := { kind := k, wid := 930, blk := 920, core := core, cls := some cLD }
def idemCmd : Cmd := { actCmd with desc := actCmd.desc.set 0 0x11010100 }
def idemS : State := { blkS endB liveW 0 with cmds := Tab.put cmdS.cmds 910 idemCmd }
/-- Two slices are enabled, 0 at 5 and 1 at 6; bucket 0 to 3 belong to slice 1 and the rest to slice 0; glade 0 drains way 3. -/
def slcS : State :=
  let s := setReg (setReg errS .fab 0x2000 0x105) .fab 0x2004 0x106
  let s := setReg (setReg s .fab 0x1000 0x01010101) .mgt 0x10 0x01020400
  setReg s (.gld 0) 0x1104 0x80000008
/-- The cooperative grid of `idemS` has a second block, and context 0 has one save slot or none. -/
def coopCmd : Cmd := { idemCmd with desc := actCmd.desc.set 0 0x13010100 }
def endB1 : Block := { endB with lin := 1 }
def mateS (size : Word) : State := { setReg idemS (.gld 0) (ctxOff 0 + 0x18) size with
  blocks := [(920, endB), (921, endB1)], cmds := Tab.put cmdS.cmds 910 coopCmd }
def mate1 : State := mateS 0x01010001
def windS (k : Nat) : State := { slcS with wind := some { slice := 1, phys := 6, step := k } }

theorem witness_ErrorsAndWindthrow : (0 < 0x19D ∧ 0x19C < 0x19D ∧ 2 ^ 32 - 1 < 2 ^ 32) ∧ Tab.wf errS.regs = true ∧ Tab.wf (errSt errS 0).runs = true ∧
    7 ∈ (errSt errS 0).seen ∧ 8 ∉ (errSt errS 0).seen ∧ errThresh errS 0 = 16 ∧ 0 ∉ errS.lasting ∧ 0xC8 ∈ errS.lasting ∧
    (∀ o ∈ [errOp .copy 0, errOp .load 256, errOp .load 0], (withAt errS 950 o).op? 950 = some o ∧ o.done = false ∧ o.scr = false ∧ o.lasting = false ∧
      Tab.wf (withAt errS 950 o).ops = true) ∧
    ((errS.blkD 920).terminated = false ∧ errS.blk? 920 = some { endB with published := true } ∧ (errS.blkD 920).published = true) ∧
    errS.wave? 0 = some (csW id) ∧ ctxRuns errS 0 0 = true ∧ ((idemS.cmdD 910).idemp = true ∧ (idemS.blkD 920).published = false ∧ idemS.blk? 920 = some endB) ∧
    (withNew (rdCmd 0x20000)).cmd? 910 = some (rdCmd 0x20000) ∧ (binS {}).cmd? 910 = some { passCmd {} with dst := 8 } ∧
    (slcS.lasting.filter (fun x => decide (x < 0xC8)) = 5 :: [] ∧ slcS.wind = none ∧ sliceEn slcS 0 = true ∧ slicePhys slcS 0 = 5 ∧ Tab.wf slcS.regs = true) ∧
    ((windS 1).wind = some { slice := 1, phys := 6, step := 1 } ∧ slicesOn (windS 6) = 2 ∧ 1 < slicesOn (windS 6) ∧ Tab.wf (windS 4).canopy = true) ∧
    (bucketsOf (windS 5) 1 = 0 :: [1, 2, 3] ∧ moveTarget (windS 5) 1 = some 0) ∧
    (regFld slcS (.gld 0) 0x1104 31 31 = 1 ∧ slicePhys slcS 0 ∉ (slcS.gladeSt 0).drained ∧
      (∃ k, k < 192 ∧ sliceEn slcS k = true ∧ slicePhys slcS k ≠ slicePhys slcS 0 ∧ slicePhys slcS k ∉ (slcS.gladeSt 0).drained)) := by
  refine ⟨by decide, ?_, ?_, ?_, ?_, ?_, ?_, ?_,
    ?_, ?_, (issuing_cs id rfl rfl).2.1, ?_, ?_, ?_, ?_,
    ?_, ?_, ?_, ?_, ?_, ⟨1, by decide, by decide +kernel, by decide +kernel, by decide +kernel⟩⟩ <;> decide +kernel

/-- Cores 0 and 1 are on, core 0 granted to glade 0; the power limit is 1500 W and the temperature 40. -/
def coreS (lasting : List Nat) : State := { setReg (errS) .mgt 0x20 (1500 * 2 ^ 16 + 40 * 2 ^ 8) with
  boot := { cores := [0, 1], coreMap := [(0, 3), (1, 4)] }, lasting := lasting, waves := [], cmds := [] }
def leaveS : State := { (coreS []).updGlade 0 fun g => { g with removing := [0] } with blocks := [], acted := [0xE3] }

theorem witness_CoresAndPower : (0 ∈ (coreS []).boot.cores ∧ Tab.wf (coreS []).regs = true ∧ Tab.wf (coreS []).glades = true) ∧
    0xE0 + physCore (coreS [0xE4]) 1 ∈ (coreS [0xE4]).lasting ∧ gladeOf (coreS []) 1 = none ∧ 0xE0 + physCore (coreS [0xE3]) 0 ∈ (coreS [0xE3]).lasting ∧
    gladeOf (coreS [0xE3]) 0 = some 0 ∧ (coreS [0xE3]).cmds = [] ∧ 0xE0 + physCore leaveS 0 ∉ leaveS.lasting ∧ 0 ∈ (leaveS.gladeSt 0).removing ∧
    coreEmpty leaveS 0 = true ∧ (regFld (coreS []) .mgt 0x20 27 16 < 1501 ∧ 100 * 1469 < 98 * regFld (coreS []) .mgt 0x20 27 16 ∧
      98 * regFld (coreS []) .mgt 0x20 27 16 ≤ 100 * 1470) ∧ exceeding (coreS []) [] = [] ∧ exceeding (coreS []) [1500] = [0] ∧ 0xE0 + physCore leaveS 0 ∈ leaveS.acted ∧ gladeOf leaveS 0 = some 0 ∧ leaveS.cmds = [] ∧
    coreEmpty (coreS [0xE3]) 0 = false ∧
    ((coreS []).boot.cores ++ (coreS []).glades.map (fun e : Nat × Glade => 256 + e.1)).Nodup ∧ (((coreS []).gladeSt 0).cores ++ [256 + 0]).Nodup ∧ (coreS []).hot = false ∧
    ((coreS []).coreSt 0).gated = false ∧ (((coreS []).updCore 0 fun c => { c with gated := true }).coreSt 0).gated = true ∧
    regFld (coreS []) .mgt 0x20 15 8 < 95 ∧ (100 ≤ 114 ∧ 114 < 115 ∧ 95 ≤ 99 ∧ 94 < 95) ∧ Hot { coreS [] with hot := true } ∧ ¬ Hot (coreS []) ∧ Cool (coreS []) ∧
    Hot { coreS [] with temps := [(0, 100)] } ∧ ¬ Cool { coreS [] with temps := [(0, 95)] } := by
  refine ⟨⟨?_, ?_, ?_⟩, ?_, ?_, ?_, ?_, ?_, ?_, ?_, ?_, by decide +kernel, ?_, ?_, ?_, ?_, ?_, ?_, ?_, ?_, rfl, ?_, ?_, ?_, by decide, .inl rfl, by unfold Hot; decide +kernel, by unfold Cool; decide +kernel, .inr ⟨(0, 100), by decide, by decide⟩, by
      unfold Cool; decide +kernel⟩ <;> decide +kernel

theorem witness_ErrorEvents_mates : (Mates mate1 coopCmd 920 endB).map (·.1) = [921] ∧ Mates idemS idemCmd 920 endB = [] ∧
    (¬ MatesFit (mateS 0) coopCmd 920 endB) ∧ MatesFit idemS idemCmd 920 endB ∧
    ((mateS 0).cmd? 910 = some coopCmd ∧ coopCmd.coop = true ∧ coopCmd.isPass = false ∧ Tab.wf (mateS 0).blocks = true) ∧
    (let s := mate1;
      (Mates s coopCmd 920 endB).length ≤ (freeSlots s 0 0).length ∧ slotBytes s 0 0 = 65536 ∧ Mates s coopCmd 920 endB = [(921, endB1)] ∧
        (sectionBytes (deviceSections s endB1) ≤ 65472 → imageBytes s endB1 ≤ slotBytes s 0 0)) := by
  refine ⟨by decide +kernel, by decide +kernel, by unfold MatesFit; decide +kernel, ⟨by decide +kernel, ?_⟩, by decide +kernel, ?_⟩
  · rw [show Mates idemS idemCmd 920 endB = [] by decide +kernel]; simp
  · refine ⟨by decide +kernel, by decide +kernel, by decide +kernel, fun h => ?_⟩
    have c : ctxHandler mate1 (blkCtx mate1 endB1).1 (blkCtx mate1 endB1).2 = 0 := by
      decide +kernel
    have z : slotBytes mate1 0 0 = 65536 := by decide +kernel
    simp only [imageBytes, areaOff, c, z]; simp; omega

/-- A wave's own error, an error of a command that is read or of a pass, and the lines of a failing slice. -/
theorem witness_ErrorEvents_waves : (errS.op? 930 = none ∧ errS.cmd? 930 = none ∧ errS.wave? 930 = some liveW ∧ liveW.control = false ∧ liveW.intr = none ∧
      (errS.cmdD liveW.cmd).idemp = false ∧ ctxRuns errS liveW.glade liveW.ctx = true) ∧
    (idemS.op? 930 = none ∧ idemS.cmd? 930 = none ∧ idemS.wave? 930 = some liveW ∧ (idemS.cmdD liveW.cmd).idemp = true ∧
      (idemS.blkD liveW.blk).published = false ∧ idemS.blk? liveW.blk = some endB) ∧
    (let e := Tab.valD errS.errors 0 {}
     ¬ ((e.since = errS.boot.since ∧ e.len = errLen errS 0) ∧ e.period = (10 ^ 12 - errS.boot.since) / (1000000 * errLen errS 0))) ∧
    bucketsOf { windS 5 with regs := errS.regs } 1 = [] ∧
    ((withNew (rdCmd 0x20000)).op? 910 = none ∧ (rdCmd 0x20000).st = .reading ∧ (binS {}).op? 910 = none ∧ ({ passCmd {} with dst := 8 } : Cmd).isPass = true) ∧
    ((errOp .copy 0).kind = .copy ∧ (errOp .load 256).wid = 930 ∧ (withAt errS 950 { errOp .load 256 with wid := 0 }).op? 950 = some { errOp .load 256 with wid := 0 } ∧
      (withAt errS 950 { errOp .load 256 with wid := 0 }).waveD 0 = csW id ∧ (csW id).control = true ∧ (csW id).glade = 0) ∧
    FirstInMs (coreS []) 64 ∧ FirstInMs (coreS []) 65 := by
  refine ⟨?_, ?_, ?_, ?_, ?_, ?_, by unfold FirstInMs; decide +kernel,
    by unfold FirstInMs; decide +kernel⟩ <;> decide +kernel
theorem witness_Windthrow_lines :
    let w : WindSt := { slice := 0, phys := 5, step := 2 }
    let s : State := { slcS with wind := some w }
    s.wind = some w ∧ w.step = 2 ∧ lineOfSlice s w.phys 0x40000 = true ∧ Tab.wf s.regs = true := by decide +kernel

/-- Glade 0 is cleared: phase k, with three units of which n are done. -/
def clrS (k n : Nat) : State :=
  let s := setReg (setReg (setReg (coreS []) .boot 0 0x30000000) .clr 4 (BitVec.ofNat 32 (2 ^ 31 + k * 2 ^ 28))) .clr 0 (BitVec.ofNat 32 n)
  { s with clear := { cur := some 0, units := [4, 5, 6] } }

theorem witness_Clearing : (clrS 5 0).clear.cur = some 0 ∧ 2 ≤ regFld (clrS 5 0) .boot 0 31 28 ∧ Tab.wf (clrS 5 0).regs = true ∧
    (∀ k, 1 ≤ k → k < 6 → regFld (clrS k 0) .clr 4 30 28 = k) ∧ (clrS 3 2).clear.units[(reg (clrS 3 2) .clr 0).toNat]? = some 6 ∧
    (reg (clrS 3 2) .clr 0).toNat + 1 = (clrS 3 2).clear.units.length ∧ (reg (clrS 3 1) .clr 0).toNat + 1 < (clrS 3 1).clear.units.length ∧
    (clrS 5 3).clear.units[(reg (clrS 5 3) .clr 0).toNat]? = none ∧ (clrS 5 3).clear.queue = [] ∧ Tab.wf (clrS 5 0).frames = true ∧
    Memory.wf (clrS 5 0).mem = true ∧ Tab.wf (clrS 4 0).keys = true ∧ Tab.wf (clrS 3 0).canopy = true ∧ (clrS 3 0).clear.units[(reg (clrS 3 0) .clr 0).toNat]? = some 4 ∧ 4 < 1024 ∧ Tab.wf (clrS 5 3).glades = true ∧ Tab.wf (clrS 5 3).cmds = true ∧
    Tab.wf (clrS 5 3).ops = true := by
  exact ⟨rfl, by decide +kernel⟩

/-- A frame of a protected glade, and a store to port 0 under way. -/
def hostS : State := { setReg errS .pyl 0x100 1 with hostUp := true, frames := [(4, { valid := true, key := some 2 })] }
def portOp : Op := { kind := .store, wid := 930, cls := some cST, accs := [{ home := 2 ^ 57 }] }
/-- Namespace entry 3 can be created, entry 0 exists; entry 5 lacks a timeout. -/
def nsS : State := setReg (setReg cnpS .cnp (nsOff 3 + 0x10) 5) .cnp (nsOff 0 + 0x10) 5
/-- Glade 0 may allocate ways 0 to 3, of which way 1 is to be lost, and a drain of way 9 is in progress. -/
def wayS : State := setReg (setReg cnpS .pyl 0 0) (.gld 0) 0x1104 0x80000200

theorem noneProtected {s : State} (h : s.frames = []) (pa n : Nat) : ¬ TouchesProtected s pa n := by
  rintro ⟨a, -, -, hv, -⟩
  simp [frameOf, h, Tab.valD, Tab.val?] at hv

theorem witness_OutsideRequestsAndRegisterWrites : hostS.hostUp = true ∧ TouchesProtected hostS 0x4FFFF 1 ∧ ¬ TouchesProtected cmdS 0x4FFFF 1 ∧
    768 * 2 ^ 30 < 768 * 2 ^ 30 + 1 ∧ ¬ 768 * 2 ^ 30 < 768 * 2 ^ 30 - 1 + 1 ∧ regFld hostS .pyl 0x100 0 0 = 1 ∧ regFld hostS .pyl 0x108 0 0 = 0 ∧
    Tab.wf hostS.regs = true ∧
    ((withAt hostS 950 portOp).ops.filter fun e => !e.2.done && !e.2.scr && e.2.accs.any fun a => a.home / 2 ^ 56 == 2 + 0 || a.home2 / 2 ^ 56 == 2 + 0) = [(950, portOp)] ∧
    hostS.ops = [] ∧ Memory.wf hostS.mem = true ∧
    (regPlace (14 * 2 ^ 20) = some (.ddp, 0) ∧ regFields .ddp 0 = some { rw := [(31, 16), (0, 0)] } ∧ ownRow cmdS (14 * 2 ^ 20) 1 = false ∧
      WritesReserved { rw := [(31, 16), (0, 0)] } 2 ∧ ¬ WritesReserved { rw := [(31, 16), (0, 0)] } 1 ∧
      Merged { rw := [(31, 16), (0, 0)] } (reg cmdS .ddp 0) 1 1 ∧ regBad cmdS (setReg cmdS .ddp 0 1) .ddp 0 = false) ∧
    regBad cmdS (setReg cmdS .erw 0 0) .erw 0 = true ∧ (regPlace (19 * 2 ^ 20) = none ∧ 19 * 2 ^ 20 % 4 = 0) ∧
    (vfGlade cmdS 5 = none ∧ vfGlade reqS 0 = some 0 ∧ reqS.changes = [] ∧ regFld reqS .vf (4096 * 0) 7 0 = 0 ∧
      regFld (setReg reqS .vf 0 3) .vf (4096 * 0) 7 0 = 3 ∧ barShut cmdS .ddp 0 = false) ∧
    (2 % 4 ≠ 0 ∧ 4 % 8 ≠ 0 ∧ (2 ≠ 4 ∧ 2 ≠ 8)) ∧ regFld cmdS .mgt 0x48 31 31 = 0 ∧ regFld (setReg cmdS .mgt 0x48 0x80000000) .mgt 0x48 31 31 = 1 ∧
    ((∃ w, w < 16 ∧ (0x00010000 : Word).getLsbD (16 + w) = true ∧ (0x00010000 : Word).getLsbD w = false) ∧
      (∀ w, w < 16 → (0x000100FF : Word).getLsbD (16 + w) = true → (0x000100FF : Word).getLsbD w = true) ∧
      (reg wayS (.gld 0) 0x1100).getLsbD 8 = true ∧ (reg wayS (.gld 0) 0x1104).getLsbD 9 = true) ∧
    (regFld nsS .cnp (0x10000 + 64 * 3) 31 31 = 0 ∧ (0x80000009 : Word).getLsbD 31 = true ∧ regFld nsS .cnp (0x10000 + 64 * 3 + 0x10) 15 0 ≠ 0 ∧
      regFld nsS .cnp (0x10000 + 64 * 5 + 0x10) 15 0 = 0 ∧
      (∀ m, m < 1024 → m ≠ 3 → ¬ (regFld nsS .cnp (0x10000 + 64 * m) 31 31 = 1 ∧ regFld nsS .cnp (0x10000 + 64 * m) 15 0 = 9)) ∧
      regFld nsS .cnp 0x10000 31 31 = 1 ∧ regFld nsS .cnp 0x10000 15 0 = 7 ∧ regFld nsS .cnp 0x10000 29 24 = 0 ∧ Tab.wf nsS.canopy = true) ∧
    ((0xE0000C00 : Word).getLsbD 30 = true ∧ (0xE0000C00 : Word).extractLsb' 18 5 = 0#5 ∧ (0xE0000C00 : Word).extractLsb' 0 8 = 0#8 ∧
      ¬ 4#3 < (0xE0000C00 : Word).extractLsb' 27 3 ∧ ¬ 12#4 < (0xE0000C00 : Word).extractLsb' 8 4) := by
  refine ⟨rfl, ⟨0x4FFFF, by decide, by decide, by decide +kernel, by decide +kernel⟩, noneProtected (by decide +kernel) _ _, by decide, by decide,
    ?_, ?_, ?_, ?_, ?_, ?_,
    ⟨by decide +kernel, rfl, by decide +kernel, ⟨1, by decide, by decide, by unfold InBits; decide⟩, by
      rintro ⟨i, hi, hb, hn⟩
      have : i = 0 := (show ∀ i, i < 32 → (1 : BitVec 64).getLsbD i = true → i = 0 by decide) i hi hb
      subst this
      exact hn (by unfold InBits; decide), by
      rw [show reg cmdS .ddp 0 = 0x01000000#32 by decide +kernel]
      unfold Merged InBits; decide, by decide +kernel⟩,
    ?_, ?_, ?_, by decide, ?_, ?_, ?_, ?_, by decide⟩ <;> decide +kernel

/-- Peers reach frame 5 of glade 0 over port 3; a replay session of glade 1 runs; the mailbox holds an opcode that is none. -/
def peerS : State := { setReg (setReg (setReg reqS .pyl 0x118 1) .rpl (256 + 12) 0x80000000) .mgt 0x1000 0x77 with
  glades := [(0, { cores := [0], peerRanges := [(3, 0x50000, 0x10000)] })] }
theorem witness_OutsideRequests_reached : regFld peerS .pyl (0x100 + 8 * 3) 0 0 = 1 ∧
    (∃ e ∈ peerS.glades, (∃ r ∈ e.2.peerRanges, r.1 = 3) ∧ ∀ a, 0x50000 ≤ a → a < 0x50000 + 64 → (frameOf peerS (a / 65536)).valid = true ∧
      (frameOf peerS (a / 65536)).glade = e.1) ∧ ¬ TouchesProtected peerS 0x50000 64 ∧
    (vfGlade peerS 0 = some 0 ∧ ctxState (setCtxState peerS 0 5 1) 0 5 = 1 ∧ ctxState (setCtxState peerS 0 5 2) 0 5 ≠ 1) ∧
    (regFld peerS .rpl (256 * 0 + 12) 31 31 = 0 ∧ regFld peerS .rpl (256 * 1 + 12) 31 31 = 1 ∧ (2147483650#64).getLsbD 31 = true ∧ (2147483650#64).getLsbD 30 = false) ∧
    (regFld peerS .mgt 0x48 31 31 = 0 ∧ regFld peerS .mgt 0x1000 7 0 = 0x77 ∧ Tab.wf peerS.regs = true) := by
  refine ⟨by decide +kernel, ⟨(0, _), List.mem_singleton_self _, ⟨_, List.mem_singleton_self _, rfl⟩, fun a h h' => ?_⟩, ?_, by decide +kernel⟩
  · rw [show a / 65536 = 5 by omega]; decide +kernel
  · rintro ⟨a, h, h', -, hk⟩
    rw [show a / 65536 = 5 by omega] at hk; revert hk; decide +kernel

theorem witness_ResetsAndStartUp : Tab.wf cmdS.regs = true ∧ Tab.wf cmdS.frames = true ∧ Memory.wf cmdS.mem = true ∧ cmdS.boot.powered = true ∧ 115 ≤ 115 ∧
    State.reset.boot.stage = some 0 ∧ State.reset.boot.since + 50000000 < { State.reset with now := 50000001 }.now ∧
    State.reset.now ≤ State.reset.boot.since + 50000000 ∧ State.reset.svn ≤ 3 ∧ regFld State.reset .clr 4 31 31 = 0 ∧ leaving State.reset 0 = false ∧
    leaving { State.reset with clear := { queue := [0] } } 0 = true ∧ { State.reset with boot := { stage := some 1 } }.boot.stage = some 1 ∧
    { State.reset with boot := { stage := some 2 } }.now ≤ 0 + 100000000 ∧
    (let x : BootImage := { digest := 0, version := 3 }; let y : BootImage := { digest := 1, version := 0 }; let s := { State.reset with svn := 1 }
      [x, y] = [x] ++ [y] ∧ (∀ z ∈ [x], s.svn ≤ z.version) ∧ y.version < s.svn ∧ s.svn ≤ x.version ∧ [x, y].length ≤ 1 + 1) ∧ Tab.wf State.reset.regs = true ∧ (1 ≤ 3 ∧ 3 ≤ 3) := by
  exact ⟨by decide +kernel, by decide +kernel, by decide +kernel, by decide +kernel, by decide, rfl, by decide, by decide, by decide, by decide +kernel,
    by decide +kernel, by decide +kernel, rfl, by decide, by decide +kernel, by decide +kernel, by decide⟩

/-- The mailbox holds request op; start-up has reached stage n with error e. -/
def boxS (op n e : Nat) : State :=
  setReg (setReg (setReg errS .mgt 0x48 0x80000000) .mgt 0x1000 (BitVec.ofNat 32 op)) .boot 0 (BitVec.ofNat 32 (n * 2 ^ 28 + e * 2 ^ 24))
theorem asked_box {op n e : Nat} (h : regFld (boxS op n e) .mgt 0x48 31 31 = 1 ∧ regFld (boxS op n e) .mgt 0x1000 7 0 = op) : Asked (boxS op n e) op :=
  ⟨h.1, h.2, rfl⟩

/-- A request with its payload. -/
def boxA (op n : Nat) (args : List Nat) : State :=
  (List.range args.length).foldl (fun s i => setReg s .mgt (0x1010 + 4 * i) (BitVec.ofNat 32 (args.getD i 0))) (boxS op n 0)
theorem askedWith_of {s : State} {op : Nat} {args : List Nat} (h : Asked s op)
    (ha : ∀ i, i < args.length → (reg s .mgt (0x1010 + 4 * i)).toNat = args.getD i 0) : AskedWith s op args :=
  ⟨h, fun i x hx => by
    obtain ⟨hi, rfl⟩ := List.getElem?_eq_some_iff.mp hx
    rw [ha i hi, List.getD_eq_getElem?_getD, List.getElem?_eq_getElem hi, Option.getD_some]⟩
theorem witness_MailboxRequests_payload :
    (∀ e ∈ [(0x20, 1, [0, 1500]), (0x13, 3, [0]), (0x12, 3, [0, 1, 5, 1]), (0x11, 3, [1, 1, 127]), (2, 1, words512 7), (4, 2, 5 :: words512 7),
      (0x12, 3, 0 :: 3 :: 2 :: words64 0x40000 ++ words64 0x10000)], AskedWith (boxA e.1 e.2.1 e.2.2) e.1 e.2.2) ∧
    (∃ k x, [0, 1500][k]? = some x ∧ (reg (boxS 0x20 1 0) .mgt (0x1010 + 4 * k)).toNat ≠ x) ∧
    ((List.replicate 1568 (0 : Byte)).length = 1568 ∧ (List.replicate 72 (0 : Byte)).length = 72) := by
  refine ⟨fun e he => ?_, ⟨1, 1500, rfl, by decide +kernel⟩, by decide +kernel⟩
  have all : ∀ e ∈ [(0x20, 1, [0, 1500]), (0x13, 3, [0]), (0x12, 3, [0, 1, 5, 1]), (0x11, 3, [1, 1, 127]), (2, 1, words512 7), (4, 2, 5 :: words512 7),
      (0x12, 3, 0 :: 3 :: 2 :: words64 0x40000 ++ words64 0x10000)],
      (regFld (boxA e.1 e.2.1 e.2.2) .mgt 0x48 31 31 = 1 ∧ regFld (boxA e.1 e.2.1 e.2.2) .mgt 0x1000 7 0 = e.1 ∧ (boxA e.1 e.2.1 e.2.2).boot.powered = true) ∧
      ∀ i, i < e.2.2.length → (reg (boxA e.1 e.2.1 e.2.2) .mgt (0x1010 + 4 * i)).toNat = e.2.2.getD i 0 := by decide +kernel
  exact askedWith_of (all e he).1 (all e he).2

theorem witness_MailboxDevice : Asked (boxS 1 0 0) 1 ∧ Asked (boxS 2 1 0) 2 ∧ Asked (boxS 3 1 0) 3 ∧ Asked (boxS 4 2 0) 4 ∧ Asked (boxS 5 2 0) 5 ∧
    Asked (boxS 0x10 2 0) 0x10 ∧ Asked (boxS 0x20 1 0) 0x20 ∧ regFld (boxS 2 0 0) .boot 0 31 28 < 1 ∧ 1 ≤ regFld (boxS 2 1 0) .boot 0 31 28 ∧
    2 ≤ regFld (boxS 4 2 0) .boot 0 31 28 ∧ regFld (boxS 4 2 0) .boot 0 27 24 = 0 ∧ regFld (boxS 4 2 1) .boot 0 27 24 ≠ 0 ∧ (4 ≤ 7 ∧ 3 < 4 ∧ 7 < 8) ∧
    regFld (boxS 0x10 3 0) .boot 0 31 28 = 3 ∧ regFld (boxS 0x10 2 0) .boot 0 31 28 ≠ 3 ∧ (boxS 0x10 2 0).boot.stage ≠ some 2 ∧
    { boxS 0x10 2 0 with boot := { stage := some 2 } }.boot.stage = some 2 ∧ Tab.wf (boxS 0x20 1 0).regs = true ∧
    ((((List.range 48).filter (· != 0)).map fun h => regFld (boxS 0x20 1 0) (.gld h) 0x38 7 0).foldl (· + ·) 0 + 255 ≤ 256 ∧
      256 < (((List.range 48).filter (· != 0)).map fun h => regFld (setReg (boxS 0x20 1 0) (.gld 47) 0x38 200) (.gld h) 0x38 7 0).foldl (· + ·) 0 + 57) := by
  exact ⟨asked_box (by decide +kernel), asked_box (by decide +kernel), asked_box (by decide +kernel), asked_box (by decide +kernel),
    asked_box (by decide +kernel), asked_box (by decide +kernel), asked_box (by decide +kernel), by decide +kernel, by decide +kernel, by decide +kernel,
    by decide +kernel, by decide +kernel, by decide, by decide +kernel, by decide +kernel, by decide +kernel, rfl, by decide +kernel, by decide +kernel⟩

/-- Glade 0 is active with core 0, core 1 is free, virtual function 0 belongs to glade 0, and frame 5 too. -/
def gladeS (op : Nat) : State :=
  { setReg (setReg (boxS op 3 0) (.gld 0) 0 0x40000000) .rlk 0x400 0x80000000 with
    boot := { cores := [0, 1] }, frames := [(5, { valid := true, glade := 0 })], kemKey := some 1 }
def goneS (op : Nat) : State := { gladeS op with clear := { queue := [0] } }

/-- Frames of key slot 3, which a key is loaded for; glade 1 is formed beside glade 0 and waits to be cleared. -/
theorem witness_MailboxGlades_held :
    (∃ e ∈ (goneS 0x11).glades, e.1 = 0 ∧ leaving (goneS 0x11) e.1 = true) ∧ (gladeS 0x13).clear.cur = none ∧ ¬ ((goneS 0x13).clear.queue = []) ∧
    (let s : State := { gladeS 0x13 with cmds := [(910, { seq := 1, dst := 4 })] };
      s.cmds = [] ++ (910, { seq := 1, dst := 4 }) :: [] ∧ ({ seq := 1, dst := 4 } : Cmd).glade = 0 ∧ ({ seq := 1, dst := 4 } : Cmd).desc = [] ∧
        ({ seq := 1, dst := 4 } : Cmd).isPass = false ∧ (csW id).ended ≠ 0xFFFFFFFF#32) ∧
    (∃ c, c < 64 ∧ ctxState (gladeS 0x13) 0 c ≠ 0) ∧
    (∀ n, (frameOf (gladeS 0x14) n).valid = true → (frameOf (gladeS 0x14) n).key ≠ some 0) ∧ 0xE0 + physCore (gladeS 0x12) 1 ∉ (gladeS 0x12).acted := by
  refine ⟨by decide +kernel, by decide +kernel, by decide +kernel, by decide +kernel, ⟨0, by decide +kernel⟩, fun n hn => ?_, by decide +kernel⟩
  by_cases h : n = 5
  · subst h; decide +kernel
  · have e : frameOf (gladeS 0x14) n = {} := by
      simp [frameOf, gladeS, Tab.valD, Tab.val?, beq_eq_false_iff_ne.mpr (Ne.symm h)]
    rw [e] at hn; exact absurd hn (by decide)

theorem witness_MailboxGlades : (∀ op ∈ [0x11, 0x12, 0x13, 0x14], regFld (gladeS op) .mgt 0x48 31 31 = 1 ∧ regFld (gladeS op) .mgt 0x1000 7 0 = op ∧
      (gladeS op).boot.powered = true) ∧ Ready (gladeS 0x11) ∧ ActiveGlade (gladeS 0x12) 0 ∧ leaving (goneS 0x12) 0 = true ∧ Tab.wf (gladeS 0x11).regs = true ∧
    (47 < 48 ∧ 127 < 128 ∧ vfGlade (gladeS 0x11) 127 = none ∧ vfGlade (gladeS 0x11) 0 = some 0 ∧ regFld (gladeS 0x11) (.gld 47) 0 31 29 = 0 ∧
      regFld (gladeS 0x11) (.gld 47) 0 28 28 = 0) ∧
    (0 ∈ Tab.keys (gladeS 0x11).glades ∧ regFld (setReg (gladeS 0x11) (.gld 0) 0 0x50000000) (.gld 0) 0 28 28 = 1) ∧
    (2 ∉ (gladeS 0x12).boot.cores ∧ 0 ∈ (gladeS 0x12).boot.cores ∧ gladeOf (gladeS 0x12) 0 = some 0 ∧ 1 ∈ (gladeS 0x12).boot.cores ∧
      (∀ h, h < 48 → 1 ∉ ((gladeS 0x12).gladeSt h).cores) ∧ Tab.wf (gladeS 0x12).glades = true) ∧
    (12582912 < 12582912 + 1 ∧ 12582911 + 1 ≤ 12582912 ∧ (frameOf (gladeS 0x12) 5).valid = true ∧ (frameOf (gladeS 0x12) 6).valid = false) ∧
    (∀ e ∈ (gladeS 0x12).glades, 65535 ∉ e.2.nsids) ∧ ctxState (gladeS 0x13) 0 0 ≠ 0 ∧ (gladeS 0x13).wave? 0 = some (csW id) ∧ (gladeS 0x13).changes = [] ∧
    (∀ c, c < 64 → ctxState (setCtxState (gladeS 0x13) 0 0 0) 0 c = 0) ∧ (gladeS 0x13).clear.cur = none ∧ (gladeS 0x13).clear.queue = [] ∧
    Tab.wf (gladeS 0x13).cmds = true ∧ (gladeS 0x14).kemKey = some 1 ∧ { gladeS 0x14 with kemKey := none }.kemKey = none := by
  refine ⟨?_, by unfold Ready; decide +kernel, by unfold ActiveGlade; decide +kernel, ?_, ?_, ?_,
    ?_, ?_, ?_, ?_, ?_, (issuing_cs id rfl rfl).2.1, ?_,
    ?_, ?_, ?_, ?_, rfl, rfl⟩ <;> decide +kernel

/-- s2 and v2 are empty. -/
def emptyW (w : Wave) : Wave := { w with sEmpty := [2], vEmpty := [2], nvreg := 8 }

theorem witness_EmptyRegisters : Issuing (st emptyW id) 902 0 (wv emptyW id) f0 ∧ (wv emptyW id).control = false ∧ saveRefuses (wv emptyW id) = false ∧
    (216 ≤ (216 : BitVec 8).toNat ∧ 192 ≤ (192 : BitVec 8).toNat) ∧ ((215 : BitVec 8).toNat < 216 ∧ (191 : BitVec 8).toNat < 192) ∧
    (2 : BitVec 8).toNat ∈ (wv emptyW id).sEmpty ∧ (wv emptyW id).nvreg ≤ vecNo f0 8 ∧ vecNo f0 7 < (wv emptyW id).nvreg ∧
    vecNo f0 2 ∈ (wv emptyW id).vEmpty ∧ vecNo f0 7 ∉ (wv emptyW id).vEmpty ∧
    Issuing (csS id) 0 0 (csW id) { f0 with memb := 1, emask := 1 } ∧ (csW id).control = true :=
  ⟨issuing_st _ _, by decide +kernel, by decide +kernel, by decide, by decide, by decide +kernel, by decide +kernel, by decide +kernel, by decide +kernel,
   by decide +kernel, issuing_cs id rfl rfl, by decide +kernel⟩

/-- What a fetch of the placed fragment gives. -/
def bytesAt (s : State) (pc : Nat) : Option (List Byte) := (fetchUnit unitLen (liveLines s 0) 0 0 pc).toOption
/-- The placed state of a word. -/
def at32 (w : Nat) (k : Wave → Wave) : State := placed 32 w k
theorem issuing_at (w : Nat) (h : isCommandWord w = false) : Issuing (at32 w id) 902 0 ((at32 w id).waveD 902) f0 := by
  have hv : (at32 w id).wave? 902 = some ((at32 w id).waveD 902) := by
    simp [at32, placed, State.wave?, State.waveD, State.updWave, Tab.valD, State.withFetchWord, h]
  refine ⟨by simp [at32, placed, State.updWave, State.withFetchWord, h], hv, ?_⟩
  simp [at32, placed, State.waveD, State.updWave, Tab.valD, State.withFetchWord, h, Wave.frag?, Tab.val?, f0, placePc]

theorem witness_StepRunsDecoded : (at32 0x02010301 id).agenda = [] ∧ Issuing (at32 0x02010301 id) 902 0 ((at32 0x02010301 id).waveD 902) f0 ∧
    blocked (Served1 (at32 0x02010301 id) 902 0) ((at32 0x02010301 id).waveD 902) f0 = none ∧ f0.pc.toNat < 2 ^ 52 ∧
    bytesAt (at32 0x02010301 id) 0x1000 = some [0x01, 0x03, 0x01, 0x02] ∧ (decodeUnit [0x01, 0x03, 0x01, 0x02]).toOption = some (.sadd 3 1 2, 4) ∧
    bytesAt (at32 0x6F id) 0x1000 = some [0x6F, 0, 0, 0] ∧ (decodeUnit [0x6F, 0, 0, 0]).toOption = none ∧
    blocked (Served1 (at32 0x6F id) 902 0) ((at32 0x6F id).waveD 902) f0 = none ∧
    countingCores (at32 0x02010301 id) = [] ∧ monitoring (at32 0x02010301 id) = false ∧ (at32 0x02010301 id).replaySes = [] ∧
    blocked (st (fun w => { w with replay := [1] }) id) (wv (fun w => { w with replay := [1] }) id) f0 = some .faultReplay ∧
    bytesAt (at32 0x02010301 id) 0x1080 = none :=
  ⟨rfl, issuing_at _ (by decide), by decide +kernel, by decide, by decide +kernel⟩

/-- Turns of an event, of an instruction that is no event, of a pass and of an issue. -/
def turnsS (a : Act) : State := { at32 0x02010301 id with agenda := [{ act := a }] }
theorem witness_TurnsRun : (turnsS .pass).agenda = { act := .pass } :: [] ∧ countingCores (turnsS .pass) = [] ∧
    (Instr.isEvent .powerOnReset = true ∧ Instr.isEvent (.sadd 0 0 0) = false) ∧ ({ at32 0x02010301 id with cur := none } : State).cur = none ∧
    (at32 0x02010301 id).agenda = [] := ⟨rfl, by decide +kernel, by decide, rfl, rfl⟩

theorem witness_DecodeOfEncode : Instr.wf (.vldW (.mem 0 0 1 190) 127 127 215 true) = true ∧ Instr.wf .meshend = true := by decide
theorem witness_EncodeOfDecode : (decodeUnit [0x01, 0x03, 0x01, 0x02, 0xFF]).toOption = some (.sadd 3 1 2, 4) := by decide +kernel
theorem witness_MemoryStaysCanonical : State.Inv (at32 0x02010301 id) ∧ stepTo (at32 0x02010301 id) (fun t => Memory.wf t.mem) = true := by
  unfold State.Inv; decide +kernel
theorem witness_TablesStayOrdered : Tabled (at32 0x02010301 id) ∧ stepTo (at32 0x02010301 id) (fun t => Tab.wf t.waves) = true := by
  refine ⟨⟨by decide +kernel, ?_, ?_, by decide +kernel, by decide +kernel⟩, by decide +kernel⟩
  · intro e he
    rw [show (at32 0x02010301 id).waves = [(902, (at32 0x02010301 id).waveD 902)] by decide +kernel] at he
    obtain rfl := List.mem_singleton.mp he
    exact ⟨by decide +kernel, fun it h => by rw [show ((at32 0x02010301 id).waveD 902).intr = none by decide +kernel] at h; cases h⟩
  · intro e he
    rw [show (at32 0x02010301 id).blocks = [(901, (at32 0x02010301 id).blkD 901)] by decide +kernel] at he
    obtain rfl := List.mem_singleton.mp he
    exact ⟨by decide +kernel, by decide +kernel, fun im h => by rw [show ((at32 0x02010301 id).blkD 901).image = none by decide +kernel] at h; cases h⟩

/-- Nothing observes the placed device after its step, and fetches from it that end in a trap. -/
theorem witness_StepRunsDecoded_traps : stepTo (at32 0x02010301 id) (fun t => (countingCores t).isEmpty && !monitoring t && t.replaySes.isEmpty &&
      (t.glades.all fun e => !bwOver t e.1) && t.cmds.all fun e => e.2.pass.isNone) = true ∧
    Serving (at32 0x02010301 id) 902 0 ((at32 0x02010301 id).waveD 902) f0 ∧ 2 ^ 52 ≤ ({ f0 with pc := 0x10000000001000 } : Frag).pc.toNat ∧
    blocked (Served1 (setCtxState (csS id) 0 0 3) 0 0) (csW id) { f0 with memb := 1, emask := 1 } = none ∧
    ctxState (setCtxState (csS id) 0 0 3) 0 0 ≠ 1 ∧ (csS id).agenda = [] :=
  ⟨by decide +kernel, ⟨rfl, issuing_at _ (by decide), by decide +kernel, .inr rfl, by decide, fun h => by
      rw [show ((at32 0x02010301 id).waveD 902).control = false by decide +kernel] at h; cases h⟩,
   by decide, by decide +kernel, by decide +kernel, by decide +kernel⟩

/-- A wait of kind 2 past its limit, on a barrier whose phase is still open, in a wave with a user handler. -/
def lateH : Held := { kind := 2, a := 128, b := (rawBar (st handW id) 901 128).phase, limit := some 0, tcount := 1 }
def lateF (f : Frag) : Frag := { f with held := some lateH }
theorem witness_HandlersPipeUnitsAndTimeoutsComplete : Plain f0 ∧ Plain (inHandler f0) ∧ SrcS (wv handW id) 2 ∧
    Issuing (st handW id) 902 0 (wv handW id) f0 ∧ (wv handW id).control = false ∧ (wv handW id).intr = none ∧ (wv handW id).uhandler ≠ 0 ∧
    f0.trap.inHandler = false ∧ Issuing (st handW inHandler) 902 0 (wv handW inHandler) (inHandler f0) ∧ (inHandler f0).trap.inHandler = true ∧
    (Issuing (st meshW (holds 9 1 0 0)) 902 0 (wv meshW (holds 9 1 0 0)) (holds 9 1 0 0 f0) ∧ Plain (holds 9 1 0 0 f0) ∧
      (holds 9 1 0 0 f0).held.map (·.stage) = some 1 ∧ (wv meshW id).stage = 2 ∧ (wv meshW id).meshend = false) ∧
    ({ f0 with emask := 0 } : Frag).active = 0#32 ∧ VSrc.Ready (wv meshW id) f0 { fd := 82, cnt := 14, tie := true } ∧
    (∀ n ∈ [0, 1, 2, 3], Resolving (inPassS resW id (passP n)) 902 0 (wv resW id) f0 (passCmd (passP n)) (passP n)) ∧
    DstVReady (wv resW id) f0 (88, 8, false) ∧ ((∃ n ∈ [0, 1, 2, 3], oldestTile (passP n) (wv resW id).blk = none ∧ roundOver (passP n) = true) ∧
      ∃ n ∈ [0, 1, 2, 3], (oldestTile (passP n) (wv resW id).blk).map (fun e => decide (e.2.st ≠ 1)) = some true) ∧
    (0 < (passCmd (passP 2)).ncolor ∧ VSrc.Ready (wv resW id) f0 { fd := 95, cnt := (passCmd (passP 2)).colourBytes 0 / 4, tie := true } ∧
      DstVReady (wv resW id) f0 (88, (passCmd (passP 2)).colourBytes 0 / 4, false)) ∧
    ((st handW lateF).wave? 902 = some (wv handW lateF) ∧ (wv handW lateF).frag? 0 = some (lateF f0) ∧ Plain (lateF f0) ∧
      (lateF f0).held = some lateH ∧ lateH.kind ≤ 5 ∧ lateH.due (st handW lateF).now = true ∧ (lateF f0).halt = none ∧
      waitMet (st handW lateF) 902 (wv handW lateF) lateH = false) := by
  have e : (wv handW id).sEmpty = [] := by decide +kernel
  obtain ⟨-, -, -, -, -, -, -, hm, -, -, -, hv, hr, hd, -, -, -, -, -, -, -, hn, -, hw, -⟩ := witness_RenderPassUnits
  have v3 : (wv resW id).vEmpty = [] := by decide +kernel
  have sv : saveRefuses (wv resW id) = false := by decide +kernel
  exact ⟨⟨rfl, rfl, rfl, rfl⟩, ⟨rfl, rfl, rfl, rfl⟩, srcS_of e (by decide), issuing_st _ _, by decide +kernel, by decide +kernel, by decide +kernel, rfl,
    issuing_st _ _, rfl, ⟨issuing_st _ _, ⟨rfl, rfl, rfl, rfl⟩, rfl, by decide +kernel, by decide +kernel⟩, by decide, hv, hr, hd,
    by decide +kernel, ⟨hn, hw, ⟨fun h => by simp at h, by decide +kernel, by decide +kernel⟩, fullV_of v3 _ _, fun h => by simp [sv] at h⟩,
    ⟨(issuing_st handW lateF).2.1, frag_wv _ _, ⟨rfl, rfl, rfl, rfl⟩, rfl, by decide, by decide +kernel, rfl, by simp [waitMet, lateH]; rfl⟩⟩

/-! ## Further cases of the statements -/

/-- Two more entries, one of lane 31 and a join record; and a core whose table has `n` entries left beside the wave's own. -/
def joinR : JoinRec := { memb := 0x80000001, join := 0x1010 }
def joinW (parked : Option Nat) (w : Wave) : Wave :=
  { w with ents := [(1, .frag { memb := 1, emask := 1, pc := 0x1010, parked := parked }), (2, .join joinR)] }
def joinF (f : Frag) : Frag := { f with memb := 0x80000000, emask := 0x80000000, rejoin := some 0x1010 }
def tightS (n : Nat) (g : Frag → Frag) : State := { st splitW g with waves := Tab.put (st splitW g).waves 931 { core := 0, rsv := 2047 - n } }
theorem issuing_tight (n : Nat) (g : Frag → Frag) : Issuing (tightS n g) 902 0 (wv splitW g) (g f0) := by
  obtain ⟨h1, h2, h3⟩ := issuing_st splitW g
  exact ⟨rfl, by rw [State.wave?, show (tightS n g).waves = Tab.put (st splitW g).waves 931 { core := 0, rsv := 2047 - n } from rfl,
    Tab.val?_put_ne _ _ (by decide)]; exact h2, h3⟩
def pendF (f : Frag) : Frag := { f with pending := some 0x2000 }

theorem witness_DivergentBranch_records : Issuing (st splitW pendF) 902 0 (wv splitW pendF) (pendF f0) ∧
    2 ≤ freeEntries (st splitW pendF) (wv splitW pendF) ∧ Tab.wf (wv splitW pendF).ents = true ∧ branchTarget f0.pc 8#16 ≠ 0x2000 ∧
    f0.pc + 4 ≠ 0x2000 ∧ (Issuing (tightS 1 id) 902 0 (wv splitW id) f0 ∧ freeEntries (tightS 1 id) (wv splitW id) = 0 ∧
      (none : Option DWord) ≠ some (branchTarget f0.pc 8#16)) ∧
    (Issuing (tightS 2 pendF) 902 0 (wv splitW pendF) (pendF f0) ∧ freeEntries (tightS 2 pendF) (wv splitW pendF) = 1) :=
  ⟨issuing_st _ _, by decide +kernel, by decide +kernel, by decide, by decide, ⟨issuing_tight _ _, by decide +kernel⟩,
   issuing_tight _ _, by decide +kernel⟩

/-- A deferral record of the other lanes, whose rejoin address is the target. -/
def deferF (merge : Bool) (pc : DWord) (f : Frag) : Frag :=
  { f with memb := 1, emask := 1, stack := [{ merge := merge, memb := 2, emask := 2, pc := pc, rejoin := some 0x1010 }] }
theorem witness_Rejoining : branchTarget f0.pc 8#24 = 0x1010 ∧ Issuing (st id (deferF false 0x1004)) 902 0 (wv id (deferF false 0x1004)) (deferF false 0x1004 f0) ∧
    (0x1004 : DWord) ≠ 0x1010 ∧ (deferF false 0x1004 f0).rejoin ≠ some 0x1004 ∧
    Issuing (st id (deferF true 0x1010)) 902 0 (wv id (deferF true 0x1010)) (deferF true 0x1010 f0) ∧ (deferF true 0x1010 f0).rejoin ≠ some 0x1010 ∧
    (∀ p, Issuing (st (joinW p) joinF) 902 0 (wv (joinW p) joinF) (joinF f0) ∧ (wv (joinW p) joinF).joins = [(2, joinR)] ∧
      (wv (joinW p) joinF).frags = [(0, joinF f0), (1, { memb := 1, emask := 1, pc := 0x1010, parked := p })] ∧ Tab.wf (wv (joinW p) joinF).ents = true) ∧
    (joinF f0).parked = none ∧ (joinF f0).stack = [] ∧ (joinF f0).memb &&& ~~~joinR.memb = 0#32 ∧ (joinF f0).memb ||| 1 = joinR.memb ∧
    (joinF f0).memb ≠ joinR.memb :=
  ⟨by decide, issuing_st _ _, by decide, by decide, issuing_st _ _, by decide, fun p => ⟨issuing_st _ _, rfl, rfl, rfl⟩, rfl, rfl, by decide,
   by decide, by decide⟩

/-- Deliveries that save, restore and step; one that selects no fragment; s1 to s3 the values their HDONE takes. -/
def delivW (cause : Nat) (restore : Bool) (w : Wave) : Wave :=
  withS [(1, 1), (2, 2), (3, 3)] { w with intr := some { cause := cause, restore := restore, hsel := 1, ents := [(0, .frag f0)] } }
theorem witness_SystemRegisters_deliveries :
    (∀ x ∈ ([(0x18, false, 1), (0x18, true, 2), (0x19, false, 3)] : List (Nat × Bool × BitVec 8)),
      levelOf (st (delivW x.1 x.2.1) id) (wv (delivW x.1 x.2.1) id) = 1 ∧
      ((wv (delivW x.1 x.2.1) id).intr.all fun it =>
        opS (st (delivW x.1 x.2.1) id) 902 (wv (delivW x.1 x.2.1) id) f0 x.2.2 == doneValue it &&
        opS (st (delivW x.1 x.2.1) id) 902 (wv (delivW x.1 x.2.1) id) f0 0 != doneValue it && (hiddenFrags it)[it.hsel]?.isNone) = true) ∧
    InRange 1 0x7F ∧ 0x7F ∉ (userRegs (st intrW id) (wv intrW id) f0 ++ handlerRegs (st intrW id) (wv intrW id)).map (·.1) ∧ 0x72 ∈ sysFixed :=
  ⟨by decide +kernel, by unfold InRange; decide, by decide +kernel, by decide⟩

/-- The stream at scratch address 0: a block of zeros, and blocks with each reason that a head alone can have. -/
def strS (head : Nat) : State := scrPut (st xbarW id) 901 0 0 8 head
def strB (head : Nat) : Blk := streamBlk (strS head) (wv xbarW id) 0 [] 0
theorem fields_strB : (strB 0x60080000).fieldsZero ∧ (strB 0x600C0000).fieldsZero ∧ (strB 0x40040000).fieldsZero ∧ ¬ (strB 0x60080001).fieldsZero := by
  refine ⟨?_, ?_, ?_, fun h => absurd (h.2.1 (.inr (by decide +kernel))) (by decide +kernel)⟩ <;>
    exact ⟨by decide +kernel, by decide +kernel, by decide +kernel, by decide +kernel⟩
theorem counts_strB : (strB 0x60080000).countsFit ∧ (strB 0x600C0000).countsFit ∧ ¬ (strB 0x40040000).countsFit := by
  simp only [Blk.countsFit]; decide +kernel
theorem witness_DecoderUnits_blocks : GoodBlks (strS 0x60080000) (wv xbarW id) 0 1 [8] ∧
    ScratchOk (strS 0x600C0000) (wv xbarW id) (strB 0x600C0000).a (strB 0x600C0000).front 4 ∧
    (strB 0x80000000).Bad 0 ∧ (strB 0x60080001).Bad 1 ∧ (strB 0x40040000).Bad 2 ∧ (strB 0x600C0000).Bad 3 ∧
    FullV (wv xbarW id) (vecNo f0 88) 8 ∧ VecIn (wv xbarW id) (vecNo f0 88) 8 false := by
  obtain ⟨g1, g2, g3, g4⟩ := fields_strB
  obtain ⟨c1, c2, c3⟩ := counts_strB
  refine ⟨⟨by decide, fun i hi => ?_⟩, by unfold ScratchOk; decide +kernel, .inl (by decide +kernel), .inr ⟨by decide +kernel, .inl ⟨rfl, g4⟩⟩,
    .inr ⟨by decide +kernel, .inr ⟨g3, .inl ⟨rfl, c3⟩⟩⟩, .inr ⟨by decide +kernel, .inr ⟨g2, .inr ⟨c2, .inl (by decide +kernel)⟩⟩⟩,
    fullV_of (by decide +kernel) _ _, fun h => by simp at h, by decide +kernel⟩
  obtain rfl : i = 0 := by omega
  exact ⟨⟨by decide +kernel, g1, c1, by decide +kernel⟩, by decide +kernel, by unfold ScratchOk; decide +kernel⟩

/-- The page of `memS` copy-on-write; a fragment with no active lane. -/
def cowM : State := (memS lane31).updCore 0 fun c => { c with tlb := [{ glade := 0, ctx := 0, page := { pageRW with cow := true } }] }
def noneF (f : Frag) : Frag := { f with memb := 0x80000000, emask := 0 }
theorem witness_MemoryUnits_corners : Issuing cowM 902 0 (wv memW lane31) (lane31 f0) ∧
    tlbLookup cowM 0 0 0 (scalarVa cowM 902 (wv memW lane31) (lane31 f0) .none 2 0) = some { pageRW with cow := true } ∧ (wv memW lane31).intr = none ∧
    (∀ scr cls, MemIssuing (memS noneF) 902 0 (wv memW noneF) (noneF f0) scr cls) ∧ (noneF f0).active = 0#32 ∧
    AddrsOk (memS noneF) 902 (wv memW noneF) (noneF f0) false 4 aWrite (fun _ => 0) (fun _ => 0) ∧
    LaneOk (memS lane31) 902 (wv memW lane31) false 4 aWrite 0x20000 ∧ ¬ ScratchOk (memS lane31) (wv memW lane31) 65536 4 4 :=
  ⟨issuing_of memW lane31 rfl rfl, by decide +kernel, by decide +kernel,
   fun _ _ => ⟨issuing_of memW noneF rfl rfl, by unfold Unwatched; decide +kernel,
     by have h : (memS noneF).ops = [] := by decide +kernel
        simp [Room, outstanding, h], .inr (by unfold MeshRoom; decide +kernel)⟩,
   by decide, fun l h a => absurd a (by revert h l; decide +kernel), ⟨0x40000, translated_of pageRW (by decide +kernel)⟩, by unfold ScratchOk; decide +kernel⟩

/-- A core with two lines and room for none: bytes 8 to 15 of the first and byte 0 of the second are dirty. -/
def twoL1 : State := fullL1.updCore 0 fun c => { c with l1 := [line0, { line0 with va := 0x20080, home := 0x40080, dirty := 1 }] }
theorem witness_GlobalReadsAndWrites_evicted : l1Lines twoL1 0 < (twoL1.coreSt 0).l1.length ∧
    ((twoL1.coreSt 0).l1.Pairwise fun a b => ¬ (a.glade = b.glade ∧ a.ctx = b.ctx ∧ a.va = b.va)) ∧ (∀ e ∈ (twoL1.coreSt 0).l1, e.va % 128 = 0) ∧
    (0x40000 ≤ 0x40008 ∧ line0.dirty.getLsbD (0x40008 - line0.home) = true) ∧ Memory.wf twoL1.mem = true :=
  by decide +kernel

/-- An atomic of scope core at a dirty word of the core's line, and one that returns a value to two lanes. -/
def atCore : Op := { atSys with scope := 0, accs := [{ va := 0x20008, home := 0x40008, data := 7 }] }
def atVec : Op := { atSys with cls := some cAT, dst := range 5 1, active := 0x80000001,
                               accs := [{ va := 0x20080, home := 0x40080, data := 7 }, { lane := 31, va := 0x20080, home := 0x40080, data := 9 }] }
theorem witness_AtomicUnits_core : (∀ o ∈ [atCore, atVec], (withAt lineS 950 o).op? 950 = some o ∧ inOrder (withAt lineS 950 o) 950 o = true ∧
      entryTurn (withAt lineS 950 o) 950 o = true ∧ o.meetsMark (withAt lineS 950 o) = false ∧ bwHeld (withAt lineS 950 o) o = false ∧ o.pinCore = none) ∧
    isFar 0x40008 = false ∧ (∀ w, OpUnwatched lineS w atCore) ∧ lineFind lineS 0 0 0 0x20008 = some line0 ∧ line0.home + 0x20008 % 128 = 0x40008 ∧
    (lineS.coreSt 0).l1.length < l1Lines lineS 0 ∧ lineFind (withAt lineS 950 atVec) 0 0 0 (lineOf 0x20080) = none ∧
    (atVec.accs.map (·.lane)).Nodup ∧ Tab.wf (wv memW lane31).vregs = true :=
  ⟨by decide +kernel, by decide, fun _ => .inr (.inl rfl), by decide +kernel, by decide, by decide +kernel, by decide +kernel, by decide, by decide +kernel⟩

/-- A queue of four records that holds four, one that holds none, one whose header is not a queue's, and requests for geometries. -/
def tqCount (geom tail : Nat) : State := { tqBase id with mem := setMem (setMem (tqBase id).mem 0x40000 4 geom) 0x40008 4 tail }
theorem witness_TaskQueues_corners : IsQueue (tqCount (7 * 2 ^ 28 + 4) 3) 0x40000 8 4 0xFFFFFFFF 3 ∧ 4 ≤ (3 + 2 ^ 32 - 0xFFFFFFFF) % 2 ^ 32 ∧
    IsQueue (tqCount (7 * 2 ^ 28 + 4) 0xFFFFFFFF) 0x40000 8 4 0xFFFFFFFF 0xFFFFFFFF ∧
    (∀ rw cap head tail, ¬ IsQueue (tqCount 3 0) 0x40000 rw cap head tail) ∧ (geomOk 3 = false ∧ 192 < 191 + 8) ∧
    areaOk (tqBase id) 0 0 (0x2FFC0 + 64) (4 * 4 * 8) true = false :=
  ⟨⟨by decide, by decide, ⟨2, by decide⟩, by decide +kernel, by decide +kernel, by decide +kernel, by decide +kernel⟩, by decide,
   ⟨by decide, by decide, ⟨2, by decide⟩, by decide +kernel, by decide +kernel, by decide +kernel, by decide +kernel⟩,
   fun rw cap head tail h => by
     obtain ⟨-, hr, ⟨n, hn, rfl⟩, h1, -⟩ := h
     have e : getMem (tqCount 3 0).mem 0x40000 4 = 3 := by decide +kernel
     have no : ∀ r < 9, ∀ n < 24, 3 ≠ (r - 1) * 2 ^ 28 + 2 ^ n := by decide +kernel
     exact no rw (by omega) n hn (e ▸ h1),
   by decide, by decide +kernel⟩

/-- Namespace index 0 of glade 0, whose shade queue of four records stands at `va` and whose counts are `head` and `tail`; the glade
holds `used` entries of its `quota`. -/
def alcS (quota used geom va tail : Nat) : State :=
  let s := setReg (setReg (tqBase id) .cnp (nsOff 0) 0x80000007) .cnp (nsOff 0 + 8) (BitVec.ofNat 32 va)
  let s := setReg (setReg s (.gld 0) 0x2200 (BitVec.ofNat 32 quota)) (.gld 0) 0x2204 (BitVec.ofNat 32 used)
  { s with mem := setMem (setMem s.mem 0x40000 4 geom) 0x40008 4 tail }
def alcV (e : Nat) : State := { alcS 0 1 (3 * 2 ^ 28 + 4) 0x20000 1 with canopy := [(e, { st := 2 })] }
theorem alc_ent (q u g v t e : Nat) : cnpEnt (alcS q u g v t) e = {} := rfl
theorem alcV_ent (e i : Nat) : cnpEnt (alcV e) i = if i = e then { st := 2 } else {} := by
  by_cases h : i = e
  · simp [h, cnpEnt, alcV, Tab.valD, Tab.val?]
  · simp [h, cnpEnt, alcV, Tab.valD, Tab.val?, Ne.symm h]
theorem shadeQueue_alc (tail : Nat) (h : tail = 1 ∨ tail = 3) : ShadeQueue (alcS 5 0 (3 * 2 ^ 28 + 4) 0x20000 tail) 0 0x40000 0x20000 4 0xFFFFFFFF tail := by
  obtain rfl | rfl := h <;>
    exact ⟨by decide +kernel, by decide +kernel, by unfold QueueMapped; decide +kernel, by decide +kernel,
      by decide, by decide, ⟨2, by decide⟩, by decide +kernel, by decide +kernel, by decide +kernel, by decide +kernel⟩

theorem witness_CanopyAllocation : (∀ e, FreeWay (alcS 5 0 (3 * 2 ^ 28 + 4) 0x20000 1) 0 e e) ∧
    (∀ set e, ¬ FreeWay (alcS 0 0 (3 * 2 ^ 28 + 4) 0x20000 1) 0 set e) ∧ (∀ set e, ¬ MayEvict (alcS 0 0 (3 * 2 ^ 28 + 4) 0x20000 1) 0 set e) ∧
    (∀ e, Victim (alcV e) 0 e e ∧ (cnpEnt (alcV e) e).owner < 64 ∧ 1 ≤ cnpUsed (alcV e) (cnpEnt (alcV e) e).owner ∧ Tab.wf (alcV e).canopy = true) ∧
    nsOwner (alcS 5 0 (3 * 2 ^ 28 + 4) 0x20000 1) 0 = 0 ∧ Tab.wf (alcS 5 0 (3 * 2 ^ 28 + 4) 0x20000 1).regs = true ∧
    Memory.wf (alcS 5 0 (3 * 2 ^ 28 + 4) 0x20000 1).mem = true ∧
    ShadeQueue (alcS 5 0 (3 * 2 ^ 28 + 4) 0x20000 1) 0 0x40000 0x20000 4 0xFFFFFFFF 1 ∧ (1 + 2 ^ 32 - 0xFFFFFFFF) % 2 ^ 32 < 4 ∧
    ShadeQueue (alcS 5 0 (3 * 2 ^ 28 + 4) 0x20000 3) 0 0x40000 0x20000 4 0xFFFFFFFF 3 ∧ (3 + 2 ^ 32 - 0xFFFFFFFF) % 2 ^ 32 = 4 ∧
    queueHome (alcS 5 0 (3 * 2 ^ 28 + 4) 0x50000 1) 0 = none ∧
    (queueHome (alcS 5 0 3 0x20000 1) 0 = some 0x40000 ∧ ∀ cap head tail, ¬ IsQueue (alcS 5 0 3 0x20000 1) 0x40000 4 cap head tail) := by
  have q : cnpUsed (alcS 5 0 (3 * 2 ^ 28 + 4) 0x20000 1) 0 < cnpQuota (alcS 5 0 (3 * 2 ^ 28 + 4) 0x20000 1) 0 := by decide +kernel
  have q0 : cnpQuota (alcS 0 0 (3 * 2 ^ 28 + 4) 0x20000 1) 0 = 0 := by decide +kernel
  have qv : ∀ e, cnpQuota (alcV e) 0 = 0 ∧ cnpUsed (alcV e) 0 = 1 := fun e =>
    (by decide +kernel : cnpQuota (alcS 0 1 (3 * 2 ^ 28 + 4) 0x20000 1) 0 = 0 ∧ cnpUsed (alcS 0 1 (3 * 2 ^ 28 + 4) 0x20000 1) 0 = 1)
  refine ⟨fun e => ⟨q, le_refl _, by omega, rfl, fun i a b => absurd a (by omega)⟩, fun set e h => absurd h.1 (by omega),
    fun set e h => absurd h.2.2.1 (by simp [alc_ent]), fun e => ?_, by decide +kernel, by decide +kernel, by decide +kernel, shadeQueue_alc 1 (.inl rfl), by decide,
    shadeQueue_alc 3 (.inr rfl), by decide, by decide +kernel, by decide +kernel, fun cap head tail h => ?_⟩
  · have he := alcV_ent e
    refine ⟨⟨.inl (by rw [(qv e).1]; exact Nat.zero_le _), ⟨le_refl _, by omega, by simp [he], fun _ => by simp [he]⟩, fun i hi => ?_⟩, by simp [he],
      by simp [he, (qv e).2], rfl⟩
    have := hi.2.2.1
    rw [he] at this
    split at this
    · subst i; exact .inr ⟨rfl, le_refl _⟩
    · simp at this
  · have h1 := h.2.2.2.1
    have e : getMem (alcS 5 0 3 0x20000 1).mem 0x40000 4 = 3 := by decide +kernel
    omega

/-- Lanes 30 and 31 ask for the same tile; a fill whose mask a sweep has met since its task. -/
def lookTwo : Op := { lookOp with active := 0xC0000000, stage := 1, accs := [{ lane := 30, va2 := 5 }, { lane := 31 }] }
def sweptS : State := { cnpS with lastSweep := [(0, 1)] }
theorem witness_CanopyServices_swept : lookTwo.accs[1]? = some { lane := 31 } ∧ lookTwo.accs[0]? = some { lane := 30, va2 := 5 } ∧
    lkKey 7 0 0 = lkKey 7 ({ lane := 31 } : Acc).data 0 ∧
    (0 < 32 ∧ (1#32).getLsbD 0 = true ∧ 1 ≤ ((Tab.valD sweptS.lastSweep (32 * 0 + 0) 0).toNat + 2 ^ 32 - cnpE.swq) % 2 ^ 32 ∧
      ((Tab.valD sweptS.lastSweep (32 * 0 + 0) 0).toNat + 2 ^ 32 - cnpE.swq) % 2 ^ 32 < 2 ^ 31) ∧ writeRights sweptS 0 7 = true ∧
    cnpE.owner < 64 ∧ nsFind sweptS 7 = some 0 :=
  ⟨rfl, rfl, rfl, by decide +kernel, by decide +kernel, by decide, by decide +kernel⟩

/-- A `trace` whose root stands at an address, in a context that maps a page of zeros at 0x20000; one line of the page may be marked. -/
def trOpAt (root : Nat) : Op := { traceOp with args := [root] }
def trS (root : Nat) (marks : List Nat) : State := { withAt (tqBase lane31) 950 (trOpAt root) with mem := [], marked := marks }
theorem traceReady_trS (root : Nat) (marks : List Nat) : TraceReady (trS root marks) 950 (trOpAt root) := by
  have o : (tqBase lane31).ops = [] := by decide +kernel
  have h : bwOver (tqBase lane31) 0 = false := by decide +kernel
  exact ⟨by simp [trS, withAt, State.op?, Tab.val?_put_self], rfl, rfl, rfl, rfl, h, fun j p hj => by simp [trS, withAt, o, Tab.put] at hj; omega⟩
/-- A box node of zeros has no children. -/
theorem walk_zeros (rd : Reader) (order : Nat → Nat) (r root : Nat) (ws : List Word) (h : rd root 32 = some ws) (z : ∀ i, ws.getD i 0 = 0)
    (a : root % 128 = 0) (b : root < 2 ^ 52) : traceRay rd order r root = { boxes := 1, read := [root] } := by
  have f : ∀ l : List Nat, l.foldl (fun x _ => x) ({ boxes := 1, read := [root] } : Walker) = { boxes := 1, read := [root] } := by
    intro l; induction l with
    | nil => rfl
    | cons i t ih => exact ih
  rw [traceRay, if_neg (by simp [a]; omega), show (64 : Nat) = 63 + 1 from rfl, visitBox, if_neg (by decide), h]
  simp only [z, badRef, refType, refCount, bitsOf]
  simp [f]
theorem witness_RayInstructions_walks :
    (∀ marks, TraceReady (trS 0x20000 marks) 950 (trOpAt 0x20000)) ∧ TraceReady (trS 0x50000 []) 950 (trOpAt 0x50000) ∧
    (laneWalk (trS 0x20000 []) 950 (trOpAt 0x20000) { lane := 31, data := goodRay }).read = [0x20000] ∧
    readsMark (trS 0x20000 [0x40000]) (trOpAt 0x20000) [0x20000] = true ∧ readsMark (trS 0x20000 []) (trOpAt 0x20000) [0x20000] = false ∧
    (laneWalk (trS 0x20000 []) 950 (trOpAt 0x20000) { lane := 31, data := goodRay }).miss = none ∧
    (laneWalk (trS 0x50000 []) 950 (trOpAt 0x50000) { lane := 31, data := goodRay }).miss = some 0x50000 ∧
    (trS 0x20000 []).wave? 902 = some (wv memW lane31) ∧ OpUnwatched (trS 0x20000 []) (wv memW lane31) (trOpAt 0x20000) ∧
    Tab.wf (wv memW lane31).hits = true ∧ (trOpAt 0x20000).dst = range 90 4 ∧ ¬ TracedLater (trS 0x20000 []) 950 (trOpAt 0x20000) 31 := by
  have o : (tqBase lane31).ops = [] := by decide +kernel
  have h : rayReader (trS 0x20000 []) (trOpAt 0x20000) 0x20000 32 = some (List.replicate 32 0) := by decide +kernel
  have w : laneWalk (trS 0x20000 []) 950 (trOpAt 0x20000) { lane := 31, data := goodRay } = { boxes := 1, read := [0x20000] } := by
    rw [laneWalk, if_neg (by decide +kernel)]
    exact walk_zeros _ _ _ _ _ h (fun i => by rw [List.getD_eq_getElem?_getD, List.getElem?_replicate]; split <;> rfl) (by decide) (by decide)
  exact ⟨traceReady_trS _, traceReady_trS _ _, by rw [w], by decide +kernel, by decide +kernel, by rw [w], by decide +kernel,
    (issuing_of (s := tqBase lane31) memW lane31 rfl rfl).2.1, .inr (.inl rfl), by decide +kernel, rfl,
    fun ⟨j, p, hj, hlt, _⟩ => by simp [trS, withAt, o, Tab.put] at hj; omega⟩

/-- A box node whose first child is a run of one leaf, or an illegal reference, and the leaf: a triangle at x = 0.5 that the ray meets. -/
def rayNode (kind : Word) : List Word := [0x3F000000, 0xBF800000, 0xBF800000, 0x3F000000, 0x3F800000, 0x3F800000] ++ List.replicate 18 0 ++
  [0x1080, kind, 0, 0, 0, 0, 0, 0]
def rayLeaf : List Word := [0x3F000000, 0xBF800000, 0xBF800000, 0x3F000000, 0x3F800000, 0xBF800000, 0x3F000000, 0, 0x3F800000, 1, 2, 0]
def rayMem (kind : Word) : Reader := fun va _ => if va = 0x1000 then some (rayNode kind) else if va = 0x1080 then some rayLeaf else none
/-- A leaf beside the ray. -/
def missLeaf : List Word := [0x3F000000, 0x3F800000, 0x3F800000, 0x3F000000, 0x40000000, 0x3F800000, 0x3F000000, 0x3F800000, 0x40000000, 1, 2, 0]

theorem witness_Rays : badRay goodRay = false ∧ (∀ i, i < 3 → rayInf goodRay (4 + i) = false) ∧ (∀ i, i < 9 → finite (rayLeaf.getD i 0) = true) ∧
    (∀ i, i < 3 → (rayAlong goodRay i).natAbs ≤ (rayAlong goodRay 0).natAbs) ∧ (leafHit goodRay rayLeaf).isSome = true ∧
    (leafHit goodRay missLeaf).isNone = true ∧
    (∀ i, i < 6 → finite ((childBox (rayNode 0x80000000) 0).getD i 0) = true) ∧ finite (rayWord goodRay 3) = true ∧
    (Machine.fx (rayWord goodRay 3) ≤ (1 / 2 : ℚ) * 2 ^ 149 ∧ finite (rayWord goodRay 7) = true ∧ (1 / 2 : ℚ) * 2 ^ 149 ≤ Machine.fx (rayWord goodRay 7)) ∧
    (∀ i, i < 3 → Machine.fx ((childBox (rayNode 0x80000000) 0).getD i 0) ≤ rayFrom goodRay i + (1 / 2 : ℚ) * rayAlong goodRay i ∧
      rayFrom goodRay i + (1 / 2 : ℚ) * rayAlong goodRay i ≤ Machine.fx ((childBox (rayNode 0x80000000) 0).getD (3 + i) 0)) ∧
    (unpack FP32 (0x7FC00000#32).toNat).isNan = true ∧ Machine.fx (0xBF800000#32) < Machine.fx (0x3F800000#32) := by
  have ax : rayAlong goodRay 0 = 2 ^ 149 ∧ rayAlong goodRay 1 = 0 ∧ rayAlong goodRay 2 = 0 := by decide +kernel
  have fr : ∀ i, i < 3 → rayFrom goodRay i = 0 := by decide +kernel
  have lo : Machine.fx ((childBox (rayNode 0x80000000) 0).getD 0 0) = 2 ^ 148 ∧ Machine.fx ((childBox (rayNode 0x80000000) 0).getD 1 0) = -2 ^ 149 ∧
      Machine.fx ((childBox (rayNode 0x80000000) 0).getD 2 0) = -2 ^ 149 := by decide +kernel
  have hi : Machine.fx ((childBox (rayNode 0x80000000) 0).getD 3 0) = 2 ^ 148 ∧ Machine.fx ((childBox (rayNode 0x80000000) 0).getD 4 0) = 2 ^ 149 ∧
      Machine.fx ((childBox (rayNode 0x80000000) 0).getD 5 0) = 2 ^ 149 := by decide +kernel
  have t0 : Machine.fx (rayWord goodRay 3) = 0 ∧ Machine.fx (rayWord goodRay 7) = 2 ^ 149 := by decide +kernel
  refine ⟨by decide +kernel, by decide +kernel, by decide +kernel, by decide +kernel, by decide +kernel, by decide +kernel, by decide +kernel,
    by decide +kernel, ⟨by rw [t0.1]; norm_num, by decide +kernel, by rw [t0.2]; norm_num⟩, fun i h => ?_, by decide +kernel, by decide +kernel⟩
  rw [fr i h]
  obtain rfl | rfl | rfl : i = 0 ∨ i = 1 ∨ i = 2 := by omega
  · rw [ax.1, lo.1, hi.1]; norm_num
  · rw [ax.2.1, lo.2.1, hi.2.1]; norm_num
  · rw [ax.2.2, lo.2.2, hi.2.2]; norm_num

/-- The traversal of the node finds the leaf; the other one meets the illegal reference. -/
theorem witness_RayTraversal : (traceRay (rayMem 0x80000000) (fun _ => 0) goodRay 0x1000).bad = false ∧
    (traceRay (rayMem 0x80000000) (fun _ => 0) goodRay 0x1000).openVal = false ∧ (traceRay (rayMem 0x80000000) (fun _ => 0) goodRay 0x1000).miss = none ∧
    ((traceRay (rayMem 0x80000000) (fun _ => 0) goodRay 0x1000).hit.map (·.2)) = some (0x1080, rayLeaf) ∧
    LeafOn (rayMem 0x80000000) 0x1000 [0] 0x1080 rayLeaf ∧
    (∀ g, boxHit goodRay (childBox (rayNode 0x80000000) 0) ((traceRay (rayMem 0x80000000) (fun _ => 0) goodRay 0x1000).tstar goodRay) g = true) ∧
    ((leafHit goodRay rayLeaf).all fun h => fle (rayWord goodRay 3) h.t && fle h.t (rayWord goodRay 7)) = true ∧
    (traceRay (rayMem 0xC0000000) (fun _ => 0) goodRay 0x1000).bad = true :=
  ⟨by decide +kernel, by decide +kernel, by decide +kernel, by decide +kernel,
   ⟨0, [], rayNode 0x80000000, 0, rfl, by decide +kernel, by decide +kernel, by decide, by decide +kernel, by decide +kernel⟩, by decide +kernel,
   by decide +kernel, by decide +kernel⟩

/-- A grid whose team table stands at 0x20080: its one entry lists one member at an address. -/
def teamDesc : List Word := ((gridDesc 0 0).set 12 0x20080).set 14 1
def teamCmd (st : CmdSt) : Cmd := { rdCmd 0x20000 with desc := teamDesc, st := st, teams := if st = .checked then [[(0, 0)]] else [] }
def tableS (members count : Nat) : State := { withNew (teamCmd .queued) with mem := setMem [] 0x40080 16 (members + 2 ^ 64 * count) }
def missVa : Fetched Nat → Nat
  | .miss a => a
  | _ => 0
def okVal : Fetched Nat → Option Nat
  | .ok x => some x
  | _ => none
theorem ok_of {x : Fetched Nat} {v : Nat} (h : okVal x = some v) : x = .ok v := by
  cases x <;> simp_all [okVal]
theorem miss_of {x : Fetched Nat} {v : Nat} (h : missVa x = v) (n : v ≠ 0) : x = .miss v := by
  cases x <;> simp_all [missVa]
theorem entry_tableS (members count : Nat) (h : (members, count) ∈ [(0x20100, 1), (0x20100, 0), (0x50000, 1)]) :
    fetchCtx (tableS members count) 0 0 0x20080 16 = .ok (members + 2 ^ 64 * count) := by
  simp only [List.mem_cons, Prod.mk.injEq, List.not_mem_nil, or_false] at h
  obtain ⟨rfl, rfl⟩ | ⟨rfl, rfl⟩ | ⟨rfl, rfl⟩ := h <;> exact ok_of (by decide +kernel)

theorem witness_DescriptorChecks_valid : GridValid (tableS 0x20100 1) (teamCmd .queued) ∧ ¬ GridValid (tableS 0x20100 1) { teamCmd .queued with desc := [] } ∧
    dq (teamCmd .queued) 0x30 = 0x20080 ∧ df (teamCmd .queued) 0x38 8 0 = 1 ∧
    TableHolds (tableS 0x20100 1) 0 0x20080 1 [[(0, 0)]] ∧ (∀ x y, TableHolds (tableS x y) 0 0x20080 0 []) ∧ EntryBad (tableS 0x20100 0) 0 0x20080 0 ∧
    EntryMissing (tableS 0x50000 1) 0 0x20080 0 0x50000 ∧ TeamsValid (teamCmd .queued) [[(0, 0)]] ∧ ¬ TeamsValid (teamCmd .queued) [[(5, 0)]] := by
  have v : EntryValid (0x20100 + 2 ^ 64 * 1) ∧ EntryValid (0x50000 + 2 ^ 64 * 1) := by unfold EntryValid; decide
  refine ⟨⟨by decide +kernel, by decide +kernel, by decide +kernel, by decide +kernel, by unfold LegalFmt; decide +kernel, by unfold AddrField; decide +kernel,
    by unfold AddrField; decide +kernel, by decide +kernel, by decide +kernel⟩, fun h => absurd h.version (by decide), by decide, by decide, ⟨rfl, fun i t h => ?_⟩,
    fun x y => ⟨rfl, fun i t h => by simp at h⟩, .inr ⟨_, entry_tableS _ _ (by decide), .inl (by unfold EntryValid; decide)⟩,
    .inr ⟨_, entry_tableS _ _ (by decide), v.2, miss_of (by decide +kernel) (by decide)⟩, by unfold TeamsValid; decide +kernel, by unfold TeamsValid; decide +kernel⟩
  obtain rfl : i = 0 := by
    have := List.getElem?_eq_some_iff.mp h
    obtain ⟨hi, -⟩ := this
    simpa using hi
  obtain rfl : [(0, 0)] = t := by simpa using h
  exact ⟨_, 0, entry_tableS _ _ (by decide), v.1, ok_of (by decide +kernel), rfl, fun j m hj => by
    match j with
    | 0 => simpa using hj.symm
    | n + 1 => simp at hj⟩

/-- A cooperative grid of more blocks than fit. -/
def bigCoop : Cmd := { chkCmd .checked with desc := ((gridDesc 0 0).set 0 0x12010100).set 4 0x0FFF0001 }
theorem witness_DescriptorChecks_residency : Placeable (withNew (teamCmd .checked)) (teamCmd .checked) 0 1 ∧ ¬ Placeable (withNew bigCmd) bigCmd 0 1 ∧
    ((0, 0) ∈ [(0, 0)] ∧ [(0, 0)] ∈ (teamCmd .checked).teams ∧ TeamGroup (teamCmd .checked) 0 [0]) ∧ replayAwaits (withNew (teamCmd .checked)) 0 910 0 = false ∧
    (df bigCoop 0 25 25 = 1 ∧ Placeable (withNew bigCoop) bigCoop 0 1 ∧ ¬ Placeable (withNew bigCoop) bigCoop 0 4095) := by
  refine ⟨by unfold Placeable; decide +kernel, by unfold Placeable; decide +kernel, ⟨by decide, by decide, by decide, by decide, ?_, fun l h _ x hx => ?_⟩,
    by decide +kernel, by decide, by unfold Placeable; decide +kernel, by unfold Placeable; decide +kernel⟩
  · rintro x y hx ⟨t, m, n, ht, hm, hn, _, rfl⟩
    obtain rfl : t = [(0, 0)] := by simpa [teamCmd] using ht
    obtain rfl : n = (0, 0) := by simpa using hn
    decide
  · obtain rfl : x = 0 := by simpa using hx
    exact h

/-- A pass of one pixel format and one target, one whose version is wrong, and one whose mesh blocks fit no core. -/
theorem stages_pass : StageValid (chkPass .queued) 0x60 ∧ StageValid (chkPass .queued) 0x80 :=
  ⟨⟨by unfold AddrField; decide, by decide, by unfold AddrField; decide, by decide, by unfold LegalFmt; decide⟩,
   ⟨by unfold AddrField; decide, by decide, by unfold AddrField; decide, by decide, by unfold LegalFmt; decide⟩⟩
theorem witness_BinPhase_valid : PassValid (withNew (chkPass .queued)) (chkPass .queued) ∧
    ¬ PassValid (withNew (chkPass .queued)) { chkPass .queued with desc := [] } ∧
    (∀ n ∈ [2, 3], Placeable (withNew (chkPass .checked)) (chkPass .checked) n 1) ∧
    ¬ Placeable (withNew (chkPass .checked)) { chkPass .checked with desc := passDesc.set 26 0x8001FE00 } 2 1 ∧
    (InPass (binS { laidP with closed := true }) 910 0 { passCmd { laidP with closed := true } with dst := 8 } { laidP with closed := true }) ∧
    MeshStageOver { binS laidP with mem := setByte (binS laidP).mem 0x40404 1 } 910 0x40400 := by
  have one : df (chkPass .queued) 0 21 18 = 1 := by decide
  refine ⟨⟨by decide, by decide, by decide, by decide, by unfold AddrField; decide, ⟨stages_pass.1, stages_pass.2, by rw [if_neg (by decide)]; decide⟩, by decide, by decide,
    by decide, fun i hi => ?_, ⟨by decide, by decide, by decide, by decide, by decide, by decide, by decide⟩, by decide, by decide +kernel⟩,
    fun h => absurd h.version (by decide), by unfold Placeable; decide +kernel, by unfold Placeable; decide +kernel, inPass_of (by decide +kernel),
    ⟨by decide +kernel, by decide +kernel, by decide +kernel, by decide +kernel⟩⟩
  obtain rfl : i = 0 := by omega
  exact ⟨by decide, by unfold AddrField; decide, by decide, by decide, by decide⟩

/-- Triangle A covers the point at (1.5, 2.5) of its tile, its depth there is 0; depths of each format pass or fail their tests. -/
def rasT : Tri := { ord := 0, words := triA, tiles := [0] }
theorem witness_RasterSamples : df (chkPass .queued) 0 25 24 ≤ 2 ∧ triArea rasT.words ≠ 0 ∧ 0 ∈ rasT.tiles ∧ 1 ∉ rasT.tiles ∧
    InArea (chkPass .queued) 0 33 ∧ ¬ InArea (chkPass .queued) 0 256 ∧
    (let c := pointOf (chkPass .queued) 0 33 (sampleSpot 1 0)
     Covered triA c.1 c.2 ∧ finite (depthOf triA c.1 c.2) = true ∧ Machine.fx (depthOf triA c.1 c.2) = 0) ∧
    (let c := pointOf (chkPass .queued) 0 18 (sampleSpot 1 0)
     ¬ Covered triA c.1 c.2) ∧
    StoredAs 1 0 0 ∧ StoredAs 2 0 0 ∧ StoredAs 2 0x3F800000 65535 ∧ (DepthPasses 0 4 0 0 ∧ df (chkPass .queued) 0 15 13 = 4) ∧ DepthPasses 2 0 0 1 ∧
    ¬ DepthPasses 2 0 1 1 ∧ DepthPasses 1 3 0x3F800000 0 ∧ ¬ DepthPasses 1 1 0x3F800000 0 := by
  refine ⟨by decide, by decide +kernel, by decide, by decide, by unfold InArea; decide, by unfold InArea; decide, ?_, ?_, ?_, ?_, ?_, ?_, ?_, ?_, ?_, ?_⟩
  · exact ⟨by unfold Covered WeightCounts EdgeCounts; decide +kernel, by decide +kernel, by decide +kernel⟩
  · unfold Covered WeightCounts EdgeCounts; decide +kernel
  all_goals first | (unfold StoredAs; decide +kernel) | (unfold DepthPasses; decide +kernel)

/-- A group that runs, one that has ended with its tile's items not handed out, and a round whose group is done. -/
theorem witness_DrawPhase_groups : groupStands (drawS 1 false) { st := 1, grp := 920 } = true ∧
    groupGone { drawS 1 false with blocks := [(920, { grpB with st := .done })] } { st := 1, grp := 920 } = true ∧
    (∀ e ∈ cmdBlocks { drawS 4 true with blocks := [(920, { grpB with st := .done })] } 910, e.2.stage = 3 → e.2.st = .done) ∧
    InPass { drawS 4 true with blocks := [(920, { grpB with st := .done })] } 910 1 (drawK 4 true) (drawP 4 true) ∧
    (withNew { overK with st := .ending }).cmd? 910 = some { overK with st := .ending } ∧ (overK.wit ≠ 0 ∨ overK.wit = 0) :=
  ⟨by decide +kernel, by decide +kernel, by decide +kernel, inPass_of (by decide +kernel), by decide +kernel, .inr rfl⟩

/-- A predicate on every lane of every wave: bytes or values equal to `a`, with an action, chained to the next or not. -/
def predP (src act a chain : Nat) : Pred := { ctl := BitVec.ofNat 64 (2 ^ 63 + src * 2 ^ 59 + act * 2 ^ 51 + chain * 2 ^ 50 + 0xFFFFFFFF), a := BitVec.ofNat 64 a }
def evA : WatchEv := { src := 0, lane := 1, x := 4, len := 8 }
def evV : WatchEv := { src := 2, lane := 1, x := 9 }
/-- The watched wave of `dbgS`, on core 1, whose core holds one predicate. -/
def watV : Wave := { target runF [] 1 with uhandler := 0x3000 }
def watS (src act : Nat) : State := (dbgS watV).updCore 1 fun c => { c with preds := [(0, predP src act (if src = 0 then 7 else 9) 0)] }
/-- The hits that act on an event. -/
def actsOn (src act : Nat) : List Acting := (takeHits (watS src act) 930 ((watS src act).coreSt 1).preds 0x2000 [if src = 0 then evA else evV]).2

theorem witness_WatchHits : WatchLegal [(3, predP 0 1 7 1), (4, predP 2 0 9 0)] [evA, evV] ∧
    LaneHits [(3, predP 0 1 7 0)] watV [evA] 3 (predP 0 1 7 0) 1 ∧ LaneHits [(3, predP 0 1 7 1), (4, predP 2 0 9 0)] watV [evA, evV] 3 (predP 0 1 7 1) 1 ∧
    ¬ LaneHits [(3, predP 0 1 7 0)] watV [{ evA with seen := true }] 3 (predP 0 1 7 0) 1 ∧
    (watS 0 1).wave? 930 = some watV ∧ Tab.wf ((watS 0 1).coreSt 1).preds = true ∧ (∀ a ∈ actsOn 0 0, predField a.2.1 53 51 ≠ 1) ∧
    (actsOn 0 1 = [(0, predP 0 1 7 0, [(1, 4)])] ∧ predField (predP 0 1 7 0) 53 51 = 1) ∧ PlaceFits watV ∧
    Memory.wf (watS 0 1).mem = true ∧ Tab.wf (watS 0 1).regs = true := by
  have m : EventMatches watV (predP 0 1 7 0) evA ∧ EventMatches watV (predP 0 1 7 1) evA ∧ EventMatches watV (predP 2 0 9 0) evV := by
    refine ⟨⟨by decide +kernel, by decide +kernel, by decide +kernel, .inl (by decide +kernel), ?_⟩,
      ⟨by decide +kernel, by decide +kernel, by decide +kernel, .inl (by decide +kernel), ?_⟩,
      ⟨by decide +kernel, by decide +kernel, by decide +kernel, .inl (by decide +kernel), ?_⟩⟩
    · exact ⟨by decide +kernel, .inl ⟨by decide +kernel, 7, by decide, by decide, by decide +kernel⟩⟩
    · exact ⟨by decide +kernel, .inl ⟨by decide +kernel, 7, by decide, by decide, by decide +kernel⟩⟩
    · exact .inl ⟨by decide +kernel, by decide +kernel⟩
  refine ⟨⟨by decide, ?_⟩, ?_, ?_, ?_, by decide +kernel, by decide +kernel, by decide +kernel, ⟨by decide +kernel, by decide +kernel⟩, by unfold PlaceFits; decide,
    by decide +kernel, by decide +kernel⟩
  · intro n p h
    simp only [Tab.val?] at h
    split at h
    · obtain rfl := Option.some.inj h; decide +kernel
    · split at h
      · simp at h
      · simp at h; obtain ⟨-, rfl⟩ := h; decide +kernel
  · rw [LaneHits, if_neg (by decide +kernel)]; exact ⟨evA, by decide, rfl, m.1, rfl⟩
  · rw [LaneHits, if_pos (by decide +kernel)]
    exact ⟨_, evA, evV, rfl, by decide, by decide, rfl, rfl, m.2.1, m.2.2, .inl rfl⟩
  · rw [LaneHits, if_neg (by decide +kernel)]; rintro ⟨e, h, -, -, hs⟩
    obtain rfl := List.mem_singleton.mp h
    exact absurd hs (by decide)

theorem witness_WatchHalts : (watS 0 4).wave? 930 = some watV ∧ watV.control = false ∧ Tab.wf (watS 0 4).waves = true ∧
    (∀ e ∈ (watS 0 4).waves, vdecOut (watS 0 4) e.1 = false) ∧ HaltScope 930 watV 3 0 930 watV ∧ HaltScope 930 watV 6 0 930 watV ∧
    ¬ HaltScope 930 watV 3 0 902 (wv dbgW id) ∧
    (watV.frags = [(0, runF)] ∧ watV.frag? 0 = some runF ∧ runF.halt = none ∧ runF.memb &&& 2#32 ≠ 0#32 ∧ runF.memb &&& 2#32 ≠ runF.memb ∧
      runF.skipPred = false ∧ freeEntries (watS 0 2) watV ≠ 0 ∧ freeEntries fullPool watV = 0 ∧ Tab.wf watV.ents = true) ∧
    predField (predP 0 4 7 0) 53 51 = 4 ∧ dbgNotify (watS 0 4) 0 = 0 := by
  exact ⟨by decide +kernel, by decide, by decide +kernel, by decide +kernel, by unfold HaltScope; decide +kernel, by unfold HaltScope; decide +kernel,
    by unfold HaltScope; decide +kernel, by decide +kernel⟩

theorem witness_WatchDelivery : (∀ x ∈ [(0, 0), (0, 4), (0, 7), (2, 1), (2, 4), (2, 7)],
      (watS x.1 x.2).wave? 930 = some watV ∧ watched (watS x.1 x.2) watV = true ∧ ((watS x.1 x.2).coreSt watV.core).preds ≠ [] ∧
      actsOn x.1 x.2 = [(0, predP x.1 x.2 (if x.1 = 0 then 7 else 9) 0, [(1, if x.1 = 0 then 4 else 9)])] ∧
      predField (predP x.1 x.2 (if x.1 = 0 then 7 else 9) 0) 53 51 = x.2) ∧
    watV.frags = [(0, runF)] ∧ watV.frag? 0 = some runF ∧ runF.skipPred = false ∧ runF.decoding = false ∧ runF.trap.inHandler = false ∧
    watV.intr = none ∧ watV.uhandler ≠ 0 ∧ runF.memb.getLsbD 1 = true := by
  exact ⟨by decide +kernel, rfl, rfl, rfl, rfl, rfl, rfl, by decide, by decide⟩

/-- Context 0 of glade 0 is watched, and lane 31 of the load reaches the byte of the predicate; or no lane does. -/
def wldS (act a : Nat) : State := (setReg (memS lane31) .wch 0 0x80000005).updCore 0 fun c => { c with preds := [(0, predP 0 act a 0)] }
def wldHits (act a : Nat) : List Acting :=
  (takeHits (wldS act a) 902 ((wldS act a).coreSt 0).preds 0x1000 [{ src := 0, lane := 31, x := 0x2FFF0, len := 4 }]).2
theorem witness_WatchedLoads : (∀ act a, Issuing (wldS act a) 902 0 (wv memW lane31) (lane31 f0)) ∧ watched (wldS 7 0x2FFF1) (wv memW lane31) = true ∧
    ((wldS 7 0x2FFF1).coreSt 0).preds ≠ [] ∧ (wldS 7 0x2FFF1).watchEv = [] ∧ (wldS 7 0x2FFF1).ops = [] ∧
    (lanesOf (lane31 f0).active = [31] ∧ laneAddr (wv memW lane31) (lane31 f0) false
      (baseOf (wldS 7 0x2FFF1) 902 (wv memW lane31) (lane31 f0) false 2) .none 1 31 = 0x2FFF0) ∧
    wldHits 7 0x2FFF1 = [(0, predP 0 7 0x2FFF1 0, [(31, 0x2FFF0)])] ∧ wldHits 7 0 = [] ∧ (lane31 f0).memb.getLsbD 31 = true ∧
    (lane31 f0).skipPred = false ∧ MeshRoom (wldS 7 0) 902 (wv memW lane31) ∧
    LinesFit (wldS 7 0) { kind := .load, wid := 902, size := 4, accs := [{ lane := 31, va := 0x2FFF0, home := 0x4FFF0 }] } ∧
    dbgNotify (setReg64 (wldS 7 0) .wch 8 0x20004) 0 = 0x20004 := by
  refine ⟨fun _ _ => issuing_of memW lane31 rfl rfl, ?_, ?_, ?_, ?_, ?_,
   ?_, ?_, by decide, rfl, by unfold MeshRoom; decide +kernel, by unfold LinesFit; decide +kernel, ?_⟩ <;> decide +kernel

/-- A fragment that issued in this clk; the fragment of a wave whose block quiesces, and one that waits on a fault. -/
def nowF (f : Frag) : Frag := { f with stall := .issued, served := 0 }
theorem witness_MonitorEvents_reasons : IssuedInClk (st id nowF) (wv id nowF) (nowF f0) ∧ ¬ IssuedInClk (st id id) (wv id id) f0 ∧
    (f0.decoding = false ∧ f0.reading = false ∧ f0.halt = none ∧ f0.haltDue = []) ∧ (∀ e ∈ (wv id id).frags, e.2.stepping = 0) ∧
    (((st id id).updBlk 901 fun b => { b with st := .quiescing }).blkD (wv id id).blk).st = .quiescing ∧
    (((st id id).blkD 901).st = .running ∧ replaying (st id id) 901 = false ∧ (wv (fun w => { w with replay := [1] }) id).replay ≠ []) ∧
    haltF.halt ≠ none :=
  ⟨by unfold IssuedInClk; decide +kernel, by unfold IssuedInClk; decide +kernel, by decide, by decide +kernel, by decide +kernel, by decide +kernel,
   by decide⟩

/-- A droop with a sample: on die 0 only quadrant 0 of core 0 has a wave. -/
def drpS : State := setReg (smpS 0) .drp 0 0x80000000
theorem witness_MonitorEvents_droop : regFld drpS .drp 0 7 0 ≤ 255 ∧ Tab.valD drpS.droop 0 0 = 0 ∧ regFld drpS .drp 0 31 31 = 1 ∧ gladeOf drpS 0 = some 0 ∧
    nextSample drpS 0 0 = some (wv memW id) ∧ sampled (wv memW id) = some f0 ∧ PlaceFits (wv memW id) ∧
    (∀ c, c < 20 → ∀ p, p < 4 → (c ≠ 0 ∨ p ≠ 0) → nextSample drpS c p = none) ∧ Memory.wf drpS.mem = true ∧ Tab.wf drpS.regs = true := by
  refine ⟨?_, ?_, ?_, ?_, ?_, ?_, by unfold PlaceFits; decide +kernel,
   ?_, ?_, ?_⟩ <;> decide +kernel

/-- A replay session that is armed, and one in its second pass that keeps pages of context 0 at 0x20000, one page of room, and writes its
signatures and sums at 0x24000; a wave of the session. -/
def rsS (pages : Nat) : State :=
  let s := setReg64 (setReg64 (setReg (rplS 2) .rpl 0 0x80200000) .rpl 0x10 (0x20000 + pages)) .rpl 0x18 0x24000
  { s with now := 5 }
def rsW : Wave := { cmd := 910, blk := 920, ctx := 0, retired := 7, hash := 9 }
theorem witness_ReplaySessions : (Tab.wf (rsS 1).regs = true ∧ regFld { rsS 1 with replaySes := [] } .rpl 0 31 31 = 1 ∧
      regFld { rsS 1 with replaySes := [] } .rpl 0 29 24 = 0 ∧ (({ rsS 1 with replaySes := [] }).gladeSt 0).armAt ≤ 910 ∧
      (∀ c ∈ ((rsS 1).gladeSt 0).cores, c < 160)) ∧
    (0x30000 ∉ ({ cmd := 910 } : ReplaySt).pages ∧ ({ cmd := 910 } : ReplaySt).pages.length < rplPages (rsS 1) 0 ∧
      rplPages (rsS 0) 0 ≤ ({ cmd := 910 } : ReplaySt).pages.length ∧ ({ cmd := 910 } : ReplaySt).early = 0 ∧
      writableHome (rsS 1) 0 (rplCtx (rsS 1) 0) (rplSnap (rsS 1) 0 + 65536 * 0) = some 0x40000) ∧
    ((rsS 1).cmd? rsW.cmd = some endCmd' ∧ df endCmd' 0 15 8 = 1 ∧ Memory.wf (rsS 1).mem = true) ∧
    (regFld (setReg (rsS 1) .rpl 0 0x80200008) .rpl 0 19 0 = 8 ∧ rplOut (rsS 1) 0 = 0x24000 ∧
      (∀ m, m < 8 → writableHome (rsS 1) 0 (rplCtx (rsS 1) 0) (0x24200 + m) = some (0x44200 + m)) ∧
      getMem (rsS 1).mem 0x44200 8 ≠ rsW.retired % 2 ^ 32 + 2 ^ 32 * rsW.hash.toNat ∧ regFld (rsS 1) .rpl 12 30 30 = 0) ∧
    ((rplS 2).replaySes = [(0, { cmd := 910, pass := 2 })] ∧ (∀ e ∈ cmdBlocks (rsS 1) 910, e.2.st = .done) ∧ (∀ e ∈ (rsS 1).cores, e.2.l1 = []) ∧
      (∀ m, m < 32 → writableHome (rsS 1) 0 (rplCtx (rsS 1) 0) (rplOut (rsS 1) 0 + 32 * (2 - 1) + m) = some (0x44020 + m)) ∧
      2 ≤ regFld (rsS 1) .rpl 0 23 20 ∧ readableHome (rsS 1) 0 (rplCtx (rsS 1) 0) (rplSnap (rsS 1) 0) = some 0x40000 ∧
      readableHome (rsS 1) 0 (rplCtx (rsS 1) 0) 0x20000 = some 0x40000) := by
  decide +kernel

/-- A stepped fragment whose unit is outstanding, and one whose unit has completed. -/
def stpH : HaltSt := { origin := 0, trig := 0x1F00 }
def stpV : Wave := { target { haltF with halt := some stpH } [] 1 with stepDue := some 0 }
def stpOp (done : Bool) : Op := { kind := .load, wid := 930, eid := 0, pc := 0x1F00, done := done }
theorem witness_DebugSteps_outstanding : (withAt (dbgS stpV) 950 (stpOp false)).wave? 930 = some stpV ∧ stpV.stepDue = some 0 ∧
    (withAt (dbgS stpV) 950 (stpOp false)).frag? 930 0 = some { haltF with halt := some stpH } ∧
    (950, stpOp false) ∈ (withAt (dbgS stpV) 950 (stpOp false)).ops ∧ (stpOp false).pc = stpH.trig ∧
    (∀ x ∈ (withAt (dbgS stpV) 950 (stpOp true)).ops, x.2.wid = 930 → x.2.eid = 0 → x.2.pc = stpH.trig → x.2.done = true) ∧
    vdecOut (withAt (dbgS stpV) 950 (stpOp true)) 930 = false ∧ (∀ x ∈ stpV.frags, x.2.reading = false) :=
  ⟨by decide +kernel, rfl, by decide +kernel, by decide +kernel, rfl, by decide +kernel, by decide +kernel, by decide⟩

/-- Turns of a quadrant whose core is gated or not, and ready fragments of two classes, the lower of which may starve. -/
def turnG (g : Bool) (a : Act) : State := (turnsS a).updCore 0 fun c => { c with gated := g, skips := [g, g, g, g] }
def rdy : List ReadyFrag := [(902, 0, 1, f0), (903, 0, 2, { f0 with overdue := some 7 }), (904, 0, 2, { f0 with yieldLeft := 3 })]
theorem witness_TurnsRun_choice : (∀ a ∈ [Act.issue 902 0, .opportunity 0 0], (turnG false a).agenda = [{ act := a }] ∧ countingCores (turnG false a) = [] ∧
      ((turnG false a).coreSt 0).gated = false ∧ ((turnG true a).coreSt 0).gated = true ∧ ((turnG true a).coreSt 0).skips.getD 0 false = true) ∧
    (choose [] 0 (readyFrags { turnG false (.opportunity 0 0) with agenda := [] } 0 0)).isSome = true ∧ choose [] 0 [] = none ∧
    (MayIssue rdy (902, 0, 1, f0) ∧ ¬ MayIssue rdy (904, 0, 2, { f0 with yieldLeft := 3 })) ∧ Starves [(1, 64)] 0 rdy 1 ∧
    (∀ c, ¬ Starves [] 0 rdy c) ∧ (choose [(1, 64)] 0 rdy = some (902, 0, 1, f0) ∧
      choose [] 0 rdy = some (903, 0, 2, { f0 with overdue := some 7 })) ∧
    Unobserved (at32 0x02010301 id) ∧ (Served1 (at32 0x02010301 id) 902 0).agenda = [] := by
  refine ⟨by decide +kernel, by decide +kernel, by decide +kernel, ⟨⟨by decide, .inr rfl⟩, fun h => by have := h.2; revert this; decide⟩,
    ⟨by decide, ⟨(902, 0, 1, f0), ⟨by decide, .inr rfl⟩, rfl⟩, ⟨(903, 0, 2, { f0 with overdue := some 7 }), ⟨by decide, .inr rfl⟩, by decide⟩⟩,
    fun c h => absurd h.1 (by simp [Tab.valD, Tab.val?]), ⟨by decide +kernel, by decide +kernel⟩, ?_, by decide +kernel⟩
  exact ⟨by decide +kernel, by decide +kernel, by decide +kernel, by decide +kernel, by decide +kernel⟩

end Sys2Proof.Tests
end

section
/-! PROOFS. The scalar instructions (R102, R135 to R140) and the uniform branches on the active lanes (R149). The model computes
scalar results on numbers and the statements name operations on words, so the first part says what each of the model's number
functions gives on the values of words. -/

namespace Sys2Proof.Proofs

open Sys2Proof Sys2Proof.Machine Sys2Proof.Claims

/-! ## The model's number functions on the values of words -/

theorem ofNat_of_toNat_eq {n x : Nat} {v : BitVec n} (h : v.toNat = x) : BitVec.ofNat n x = v := by
  rw [← h, BitVec.ofNat_toNat, BitVec.setWidth_eq]

theorem toNat_beq {n : Nat} (a b : BitVec n) : (a.toNat == b.toNat) = (a == b) := by
  rw [Bool.eq_iff_iff, beq_iff_eq, beq_iff_eq, BitVec.toNat_inj]

theorem toNat_eq_zero {n : Nat} (a : BitVec n) : a.toNat = 0 ↔ a = 0#n := by
  rw [← BitVec.toNat_inj, BitVec.toNat_zero]

theorem signed_toNat {n : Nat} (x : BitVec n) : signed n x.toNat = x.toInt := by
  have hx := x.isLt
  rcases n with _ | n
  · simp [BitVec.of_length_zero (x := x), signed]
  · rw [signed, Nat.mod_eq_of_lt hx, BitVec.toInt_eq_toNat_cond, Nat.add_sub_cancel, pow_succ]
    congr 1
    exact propext (by omega)

theorem ofNat_wrap (n : Nat) (x : Int) : BitVec.ofNat n (wrap n x) = BitVec.ofInt n x := by
  apply BitVec.eq_of_toNat_eq
  have h := Int.emod_lt_of_pos x (b := (2 ^ n : Nat)) (by positivity)
  have h0 := Int.emod_nonneg x (b := (2 ^ n : Nat)) (by positivity)
  rw [BitVec.toNat_ofNat, BitVec.toNat_ofInt, wrap, Nat.mod_eq_of_lt (by omega)]

theorem ofNat_sub {n : Nat} (a b : BitVec n) : BitVec.ofNat n (a.toNat + (2 ^ n - b.toNat)) = a - b := by
  rw [BitVec.sub_def, Nat.add_comm]

theorem ofNat_shl {n : Nat} (a : BitVec n) (k : Nat) : BitVec.ofNat n (a.toNat * 2 ^ k) = a <<< k :=
  BitVec.eq_of_toNat_eq (by rw [BitVec.toNat_ofNat, BitVec.toNat_shiftLeft, Nat.shiftLeft_eq])

theorem ofNat_shr {n : Nat} (a : BitVec n) (k : Nat) : BitVec.ofNat n (a.toNat / 2 ^ k) = a >>> k :=
  ofNat_of_toNat_eq (by rw [BitVec.toNat_ushiftRight, Nat.shiftRight_eq_div_pow])

theorem ofNat_sra {n : Nat} (a : BitVec n) (k : Nat) : BitVec.ofNat n (sra n a.toNat k) = a.sshiftRight k := by
  rw [sra, signed_toNat, ofNat_wrap, BitVec.sshiftRight, Int.shiftRight_eq_div_pow]

theorem ofNat_rotl {n : Nat} (a : BitVec n) (k : Nat) : BitVec.ofNat n (rotl n a.toNat k) = a.rotateLeft k := by
  rcases Nat.eq_zero_or_pos n with rfl | hn
  · exact BitVec.of_length_zero.trans BitVec.of_length_zero.symm
  have hk : k % n < n := Nat.mod_lt _ hn
  have hlow : a.toNat / 2 ^ (n - k % n) < 2 ^ (k % n) := by
    rw [Nat.div_lt_iff_lt_mul (by positivity), ← pow_add, Nat.add_sub_cancel' hk.le]
    exact a.isLt
  have hlt : a.toNat / 2 ^ (n - k % n) < 2 ^ n := hlow.trans_le (Nat.pow_le_pow_right (by norm_num) hk.le)
  apply BitVec.eq_of_toNat_eq
  rw [BitVec.toNat_rotateLeft, BitVec.toNat_ofNat, rotl, Nat.mod_mod, Nat.mul_comm a.toNat,
    Nat.two_pow_add_eq_or_of_lt hlow, Nat.or_mod_two_pow, Nat.mod_eq_of_lt hlt, Nat.shiftLeft_eq,
    Nat.shiftRight_eq_div_pow, Nat.mul_comm a.toNat]

theorem ofNat_mulh (a b : Word) : BitVec.ofNat 32 (wrap 32 (signed 32 a.toNat * signed 32 b.toNat / (2 ^ 32 : Nat))) =
    (a.signExtend 64 * b.signExtend 64).extractLsb' 32 32 := by
  have hp : a.signExtend 64 * b.signExtend 64 = BitVec.ofInt 64 (a.toInt * b.toInt) := (BitVec.ofInt_mul ..).symm
  rw [signed_toNat, signed_toNat, ofNat_wrap, hp]
  apply BitVec.eq_of_toNat_eq
  rw [BitVec.extractLsb'_toNat, BitVec.toNat_ofInt, BitVec.toNat_ofInt, Nat.shiftRight_eq_div_pow]
  omega

theorem ofNat_mulhu (a b : Word) : BitVec.ofNat 32 (a.toNat * b.toNat / 2 ^ 32) =
    (a.setWidth 64 * b.setWidth 64).extractLsb' 32 32 := by
  apply BitVec.eq_of_toNat_eq
  rw [BitVec.extractLsb'_toNat, BitVec.toNat_mul, BitVec.toNat_setWidth, BitVec.toNat_setWidth, BitVec.toNat_ofNat,
    Nat.shiftRight_eq_div_pow, ← Nat.mul_mod]
  omega

theorem ofNat_andn {n : Nat} (a b : BitVec n) : BitVec.ofNat n (a.toNat &&& (2 ^ n - 1 - b.toNat)) = a &&& ~~~b :=
  ofNat_of_toNat_eq (by rw [BitVec.toNat_and, BitVec.toNat_not])

theorem ofNat_ite_toNat {n : Nat} (c : Prop) [Decidable c] (a b : BitVec n) :
    BitVec.ofNat n (if c then a.toNat else b.toNat) = if c then a else b := by
  split <;> simp

theorem ofNat_truth (b : Bool) : BitVec.ofNat 32 (truth b) = flagWord b := by
  cases b <;> rfl

theorem ofNat_abs {n : Nat} (a : BitVec n) : BitVec.ofNat n (wrap n (signed n a.toNat).natAbs) = if a.msb then -a else a := by
  rw [signed_toNat, ofNat_wrap]
  rcases h : a.msb with _ | _
  · have := BitVec.toInt_eq_toNat_of_msb h
    simp [this]
  · have hn : ((a.toInt.natAbs : Nat) : Int) = -a.toInt := by
      have := BitVec.toInt_neg_of_msb_true h
      omega
    rw [hn, if_pos rfl, BitVec.ofInt_neg, BitVec.ofInt_toInt]

/-! ### Counts of bits

The model counts bits by recursion on the width; the statements search or filter the list of bit numbers. -/

theorem popc_eq_length (n x : Nat) : popc n x = ((List.range n).filter x.testBit).length := by
  induction n generalizing x with
  | zero => rfl
  | succ n ih =>
    have hf : x.testBit ∘ Nat.succ = (x / 2).testBit := funext fun i => Nat.testBit_succ x i
    rw [popc, ih, List.range_succ_eq_map, List.filter_cons, List.filter_map, hf, Nat.testBit_zero]
    rcases Nat.mod_two_eq_zero_or_one x with h | h <;> simp [h, Nat.add_comm]

theorem ctz_eq_find (n x : Nat) : ctz n x = ((List.range n).find? x.testBit).getD n := by
  induction n generalizing x with
  | zero => rfl
  | succ n ih =>
    have hf : x.testBit ∘ Nat.succ = (x / 2).testBit := funext fun i => Nat.testBit_succ x i
    rw [ctz, ih, List.range_succ_eq_map, List.find?_cons, List.find?_map, hf, Nat.testBit_zero]
    rcases Nat.mod_two_eq_zero_or_one x with h | h
    · cases hq : (List.range n).find? (x / 2).testBit <;> simp [h, Nat.add_comm]
    · simp [h]

theorem clz_eq_find (n x : Nat) : clz n x = ((List.range n).find? fun i => x.testBit (n - 1 - i)).getD n := by
  induction n with
  | zero => rfl
  | succ n ih =>
    have hf : (fun i => x.testBit (n + 1 - 1 - i)) ∘ Nat.succ = fun i => x.testBit (n - 1 - i) :=
      funext fun i => congrArg x.testBit (by omega)
    rw [clz, ih, List.range_succ_eq_map, List.find?_cons, List.find?_map, hf, Nat.add_sub_cancel, Nat.sub_zero,
      Nat.testBit_eq_decide_div_mod_eq]
    rcases Nat.mod_two_eq_zero_or_one (x / 2 ^ n) with h | h
    · cases hq : (List.range n).find? fun i => x.testBit (n - 1 - i) <;> simp [h, Nat.add_comm]
    · simp [h]

theorem popc_eq_bitsSet (a : Word) : popc 32 a.toNat = bitsSet a := popc_eq_length 32 a.toNat
theorem ctz_eq_lowestBit (a : Word) : ctz 32 a.toNat = lowestBit a := ctz_eq_find 32 a.toNat
theorem clz_eq_bitsAbove (a : Word) : clz 32 a.toNat = bitsAbove a := clz_eq_find 32 a.toNat

/-! ### Bit fields (R137) -/

/-- The three parts of a number with a field replaced: the bits above the field, the field, and the bits below it. -/
theorem setBits_eq (x lo w v : Nat) (hw : 0 < w) :
    setBits x (lo + w - 1) lo v = 2 ^ lo * (2 ^ w * (x / 2 ^ lo / 2 ^ w) + v % 2 ^ w) + x % 2 ^ lo := by
  have hx := Nat.div_add_mod x (2 ^ lo)
  have hq := Nat.div_add_mod (x / 2 ^ lo) (2 ^ w)
  rw [setBits, bitsOf, show lo + w - 1 + 1 - lo = w by omega]
  generalize x / 2 ^ lo / 2 ^ w = h at *
  generalize x / 2 ^ lo % 2 ^ w = m at *
  generalize x % 2 ^ lo = l at *
  rw [← hx, ← hq]
  have hfield : 2 ^ lo * (2 ^ w * h + m) + l = 2 ^ lo * (2 ^ w * h) + l + m * 2 ^ lo := by ring
  rw [hfield, Nat.add_sub_cancel]
  ring

theorem testBit_setBits {x lo w v : Nat} (i : Nat) (hw : 0 < w) :
    (setBits x (lo + w - 1) lo v).testBit i = if lo ≤ i ∧ i < lo + w then v.testBit (i - lo) else x.testBit i := by
  rw [setBits_eq x lo w v hw, Nat.testBit_two_pow_mul_add _ (Nat.mod_lt _ (by positivity)),
    Nat.testBit_two_pow_mul_add _ (Nat.mod_lt _ (by positivity)), Nat.testBit_mod_two_pow, Nat.testBit_mod_two_pow,
    Nat.testBit_div_two_pow, Nat.testBit_div_two_pow]
  by_cases h1 : i < lo
  · simp [h1, Nat.not_le.mpr h1]
  · by_cases h2 : i < lo + w
    · simp [h1, h2, Nat.not_lt.mp h1, show i - lo < w by omega]
    · simp [h1, h2, show ¬ i - lo < w by omega, show i - lo - w + w + lo = i by omega]

theorem bfOff_add_bfWidth_le (b : Word) : bfOff b + bfWidth b ≤ 32 := by
  have : bfOff b < 32 := Nat.mod_lt _ (by norm_num)
  have : bfWidth b ≤ 32 - bfOff b := Nat.min_le_right _ _
  omega

theorem getLsbD_eq_bitsOf (b : Word) (i : Nat) : (bitsOf b.toNat i i == 1) = b.getLsbD i := by
  rw [bitsOf, Nat.add_sub_cancel_left, pow_one, BitVec.getLsbD, Nat.testBit_eq_decide_div_mod_eq]
  rfl

/-- The extracted field is a bit vector of its own width, read as signed or as unsigned. -/
theorem bfe_eq (a b : Word) : bfe a.toNat b.toNat =
    if b.getLsbD 16 && decide (0 < bfWidth b) then wrap 32 (a.extractLsb' (bfOff b) (bfWidth b)).toInt
    else (a.extractLsb' (bfOff b) (bfWidth b)).toNat := by
  rw [← signed_toNat, BitVec.extractLsb'_toNat, Nat.shiftRight_eq_div_pow, ← getLsbD_eq_bitsOf]
  rfl

theorem ofNat_bfe (a b : Word) : BitVec.ofNat 32 (bfe a.toNat b.toNat) = extracted a b := by
  have hle := bfOff_add_bfWidth_le b
  rw [bfe_eq]
  ext i hi
  rw [extracted, BitVec.getElem_ofFnLE]
  by_cases hs : (b.getLsbD 16 && decide (0 < bfWidth b)) = true
  · obtain ⟨hs', hw⟩ : b.getLsbD 16 = true ∧ 0 < bfWidth b := by simpa using hs
    rw [if_pos hs, ofNat_wrap, ← BitVec.getLsbD_eq_getElem]
    change ((a.extractLsb' (bfOff b) (bfWidth b)).signExtend 32).getLsbD i = _
    rw [BitVec.getLsbD_signExtend, BitVec.msb_eq_getLsbD_last, BitVec.getLsbD_extractLsb', BitVec.getLsbD_extractLsb']
    by_cases hlt : i < bfWidth b
    · simp [hi, hlt, Nat.add_comm]
    · simp only [hi, hlt, hs', hw, Nat.sub_lt hw Nat.one_pos, Nat.add_sub_assoc hw,
        decide_true, Bool.true_and, if_false]
  · rw [if_neg hs, BitVec.ofNat_toNat, ← BitVec.getLsbD_eq_getElem, BitVec.getLsbD_setWidth, BitVec.getLsbD_extractLsb']
    by_cases hlt : i < bfWidth b
    · simp [hi, hlt, Nat.add_comm]
    · simp only [hlt, if_false, decide_false, Bool.false_and, Bool.and_false, Bool.eq_false_iff.mpr hs]

theorem getLsbD_bfMask (b : Word) (i : Nat) (hi : i < 32) :
    (bfMask b).getLsbD i = (decide (bfOff b ≤ i) && decide (i < bfOff b + bfWidth b)) := by
  rw [bfMask, BitVec.getLsbD_shiftLeft, BitVec.getLsbD_ofNat, Nat.testBit_two_pow_sub_one]
  by_cases h : bfOff b ≤ i
  · simp [hi, h, Nat.not_lt.mpr h, show i - bfOff b < 32 by omega, Nat.sub_lt_iff_lt_add h, Nat.add_comm]
  · simp [h, Nat.not_le.mp h]

theorem bfi_eq (d a b : Word) : bfi d.toNat a.toNat b.toNat =
    if bfWidth b = 0 then d.toNat else setBits d.toNat (bfOff b + bfWidth b - 1) (bfOff b) a.toNat := by
  simp only [bfi, beq_iff_eq]
  rfl

theorem ofNat_bfi (d a b : Word) : BitVec.ofNat 32 (bfi d.toNat a.toNat b.toNat) =
    (d &&& ~~~(bfMask b)) ||| ((a <<< bfOff b) &&& bfMask b) := by
  have hle := bfOff_add_bfWidth_le b
  rw [bfi_eq]
  apply BitVec.eq_of_getLsbD_eq
  intro i hi
  rw [BitVec.getLsbD_ofNat, BitVec.getLsbD_or, BitVec.getLsbD_and, BitVec.getLsbD_and, BitVec.getLsbD_not,
    BitVec.getLsbD_shiftLeft, getLsbD_bfMask b i hi, ← Bool.decide_and]
  split
  · next hw =>
    have hin : ¬ (bfOff b ≤ i ∧ i < bfOff b + bfWidth b) := by omega
    simp [hi, hin, BitVec.testBit_toNat]
  · next hw =>
    rw [testBit_setBits _ (by omega), BitVec.testBit_toNat, BitVec.testBit_toNat]
    by_cases hin : bfOff b ≤ i ∧ i < bfOff b + bfWidth b
    · simp [hi, hin, Nat.not_lt.mpr hin.1]
    · simp [hi, hin]

theorem setFld_high (w : Word) (i : BitVec 16) : setFld w 31 16 i.toNat = i ++ w.extractLsb' 0 16 := by
  rw [setFld]
  apply BitVec.eq_of_getLsbD_eq
  intro k hk
  rw [BitVec.getLsbD_ofNat, testBit_setBits (lo := 16) (w := 16) _ (by norm_num), BitVec.getLsbD_append, BitVec.testBit_toNat,
    BitVec.testBit_toNat]
  by_cases h : k < 16
  · simp [hk, h, Nat.not_le.mpr h]
  · simp [hk, h, Nat.not_lt.mp h]

theorem ofNat_halves (hi lo : BitVec 16) : BitVec.ofNat 32 (hi.toNat * 2 ^ 16 + lo.toNat) = hi ++ lo := by
  apply BitVec.eq_of_toNat_eq
  have := hi.isLt
  have := lo.isLt
  rw [BitVec.toNat_ofNat, BitVec.toNat_append, ← Nat.shiftLeft_add_eq_or_of_lt lo.isLt, Nat.shiftLeft_eq]
  omega

/-! ## Decoding wide words (R105, R107, R110) -/

/-- The bytes of a word put together again. -/
theorem word32_bytes (w : BitVec 32) :
    word32 (w.extractLsb' 0 8) (w.extractLsb' 8 8) (w.extractLsb' 16 8) (w.extractLsb' 24 8) = w := by
  have join := fun (k n m l : Nat) (h : k = n + m) =>
    BitVec.extractLsb'_append_extractLsb'_eq_extractLsb' (x := w) (len₂ := l) h
  rw [word32, join 24 16 8 8 rfl, join 16 8 8 16 rfl, join 8 0 8 24 rfl, BitVec.extractLsb'_eq_self]

theorem lowByte_wide (x : BitVec 24) (maj : BitVec 7) : (x ++ maj ++ 1#1).extractLsb' 0 8 = maj ++ 1#1 := by
  rw [BitVec.append_assoc]
  exact BitVec.extractLsb'_append_eq_right

theorem field_of_wide (k : Nat) {n : Nat} (x : BitVec 24) (maj : BitVec 7) :
    (x ++ maj ++ 1#1).extractLsb' (8 + k) n = x.extractLsb' k n := by
  rw [BitVec.extractLsb'_append_eq_of_le (by omega), BitVec.extractLsb'_append_eq_of_le (by omega)]
  congr 1
  omega

theorem isWide_append_one (maj : BitVec 7) : isWide (maj ++ 1#1) = true := by
  rw [isWide, BitVec.extractLsb'_append_eq_right]
  rfl

theorem append_one_ne_ext {maj : BitVec 7} (hm : maj ≠ 0x7F#7) : (maj ++ 1#1 == 0xFF#8) = false := by
  rw [beq_eq_false_iff_ne]
  intro h
  have hmaj : (maj ++ 1#1).extractLsb' 1 7 = 0x7F#7 := congrArg (BitVec.extractLsb' 1 7) h
  rw [BitVec.extractLsb'_append_eq_left] at hmaj
  exact hm hmaj

theorem decode32_wide (e : Ext) (x : BitVec 24) (maj : BitVec 7) :
    decode32 e (x ++ maj ++ 1#1) = decodeMajor e (x ++ maj ++ 1#1) maj.toNat := by
  have hmaj : majorOf (x ++ maj ++ 1#1) = maj := by
    rw [majorOf, BitVec.extractLsb'_append_eq_of_le (by norm_num)]
    exact BitVec.extractLsb'_append_eq_right
  rw [decode32, hmaj]

/-- A wide word that is no EXT unit decodes by its major (R105, R107). -/
theorem decodeUnit_wide (x : BitVec 24) {maj : BitVec 7} (hm : maj ≠ 0x7F#7) :
    decodeUnit (bytes32 (x ++ maj ++ 1#1)) =
      (decodeMajor .none (x ++ maj ++ 1#1) maj.toNat).map fun i => (i, 4) := by
  unfold decodeUnit bytes32
  simp only [lowByte_wide, isWide_append_one, append_one_ne_ext hm, if_true]
  rw [← lowByte_wide x, word32_bytes, decode32_wide]
  rfl

/-- Behind an EXT unit it decodes by its major with the unit's payload (R110). -/
theorem decodeUnit_ext_wide (p x : BitVec 24) {maj : BitVec 7} (hm : maj ≠ 0x7F#7) :
    decodeUnit (bytes32 (p ++ 0xFF#8) ++ bytes32 (x ++ maj ++ 1#1)) =
      (decodeExt (p ++ 0xFF#8)).bind fun e => (decodeMajor e (x ++ maj ++ 1#1) maj.toNat).map fun i => (i, 8) := by
  have hlow : (p ++ 0xFF#8).extractLsb' 0 8 = 0xFF#8 := BitVec.extractLsb'_append_eq_right
  have hwide : isWide ((p ++ 0xFF#8).extractLsb' 0 8) = true := by rw [hlow]; rfl
  have hext : ((p ++ 0xFF#8).extractLsb' 0 8 == 0xFF#8) = true := by rw [hlow]; rfl
  unfold decodeUnit bytes32
  simp only [List.cons_append, List.nil_append, hwide, hext, lowByte_wide, isWide_append_one, append_one_ne_ext hm, if_true]
  rw [← lowByte_wide x, word32_bytes, word32_bytes]
  cases decodeExt (p ++ 0xFF#8) with
  | error e => rfl
  | ok e => exact congrArg (Except.map fun i => (i, 8)) (decode32_wide e x maj)

theorem decodeUnit_ext_wide_ok {p : BitVec 24} (x : BitVec 24) {maj : BitVec 7} {e : Ext} (hm : maj ≠ 0x7F#7)
    (he : decodeExt (p ++ 0xFF#8) = .ok e) :
    decodeUnit (bytes32 (p ++ 0xFF#8) ++ bytes32 (x ++ maj ++ 1#1)) =
      (decodeMajor e (x ++ maj ++ 1#1) maj.toNat).map fun i => (i, 8) := by
  rw [decodeUnit_ext_wide p x hm, he]
  rfl

/-- A word of three operand fields decodes as the arm of its major says. -/
theorem decodeUnit_scalarBytes {maj : BitVec 7} {arm : BitVec 8 → BitVec 8 → BitVec 8 → Except DecErr Instr} (d a b : BitVec 8)
    (hm : maj ≠ 0x7F#7)
    (harm : ∀ w, decodeMajor .none w maj.toNat = arm (w.extractLsb' 24 8) (w.extractLsb' 16 8) (w.extractLsb' 8 8)) :
    decodeUnit (scalarBytes maj d a b) = (arm b a d).map fun i => (i, 4) := by
  have hb : (b ++ a ++ d).extractLsb' 16 8 = b := by
    rw [BitVec.extractLsb'_append_eq_of_le (by norm_num)]; exact BitVec.extractLsb'_append_eq_left
  have ha : (b ++ a ++ d).extractLsb' 8 8 = a := by
    rw [BitVec.extractLsb'_append_eq_of_le (by norm_num)]; exact BitVec.extractLsb'_append_eq_right
  have hd : (b ++ a ++ d).extractLsb' 0 8 = d := BitVec.extractLsb'_append_eq_right
  rw [scalarBytes, decodeUnit_wide (b ++ a ++ d) hm, harm, field_of_wide 16, field_of_wide 8, field_of_wide 0, hb, ha, hd]

theorem decodeMajor_imm16 {e : Ext} {maj : BitVec 7} {arm : BitVec 16 → BitVec 8 → Except DecErr Instr} (i : BitVec 16) (d : BitVec 8)
    (harm : ∀ w, decodeMajor e w maj.toNat = arm (w.extractLsb' 16 16) (w.extractLsb' 8 8)) :
    decodeMajor e (i ++ d ++ maj ++ 1#1) maj.toNat = arm i d := by
  have hi : (i ++ d).extractLsb' 8 16 = i := BitVec.extractLsb'_append_eq_left
  have hd : (i ++ d).extractLsb' 0 8 = d := BitVec.extractLsb'_append_eq_right
  rw [harm, field_of_wide 8, field_of_wide 0, hi, hd]

theorem decodeExt_imm (hi : BitVec 16) : decodeExt (0#4 ++ hi ++ 0#4 ++ 0xFF#8) = .ok (.imm hi) := by
  have hp : (0#4 ++ hi ++ 0#4 ++ 0xFF#8).extractLsb' 8 24 = 0#4 ++ hi ++ 0#4 := BitVec.extractLsb'_append_eq_left
  have hkind : (0#4 ++ hi ++ 0#4).extractLsb' 0 4 = 0#4 := BitVec.extractLsb'_append_eq_right
  have htop : (0#4 ++ hi ++ 0#4).extractLsb' 20 4 = 0#4 := by
    rw [BitVec.extractLsb'_append_eq_of_le (by norm_num)]; exact BitVec.extractLsb'_append_eq_left
  have hhi : (0#4 ++ hi ++ 0#4).extractLsb' 4 16 = hi := by
    rw [BitVec.extractLsb'_append_eq_of_le (by norm_num)]; exact BitVec.extractLsb'_append_eq_right
  unfold decodeExt
  rw [hp]
  simp only [hkind, htop, hhi]
  rfl

/-- Every EXT unit that decodes has a kind, so none of them leaves an instruction as it stands alone. -/
theorem decodeExt_ne_none (w : BitVec 32) : decodeExt w ≠ .ok .none := by
  intro h
  simp only [decodeExt] at h
  split at h
  · next x hx =>
    split at h
    · injection h with h
      subst h
      split_ifs at hx <;> cases hx
    · cases h
  · cases h

theorem decodeUnit_imm16 {maj : BitVec 7} {arm : BitVec 16 → BitVec 8 → Except DecErr Instr} (i : BitVec 16) (d : BitVec 8)
    (hm : maj ≠ 0x7F#7)
    (harm : ∀ w, decodeMajor .none w maj.toNat = arm (w.extractLsb' 16 16) (w.extractLsb' 8 8)) :
    decodeUnit (bytes32 (i ++ d ++ maj ++ 1#1)) = (arm i d).map fun j => (j, 4) := by
  rw [decodeUnit_wide (i ++ d) hm, decodeMajor_imm16 i d harm]

theorem encodes_of {maj : BitVec 7} {i : BitVec 8 → BitVec 8 → BitVec 8 → Instr} (hm : maj ≠ 0x7F#7)
    (harm : ∀ w, decodeMajor .none w maj.toNat =
      noExt .none (i (w.extractLsb' 8 8) (w.extractLsb' 16 8) (w.extractLsb' 24 8))) : Encodes maj i := fun d a b =>
  decodeUnit_scalarBytes (arm := fun b a d => noExt .none (i d a b)) d a b hm harm

theorem encodesSun_of {fn : BitVec 8} {i : BitVec 8 → BitVec 8 → Instr} (hfn : ∀ a d, dec1F .none fn a d = .ok (i d a)) :
    EncodesSun fn i := fun d a => by
  rw [decodeUnit_scalarBytes (arm := dec1F .none) d a fn (by decide) fun _ => rfl, hfn]
  rfl

theorem decodeUnit_sli (d : BitVec 8) (i : BitVec 16) : decodeUnit (bytes32 (i ++ d ++ 0x20#7 ++ 1#1)) = .ok (.sli .none d i, 4) :=
  decodeUnit_imm16 (arm := dec20 .none) i d (by decide) fun _ => rfl

theorem decodeUnit_imm_sli (hi : BitVec 16) (d : BitVec 8) (i : BitVec 16) :
    decodeUnit (bytes32 (0#4 ++ hi ++ 0#4 ++ 0xFF#8) ++ bytes32 (i ++ d ++ 0x20#7 ++ 1#1)) = .ok (.sli (.imm hi) d i, 8) := by
  rw [decodeUnit_ext_wide_ok (i ++ d) (by decide) (decodeExt_imm hi), decodeMajor_imm16 (arm := dec20 (.imm hi)) i d fun _ => rfl]
  rfl

theorem decodeUnit_slih (d : BitVec 8) (i : BitVec 16) : decodeUnit (bytes32 (i ++ d ++ 0x21#7 ++ 1#1)) = .ok (.slih d i, 4) :=
  decodeUnit_imm16 (arm := dec21 .none) i d (by decide) fun _ => rfl

theorem decodeUnit_ext_slih (p : BitVec 24) (d : BitVec 8) (i : BitVec 16) (j : Instr) (n : Nat) :
    decodeUnit (bytes32 (p ++ 0xFF#8) ++ bytes32 (i ++ d ++ 0x21#7 ++ 1#1)) ≠ .ok (j, n) := by
  cases he : decodeExt (p ++ 0xFF#8) with
  | error e =>
    rw [decodeUnit_ext_wide p (i ++ d) (by decide), he]
    exact fun h => nomatch h
  | ok e =>
    have hne : e ≠ .none := fun h => decodeExt_ne_none _ (h ▸ he)
    rw [decodeUnit_ext_wide_ok (i ++ d) (by decide) he, decodeMajor_imm16 (arm := dec21 e) i d fun _ => rfl, dec21, noExt, if_neg hne]
    exact fun h => nomatch h

/-! ## Scalar source fields (R102) -/

theorem opS_reg (s : State) (wid : Nat) (w : Wave) (f : Frag) {a : BitVec 8} (h : a.toNat < 192) :
    opS s wid w f a = w.sreg a.toNat := by
  simp [opS, scalarVal, h, range, ofWords]

theorem opS_const (s : State) (wid : Nat) (w : Wave) (f : Frag) {a : BitVec 8} (h : 192 ≤ a.toNat) (h' : a.toNat < 208) :
    opS s wid w f a = BitVec.ofNat 32 (a.toNat - 192) := by
  simp [opS, scalarVal, Nat.not_lt.mpr h, h']

theorem opS64_const (s : State) (wid : Nat) (w : Wave) (f : Frag) {a : BitVec 8} (h : 192 ≤ a.toNat) (h' : a.toNat < 208) :
    opS64 s wid w f a = BitVec.ofNat 64 (a.toNat - 192) := by
  simp [opS64, scalarVal, Nat.not_lt.mpr h, h']

theorem opS_special (s : State) (wid : Nat) (w : Wave) (f : Frag) {a : BitVec 8} (h : 208 ≤ a.toNat) :
    opS s wid w f a = specialSrc s wid w f a.toNat := by
  simp [opS, scalarVal, Nat.not_lt.mpr h, show ¬ a.toNat < 192 by omega]

theorem opS64_pair (s : State) (wid : Nat) (w : Wave) (f : Frag) {a : BitVec 8} (h : a.toNat + 1 < 192) :
    opS64 s wid w f a = w.sPair a.toNat := by
  have hlt : a.toNat < 192 := by omega
  have h0 := (w.sreg a.toNat).isLt
  have h1 := (w.sreg (a.toNat + 1)).isLt
  apply BitVec.eq_of_toNat_eq
  rw [Wave.sPair, BitVec.toNat_append, ← Nat.shiftLeft_add_eq_or_of_lt h0, Nat.shiftLeft_eq, ← scalarVal_opS64]
  simp [scalarVal, hlt, range, List.range_succ, ofWords]
  omega

/-! ## Fields that trap -/

theorem scalarCheck_cases (x : SSrc) : scalarCheck x = .ok () ∨ scalarCheck x = trap illegalOp := by
  unfold scalarCheck
  split_ifs <;> simp

theorem scalarChecks_trap {xs : List SSrc} (h : ∃ x ∈ xs, scalarCheck x = trap illegalOp) : scalarChecks xs = trap illegalOp := by
  induction xs with
  | nil => obtain ⟨x, hx, _⟩ := h; cases hx
  | cons x xs ih =>
    rcases scalarCheck_cases x with hx | hx
    · have htail : ∃ y ∈ xs, scalarCheck y = trap illegalOp := by
        obtain ⟨y, hy, ht⟩ := h
        rcases List.mem_cons.mp hy with rfl | hy
        · rw [hx] at ht; cases ht
        · exact ⟨y, hy, ht⟩
      rw [scalarChecks, hx, ok_bind, ih htail]
    · rw [scalarChecks, hx]
      rfl

theorem scalarChecks_cases (xs : List SSrc) : scalarChecks xs = .ok () ∨ scalarChecks xs = trap illegalOp := by
  induction xs with
  | nil => exact .inl rfl
  | cons x xs ih =>
    rcases scalarCheck_cases x with hx | hx
    · rwa [scalarChecks, hx, ok_bind]
    · exact .inr (scalarChecks_trap ⟨x, List.mem_cons_self, hx⟩)

/-- An illegal scalar field traps before any register is waited for. -/
theorem getOpnds_trap (s : State) (wid : Nat) (w : Wave) (f : Frag) {srcs : List SSrc} {d cnt : Nat} {pair : Bool}
    (h : (∃ x ∈ srcs, scalarCheck x = trap illegalOp) ∨ scalarDst d cnt pair = trap illegalOp) :
    getOpnds s wid w f { s := srcs, sd := some (d, cnt, pair) } = trap illegalOp := by
  unfold getOpnds getOpndsFor readyOpnds
  simp only [vecSrcs, ok_bind]
  rcases scalarChecks_cases srcs with hs | hs
  · have hd : scalarDst d cnt pair = trap illegalOp := by
      rcases h with h | h
      · rw [scalarChecks_trap h] at hs; cases hs
      · exact h
    rw [hs, hd]
    rfl
  · rw [hs]
    rfl

theorem scalarUnit_traps {i : Instr} {size : Nat} {srcs : List SSrc} {d cnt : Nat} {pair : Bool} {k : List Nat → Nat}
    (hexec : ∀ s, exec i s = scalarUnit size srcs d cnt pair s k)
    (h : (∃ x ∈ srcs, scalarCheck x = trap illegalOp) ∨ scalarDst d cnt pair = trap illegalOp) : TrapsIllegal i := by
  intro s wid eid w f hi
  rw [hexec]
  refine issueUnit_traps (arg := 0) size true hi ?_
  rw [getOpnds_trap _ _ _ _ h]
  rfl

theorem scalarCheck_unassigned {a : BitVec 8} (h : 216 ≤ a.toNat) : scalarCheck { fd := a.toNat } = trap illegalOp := by
  simp [scalarCheck, h, show ¬ a.toNat < 192 by omega]

theorem scalarCheck_noPair {a : BitVec 8} (h : NoPair a) :
    scalarCheck { fd := a.toNat, cnt := 2, pair := true } = trap illegalOp := by
  rcases h with hspecial | ⟨hlt, hodd⟩
  · simp [scalarCheck, hspecial, show ¬ a.toNat < 192 by omega]
  · simp [scalarCheck, hlt, hodd]

theorem scalarDst_noPair {d : BitVec 8} (h : NoPairDst d) : scalarDst d.toNat 2 true = trap illegalOp := by
  rw [scalarDst, if_pos]
  rcases h with h | h
  · simp; omega
  · simp [h]

/-- A destination field above s191 traps. -/
theorem scalarDst_special {d : BitVec 8} (h : 192 ≤ d.toNat) : scalarDst d.toNat 1 false = trap illegalOp := by
  rw [scalarDst, if_pos]
  simp; omega

theorem trapsIllegal_scalar64 {i : Instr} {d a b : BitVec 8} {k : Nat → Nat → Nat} (hexec : ∀ s, exec i s = scalar64 d a b s k)
    (h : NoPair a ∨ NoPair b ∨ NoPairDst d) : TrapsIllegal i := by
  refine scalarUnit_traps hexec ?_
  rcases h with h | h | h
  · exact .inl ⟨_, List.mem_cons_self, scalarCheck_noPair h⟩
  · exact .inl ⟨_, List.mem_cons_of_mem _ List.mem_cons_self, scalarCheck_noPair h⟩
  · exact .inr (scalarDst_noPair h)

theorem trapsIllegal_scalarShift64 {i : Instr} {d a b : BitVec 8} {k : Nat → Nat → Nat}
    (hexec : ∀ s, exec i s = scalarShift64 d a b s k) (h : NoPair a ∨ NoPairDst d) : TrapsIllegal i := by
  refine scalarUnit_traps hexec ?_
  rcases h with h | h
  · exact .inl ⟨_, List.mem_cons_self, scalarCheck_noPair h⟩
  · exact .inr (scalarDst_noPair h)

/-! ## Completion

Each form of scalar instruction completes with its rule's result, given that the model's number function computes it. -/

theorem scalar3_of {i : BitVec 8 → BitVec 8 → BitVec 8 → Instr} {K : Word → Word → Word} (k : Nat → Nat → Nat)
    (hval : ∀ a b : Word, BitVec.ofNat 32 (k a.toNat b.toNat) = K a b)
    (hexec : ∀ d a b s, exec (i d a b) s = scalar3 d a b s k := by intros; rfl) : Scalar3 i K := by
  intro s wid eid w f d a b h ha hb hd
  have hsrc : ∀ x ∈ ([{ fd := a.toNat }, { fd := b.toNat }] : List SSrc), x.Ready w :=
    List.forall_mem_cons.mpr ⟨ha, List.forall_mem_singleton.mpr hb⟩
  obtain ⟨t, ht, hu⟩ := scalarUnit_ends 4 _ d.toNat 1 false (fun v => k (v.getD 0 0) (v.getD 1 0)) h hsrc hd
  refine ⟨t, (hexec d a b s).trans ht, ?_⟩
  rw [← hval, ← scalarVal_opS, ← scalarVal_opS]
  exact hu

theorem scalar1_of {i : BitVec 8 → BitVec 8 → Instr} {K : Word → Word} (k : Nat → Nat)
    (hval : ∀ a : Word, BitVec.ofNat 32 (k a.toNat) = K a)
    (hexec : ∀ d a s, exec (i d a) s = scalar1 d a s k := by intros; rfl) : Scalar1 i K := by
  intro s wid eid w f d a h ha hd
  obtain ⟨t, ht, hu⟩ := scalarUnit_ends 4 _ d.toNat 1 false (fun v => k (v.getD 0 0)) h (List.forall_mem_singleton.mpr ha) hd
  refine ⟨t, (hexec d a s).trans ht, ?_⟩
  rw [← hval, ← scalarVal_opS]
  exact hu

theorem scalar3d_of {i : BitVec 8 → BitVec 8 → BitVec 8 → Instr} {K : Word → Word → Word → Word} (k : Nat → Nat → Nat → Nat)
    (hval : ∀ d a b : Word, BitVec.ofNat 32 (k d.toNat a.toNat b.toNat) = K d a b)
    (hexec : ∀ d a b s, exec (i d a b) s =
      scalarUnit 4 [{ fd := a.toNat }, { fd := b.toNat }, { fd := d.toNat }] d.toNat 1 false s fun v =>
        k (v.getD 2 0) (v.getD 0 0) (v.getD 1 0) := by intros; rfl) : Scalar3d i K := by
  intro s wid eid w f d a b h ha hb hd
  have hlt : d.toNat < 192 := hd.1
  have hdsrc : SrcS w d := .inl ⟨hlt, hd.1, by simp, hd.2.2⟩
  have hsrc : ∀ x ∈ ([{ fd := a.toNat }, { fd := b.toNat }, { fd := d.toNat }] : List SSrc), x.Ready w :=
    List.forall_mem_cons.mpr ⟨ha, List.forall_mem_cons.mpr ⟨hb, List.forall_mem_singleton.mpr hdsrc⟩⟩
  obtain ⟨t, ht, hu⟩ := scalarUnit_ends 4 _ d.toNat 1 false (fun v => k (v.getD 2 0) (v.getD 0 0) (v.getD 1 0)) h hsrc hd
  refine ⟨t, (hexec d a b s).trans ht, ?_⟩
  rw [← hval, ← scalarVal_opS, ← scalarVal_opS, ← opS_reg s wid w f hlt, ← scalarVal_opS]
  exact hu

theorem setSs_pair (w : Wave) (d : Nat) (n : Nat) : w.setSs d (wordsOf 2 n) = w.setSPair d (BitVec.ofNat 64 n) := by
  have h0 : (BitVec.ofNat 64 n).extractLsb' 0 32 = BitVec.ofNat 32 n := by
    apply BitVec.eq_of_toNat_eq
    rw [BitVec.extractLsb'_toNat, BitVec.toNat_ofNat, BitVec.toNat_ofNat, Nat.shiftRight_zero]
    omega
  have h1 : (BitVec.ofNat 64 n).extractLsb' 32 32 = BitVec.ofNat 32 (n / 2 ^ 32) := by
    apply BitVec.eq_of_toNat_eq
    rw [BitVec.extractLsb'_toNat, BitVec.toNat_ofNat, BitVec.toNat_ofNat, Nat.shiftRight_eq_div_pow]
    omega
  rw [Wave.setSPair, h0, h1]
  rfl

theorem scalar64_of {i : BitVec 8 → BitVec 8 → BitVec 8 → Instr} {k : Nat → Nat → Nat} {K : DWord → DWord → DWord}
    (hexec : ∀ d a b s, exec (i d a b) s = scalar64 d a b s k)
    (hval : ∀ a b : DWord, BitVec.ofNat 64 (k a.toNat b.toNat) = K a b) : Scalar64 i K := by
  intro s wid eid w f d a b h ha hb hd
  have hsrc : ∀ x ∈ ([{ fd := a.toNat, cnt := 2, pair := true }, { fd := b.toNat, cnt := 2, pair := true }] : List SSrc), x.Ready w :=
    List.forall_mem_cons.mpr ⟨ha, List.forall_mem_singleton.mpr hb⟩
  obtain ⟨t, ht, hu⟩ := scalarUnit_ends 4 _ d.toNat 2 true (fun v => k (v.getD 0 0) (v.getD 1 0)) h hsrc hd
  refine ⟨t, (hexec d a b s).trans ht, ?_⟩
  rw [← hval, ← scalarVal_opS64, ← scalarVal_opS64, ← setSs_pair]
  exact hu

theorem scalarShift64_of {i : BitVec 8 → BitVec 8 → BitVec 8 → Instr} {k : Nat → Nat → Nat} {K : DWord → Nat → DWord}
    (hexec : ∀ d a b s, exec (i d a b) s = scalarShift64 d a b s k)
    (hval : ∀ (a : DWord) (n : Nat), BitVec.ofNat 64 (k a.toNat n) = K a n) : ScalarShift64 i K := by
  intro s wid eid w f d a b h ha hb hd
  have hsrc : ∀ x ∈ ([{ fd := a.toNat, cnt := 2, pair := true }, { fd := b.toNat }] : List SSrc), x.Ready w :=
    List.forall_mem_cons.mpr ⟨ha, List.forall_mem_singleton.mpr hb⟩
  obtain ⟨t, ht, hu⟩ := scalarUnit_ends 4 _ d.toNat 2 true (fun v => k (v.getD 0 0) (v.getD 1 0 % 64)) h hsrc hd
  refine ⟨t, (hexec d a b s).trans ht, ?_⟩
  rw [← hval, ← scalarVal_opS64, ← scalarVal_opS, ← setSs_pair]
  exact hu

theorem exec_sadd64 (d a b : BitVec 8) (s : State) : exec (.sadd64 d a b) s = scalar64 d a b s fun a b => a + b := rfl
theorem exec_ssub64 (d a b : BitVec 8) (s : State) :
    exec (.ssub64 d a b) s = scalar64 d a b s fun a b => a + (2 ^ 64 - b) := rfl
theorem exec_smul64 (d a b : BitVec 8) (s : State) : exec (.smul64 d a b) s = scalar64 d a b s fun a b => a * b := rfl
theorem exec_sshl64 (d a b : BitVec 8) (s : State) :
    exec (.sshl64 d a b) s = scalarShift64 d a b s fun a n => a * 2 ^ n := rfl
theorem exec_sshr64 (d a b : BitVec 8) (s : State) :
    exec (.sshr64 d a b) s = scalarShift64 d a b s fun a n => a / 2 ^ n := rfl

/-- What `sli` writes (R140). -/
def sliValue (x : Ext) (i : BitVec 16) : Nat := match x with
  | .imm hi => hi.toNat * 2 ^ 16 + i.toNat
  | _ => i.toNat

theorem exec_sli (x : Ext) (d : BitVec 8) (i : BitVec 16) (s : State) :
    exec (.sli x d i) s = scalarUnit (extSize x) [] d.toNat 1 false s fun _ => sliValue x i := rfl

theorem sli_ends {s : State} {wid eid : Nat} {w : Wave} {f : Frag} {d : BitVec 8} {x : Ext} {i : BitVec 16} {v : Word}
    (h : Issuing s wid eid w f) (hd : DstS w d)
    (hv : BitVec.ofNat 32 (sliValue x i) = v) :
    ∃ t, exec (.sli x d i) s = .next t ∧ UnitEnds s t wid eid (w.setS d.toNat v) (afterUnit (extSize x) true f) := by
  subst hv
  exact scalarUnit_ends (extSize x) [] d.toNat 1 false (fun _ => sliValue x i) h (List.forall_mem_nil _) hd

theorem slih_ends {s : State} {wid eid : Nat} {w : Wave} {f : Frag} {d : BitVec 8} {i : BitVec 16}
    (h : Issuing s wid eid w f) (hd : DstS w d) :
    ∃ t, exec (.slih d i) s = .next t ∧
      UnitEnds s t wid eid (w.setS d.toNat (i ++ (w.sreg d.toNat).extractLsb' 0 16)) (afterUnit 4 true f) := by
  have ho : Opnds.Ready w f { sd := some (d.toNat, 1, false) } := ⟨by simp, by simp, by simp, by rintro _ ⟨⟩; exact hd⟩
  change ∃ t, execSlih d i s = _ ∧ _
  refine issueUnit_ends 4 true h [] ?_ h.2.2 rfl (.inl rfl)
  rw [getOpnds_ok _ _ ho, ← setFld_high]
  rfl

theorem trapsIllegal_sli {x : Ext} {d : BitVec 8} {i : BitVec 16} (h : 192 ≤ d.toNat) : TrapsIllegal (.sli x d i) :=
  scalarUnit_traps (exec_sli x d i) (.inr (scalarDst_special h))

theorem trapsIllegal_slih {d : BitVec 8} {i : BitVec 16} (h : 192 ≤ d.toNat) : TrapsIllegal (.slih d i) := by
  intro s wid eid w f hi
  change execSlih d i s = _
  refine issueUnit_traps (arg := 0) 4 true hi ?_
  rw [getOpnds_trap _ _ _ _ (.inr (scalarDst_special h))]
  rfl

/-! ## The scalar instructions -/

/-- R135. -/
theorem scalarThreeOperandResults : ScalarThreeOperandResults := by
  refine ⟨scalar3_of (fun a b => a + b) fun _ _ => rfl,
    scalar3_of (fun a b => a + (2 ^ 32 - b)) ofNat_sub,
    scalar3_of (fun a b => a * b) fun _ _ => rfl,
    scalar3_of (fun a b => wrap 32 (signed 32 a * signed 32 b / (2 ^ 32 : Nat))) ofNat_mulh,
    scalar3_of (fun a b => a * b / 2 ^ 32) ofNat_mulhu,
    scalar3_of (fun a b => a &&& b) fun a b => ofNat_of_toNat_eq (BitVec.toNat_and a b),
    scalar3_of (fun a b => a ||| b) fun a b => ofNat_of_toNat_eq (BitVec.toNat_or a b),
    scalar3_of (fun a b => a ^^^ b) fun a b => ofNat_of_toNat_eq (BitVec.toNat_xor a b),
    scalar3_of (fun a b => a &&& (2 ^ 32 - 1 - b)) ofNat_andn,
    scalar3_of (fun a b => a * 2 ^ (b % 32)) fun a _ => ofNat_shl a _,
    scalar3_of (fun a b => a / 2 ^ (b % 32)) fun a _ => ofNat_shr a _,
    scalar3_of (fun a b => sra 32 a (b % 32)) fun a _ => ofNat_sra a _,
    scalar3_of (fun a b => rotl 32 a (b % 32)) fun a _ => ofNat_rotl a _,
    scalar3_of (fun a b => if signed 32 a ≤ signed 32 b then a else b) fun a b => ?smin,
    scalar3_of (fun a b => if signed 32 a ≤ signed 32 b then b else a) fun a b => ?smax,
    scalar3_of (fun a b => min a b) fun a b => ofNat_ite_toNat (a.toNat ≤ b.toNat) a b,
    scalar3_of (fun a b => max a b) fun a b => ofNat_ite_toNat (a.toNat ≤ b.toNat) b a,
    scalar3_of (fun a b => truth (a == b)) fun a b => by rw [ofNat_truth, toNat_beq],
    scalar3_of (fun a b => truth (a != b)) fun a b => by rw [ofNat_truth, bne, toNat_beq, bne],
    scalar3_of (fun a b => truth (signed 32 a < signed 32 b)) fun a b => ?slt,
    scalar3_of (fun a b => truth (signed 32 a ≤ signed 32 b)) fun a b => ?sle,
    scalar3_of (fun a b => truth (a < b)) fun _ _ => ofNat_truth _,
    scalar3_of (fun a b => truth (a ≤ b)) fun _ _ => ofNat_truth _, ?encodings⟩
  case smin => simp only [signed_toNat, BitVec.sle_eq_decide, decide_eq_true_eq, ofNat_ite_toNat]
  case smax => simp only [signed_toNat, BitVec.sle_eq_decide, decide_eq_true_eq, ofNat_ite_toNat]
  case slt => rw [ofNat_truth, signed_toNat, signed_toNat, BitVec.slt]
  case sle => rw [ofNat_truth, signed_toNat, signed_toNat, BitVec.sle]
  case encodings =>
    simp only [List.zipIdx_cons, List.zipIdx_nil, List.forall_mem_cons, List.not_mem_nil, false_implies,
      implies_true, and_true]
    and_intros
    all_goals exact encodes_of (by decide) fun _ => rfl

theorem ofNat_select (d a b : Word) :
    BitVec.ofNat 32 (if d.toNat == 0 then b.toNat else a.toNat) = if d ≠ 0#32 then a else b := by
  simp only [ofNat_ite_toNat, beq_iff_eq, toNat_eq_zero, ne_eq, ite_not]

/-- R136, R137. -/
theorem scalarSelectAndBitFields : ScalarSelectAndBitFields :=
  ⟨scalar3d_of (fun d a b => if d == 0 then b else a) ofNat_select,
   scalar3_of bfe ofNat_bfe,
   scalar3d_of bfi ofNat_bfi,
   encodes_of (by decide) fun _ => rfl, encodes_of (by decide) fun _ => rfl, encodes_of (by decide) fun _ => rfl⟩

theorem ofNat_ffs (a : Word) : BitVec.ofNat 32 (if a.toNat == 0 then 0 else 1 + ctz 32 a.toNat) =
    if a = 0#32 then 0#32 else BitVec.ofNat 32 (1 + lowestBit a) := by
  simp only [beq_iff_eq, toNat_eq_zero, ctz_eq_lowestBit, apply_ite (BitVec.ofNat 32)]

/-- R138, R139, R140. -/
theorem scalarUnary64AndImmediates : ScalarUnary64AndImmediates :=
  ⟨⟨scalar1_of (fun a => a) fun a => ofNat_of_toNat_eq rfl,
    scalar1_of (fun a => wrap 32 (signed 32 a).natAbs) ofNat_abs,
    scalar1_of (popc 32) fun a => by rw [popc_eq_bitsSet],
    scalar1_of (clz 32) fun a => by rw [clz_eq_bitsAbove],
    scalar1_of (ctz 32) fun a => by rw [ctz_eq_lowestBit],
    scalar1_of (fun a => if a == 0 then 0 else 1 + ctz 32 a) ofNat_ffs,
    encodesSun_of fun _ _ => rfl, encodesSun_of fun _ _ => rfl, encodesSun_of fun _ _ => rfl, encodesSun_of fun _ _ => rfl,
    encodesSun_of fun _ _ => rfl, encodesSun_of fun _ _ => rfl⟩,
   ⟨scalar64_of exec_sadd64 fun _ _ => rfl,
    scalar64_of exec_ssub64 ofNat_sub,
    scalar64_of exec_smul64 fun _ _ => rfl,
    scalarShift64_of exec_sshl64 ofNat_shl,
    scalarShift64_of exec_sshr64 ofNat_shr,
    encodes_of (by decide) fun _ => rfl, encodes_of (by decide) fun _ => rfl, encodes_of (by decide) fun _ => rfl,
    encodes_of (by decide) fun _ => rfl, encodes_of (by decide) fun _ => rfl,
    fun d a b =>
      ⟨fun h => ⟨trapsIllegal_scalar64 (exec_sadd64 d a b) h, trapsIllegal_scalar64 (exec_ssub64 d a b) h,
        trapsIllegal_scalar64 (exec_smul64 d a b) h⟩,
       fun h => ⟨trapsIllegal_scalarShift64 (exec_sshl64 d a b) h, trapsIllegal_scalarShift64 (exec_sshr64 d a b) h⟩⟩⟩,
   fun d i =>
     ⟨decodeUnit_sli d i, fun hi => decodeUnit_imm_sli hi d i, decodeUnit_slih d i, fun p => decodeUnit_ext_slih p d i,
      fun hd => ⟨trapsIllegal_sli hd, fun _ => trapsIllegal_sli hd, trapsIllegal_slih hd⟩⟩,
   fun _ _ _ _ _ _ i h hd =>
     ⟨sli_ends h hd (BitVec.ofNat_toNat 32 i), fun hi => sli_ends h hd (ofNat_halves hi i), slih_ends h hd⟩⟩

/-- R102. -/
theorem scalarSourceFields : ScalarSourceFields := by
  intro s wid w f a
  refine ⟨opS_reg s wid w f, fun h h' => ⟨opS_const s wid w f h h', opS64_const s wid w f h h'⟩, ?emask, ?fmt, ?fflags,
    ?active, ?widx, ?lin, ?timebase, ?zero, scalarCheck_unassigned, fun h => scalarCheck_noPair (.inl h),
    fun h h' => scalarCheck_noPair (.inr ⟨h, h'⟩), scalarDst_special, opS64_pair s wid w f⟩
  case active =>
    rintro rfl
    rw [← popc_eq_bitsSet]
    exact opS_special s wid w f (by decide)
  all_goals
    rintro rfl
    exact opS_special s wid w f (by decide)

/-- Settles O1: each scalar instruction is one of a few forms, each form completes with what the model's number function
gives, and that function computes the rule's operation on words. -/
theorem scalarResults : Obligations.ScalarResults :=
  ⟨scalarThreeOperandResults, scalarSelectAndBitFields, scalarUnary64AndImmediates, scalarSourceFields⟩

/-! ## Branches on a scalar (R109, R146, R149) -/

theorem target_eq_branchTarget (pc : DWord) {n : Nat} (o : BitVec n) : target pc o = branchTarget pc o := by
  have hshift : o.signExtend 64 <<< 1 = BitVec.ofInt 64 2 * BitVec.ofInt 64 o.toInt := by
    rw [BitVec.shiftLeft_eq_mul_twoPow, BitVec.mul_comm]
    rfl
  rw [target, branchTarget, hshift, BitVec.ofInt_mul]

/-- A scalar-conditional branch goes where its condition on the source says (R146). -/
theorem branchUnit_of {i : BitVec 8 → BitVec 16 → Instr} {onControl : Bool} {kb : Frag → Word → Bool} {k : Frag → Word → Prop}
    [∀ f a, Decidable (k f a)] (hexec : ∀ a o s, exec (i a o) s = condBranch a o s onControl kb)
    (hk : ∀ f v, kb f v = true ↔ k f v) : BranchUnit i onControl k := by
  intro s wid eid w f a o h ha hc
  have ho : Opnds.Ready w f { s := [{ fd := a.toNat }] } :=
    ⟨by simp, List.forall_mem_singleton.mpr ha, by simp, by simp⟩
  have hcc : (w.control && !onControl) = false := by rcases hc with hc | hc <;> simp [hc]
  have hends : ∃ t, condBranch a o s onControl kb = .next t ∧
      let tgt := if kb f (opS s wid w f a) then target f.pc o else f.pc + 4
      UnitEnds s t wid eid (wentTo w f tgt f.memb) (afterUnit 4 false { f with pc := tgt }) := by
    refine jumpUnit_ends h h.2.2 ?_
    rw [hcc, trapIf_false, ok_bind, getOpnds_ok _ _ ho, setWave_same (s := s.withEv []) h.2.1]
    rfl
  obtain ⟨t, ht, hu⟩ := hends
  refine ⟨t, (hexec a o s).trans ht, ?_⟩
  split
  · next htrue => rwa [if_pos ((hk _ _).mpr htrue), target_eq_branchTarget] at hu
  · next hfalse =>
    rw [if_neg (mt (hk _ _).mp hfalse)] at hu
    simpa [wentTo] using hu

/-- Settles O2: both are branches on one scalar whose condition is on the active lanes. -/
theorem uniformLaneBranches : Obligations.UniformLaneBranches := by
  refine ⟨branchUnit_of (kb := fun f v => (f.active &&& ~~~v) == 0) (fun _ _ _ => rfl) fun f v => ?_,
    branchUnit_of (kb := fun f v => (f.active &&& v) != 0) (fun _ _ _ => rfl) fun f v => ?_,
    fun a o => ⟨decodeUnit_imm16 (arm := dec28 .none) o a (by decide) fun _ => rfl,
      decodeUnit_imm16 (arm := dec29 .none) o a (by decide) fun _ => rfl⟩⟩
  · rw [beq_iff_eq, Frag.active]
    rfl
  · rw [bne_iff_ne, Frag.active]
    rfl

end Sys2Proof.Proofs
end
